-- ==== Sys2Proof/Word.lean ====
section
/-! DEFINITION. The words of the C9480: 16-bit registers (00_scope.md R12), bytes, and the indices of its ports,
lanes and queues. -/

namespace Sys2Proof

/-- A register holds one 16-bit word (R12). -/
abbrev Word := BitVec 16

/-- A byte of a frame or message. -/
abbrev Byte := BitVec 8

/-- A frame or message as its bytes, the first on the medium first. -/
abbrev Bytes := List Byte

/-- A point of a constellation, real and imaginary part (03_octavo.md R80). -/
abbrev Point := Int × Int

/-- Line port LP0 to LP7. -/
abbrev Port := Fin 8

/-- Lanes: 0 to 7 are H0 to H7, 8 to 15 are T0 to T7 (18_register_map.md R531). -/
abbrev Lane := Fin 16

/-- A priority class. -/
abbrev Cls := Fin 8

/-- A Quire queue in the layout of QUIRE_Q_SEL: class in bits 2 to 0, port in bits 5 to 3, direction in bit 6 (R306). -/
abbrev Queue := Fin 128

end Sys2Proof
end

