-- ==== Sys2Proof/Config.lean ====
section
/-! DEFINITION. What the spec leaves open: opaque constants, applied to the operands they depend on or to the plain
counter State.freeCtr. No proof can see their values; the assumption log names each. -/

namespace Sys2Proof

/-- FREE VALUE (log entry 10): the reset value of LPn_PFC_SA, "a locally administered address built from the die identity
and the port number" by a formula the spec does not give (02_line_port.md R79); from the serial and the port. -/
opaque Config.pfcSa : Nat → Nat → BitVec 48

/-- FREE VALUE (log entry 11): the seed of a port's Pip die-roll LFSR, "seeded at block reset from the die serial and the
port number" by a formula the spec does not give (04_pip_channel.md R138), less 1: no seed is 0; from the serial and the port. -/
opaque Config.pipSeed : Nat → Nat → Fin 65535

/-- FREE VALUE (log entry 12): where inside its bound of ±250 ps a capture stamp or an event edge lies (06_folio_time.md
R222, R224), in 2^-16 ns, from the counter. -/
opaque Config.jitter : Nat → Fin 32769

/-- FREE VALUE (log entry 13): the proportional-integral servo's rate after a measurement (06_folio_time.md R201 gives its
bandwidth and no gains): from bandwidth, offset, rate and counter. -/
opaque Config.servoRate : Nat → Int → Int → Nat → Int

/-- FREE VALUE (log entry 13): what the phase loop adds to a rate that is fed forward, on a tail (09_spine_cascade.md R320) or
from a port's recovered symbol timing (06_folio_time.md R213): the spec gives bandwidths and no gains; from bandwidth, offset
and counter. -/
opaque Config.phaseTrim : Nat → Int → Nat → Int

/-- FREE VALUE (log entry 119): a SLAVE port's recovered symbol rate over TPLL's, less 1, as Folio measures it
(06_folio_time.md R213), 2^-56 per step; from the port and the TPLL count. -/
opaque Config.symRatio : Nat → Nat → Int

/-- FREE VALUE (log entry 127): the point of a label of a cross constellation, whose labels the spec does not give
(03_octavo.md R80); from the bits on the tone and the label. -/
opaque Config.crossQam : Nat → Nat → Point

/-- FREE VALUE (log entry 127): the 4,096 samples of the real inverse transform of 2,048 tones, whose scale and rounding the spec
does not give (03_octavo.md R80). -/
opaque Config.inverseTransform : List Point → List Int

/-- FREE VALUE (log entry 127): the normalisation of the min-sum decoder, which the spec does not give (03_octavo.md R89). -/
opaque Config.minSum : Nat → Nat

/-- FREE VALUE (log entry 127): the idle block of IEEE 802.3 Clause 149 (03_octavo.md R86). -/
opaque Config.idleBlock : BitVec 65

/-- FREE VALUE (log entry 128): by how much the RS-FEC frame period of a standard mode exceeds 100 ns (05_cable_and_idle.md R172
gives no more), in 2^-16 ns; from the mode. -/
opaque Config.fecPeriod : Nat → Nat

/-- FREE VALUE (log entry 14): what a privileged unit's sample shows of the work in progress, the ROM word address of the
Binder or the queue and bank of Quire (16_counters.md R505, R509); from the unit and the counter. -/
opaque Config.pmcSample : Nat → Nat → BitVec 16

/-- FREE VALUE (log entry 16): how far the servo moves RATE, at most 100 ppm, while it removes an offset above 1 µs without
a step (06_folio_time.md R201), in 2^-56; from the counter. -/
opaque Config.slew : Nat → Fin 7205759403793

/-- FREE VALUE (log entry 17): fields of the PTP messages that the part sends and to which the spec gives no value; from
the field's place in the message, counted from the PTP header. -/
opaque Config.ptpFill : Nat → Byte

/-- FREE VALUE (log entry 80): the slope of a least-squares fit whose entries all lie at one powered hour, for which R467
states none (14_calibration_and_ageing.md); from the counter. -/
opaque Config.ageSlope : Nat → Int

/-- FREE VALUE (log entry 93): the signature that BIST folds from a target's reads at power-on (15_self_test_and_faults.md
R474 gives no fold); from the target and the counter. -/
opaque Config.bistSig : Nat → Nat → BitVec 32

/-- FREE VALUE (log entry 122): bits 127 to 0 of a word of a keep bank, whose layout the spec does not give
(13_power_and_reset.md R437, R438); from the bank, what it keeps, and the word's address. -/
opaque Config.keepWord {α : Type} : Nat → α → Nat → BitVec 128

/-- FREE VALUE (log entry 96): LPn_PCS_STAT.HI_RFER while the PCS has block lock, the high frame error ratio of the standard
(02_line_port.md R79); from the port and the TPLL count. -/
opaque Config.hiRfer : Nat → Nat → Bool

/-- FREE VALUE (log entry 102): the fields of a standard MMD register that have no counterpart in the manual, as IEEE 802.3
defines them (10_register_fabric.md R347); from the port, the MMD, the register and 1 more than the word last written to it. -/
opaque Config.mmdStd : Nat → Nat → Nat → Nat → BitVec 16

/-- FREE VALUE (log entry 102): LPn_AN_ADV after a write of a standard advertisement register, whose layout the manual does
not give (10_register_fabric.md R347); from the register, the word written and what LPn_AN_ADV held. -/
opaque Config.mmdAdv : Nat → BitVec 16 → BitVec 16 → BitVec 16

/-- FREE VALUE (log entry 102): what a standard advertisement register shows of LPn_AN_ADV; from the register and LPn_AN_ADV. -/
opaque Config.mmdAdvRead : Nat → BitVec 16 → BitVec 16

/-- FREE VALUE (log entry 4): a word of a stored record that the model does not hold: a factory record of the OTP, a slot whose
check fails, a place past a record's last word (14_calibration_and_ageing.md R451); from the space, the record, the sequence
and the place. -/
opaque Config.nvmWord : Nat → Nat → Nat → Nat → BitVec 32

end Sys2Proof
end

