-- ==== Sys2Proof/Syntax.lean ====
section
/-! DEFINITION. The commands of the C9480: one constructor per row of spec/opcode_table.json, with the operands the
commands and events of the spec carry. Measured or received values are operands: the model takes any value. -/

namespace Sys2Proof

/-- The interfaces an access can come through (10_register_fabric.md R335, R363). -/
inductive Ifc where
  | spi0 | spi1 | mdio | twm | binder
deriving DecidableEq, Repr

/-- An access that waits at an interface: its address, and mask and data of a write, none for a read (10_register_fabric.md
R335). -/
structure Access where
  ifc : Ifc := .spi0
  addr : BitVec 19 := 0
  wr : Option (BitVec 16 × BitVec 16) := none
deriving DecidableEq, Repr

/-- A one-tap equaliser of a tone as a fraction (03_octavo.md R100): real and imaginary part of the numerator, denominator. -/
structure Equaliser where
  re : Int := 0
  im : Int := 0
  den : Nat := 0
deriving DecidableEq, Repr

/-- A Spine face: N toward the head of the stack, S toward its tail (09_spine_cascade.md R307). -/
inductive Face where
  | n | s
deriving DecidableEq, Repr

/-- A word of Quire's stores that a read meets (08_quire_buffer.md R270, R271): its store, 0 cells, 1 descriptors or 2 cell
pointers, its address in the layout of QUIRE_ECC_ADDR, the bits of its 145 that are wrong, and, in a cell, the place in the
frame of the word's first byte. -/
structure WordRead where
  store : Fin 3 := 0
  addr : BitVec 22 := 0
  err : BitVec 145 := 0
  place : Nat := 0
deriving DecidableEq, Repr

/-- What the decoder of a lane has counted since the last frame (16_counters.md R500): codewords corrected, symbols corrected,
uncorrectable codewords, and PCS blocks with an invalid sync header or type. -/
structure LaneDec where
  cw : Nat := 0
  sym : Nat := 0
  unc : Nat := 0
  blk : Nat := 0
deriving DecidableEq, Repr

/-- Where the word that the scrubber reads lies (08_quire_buffer.md R274). -/
inductive ScrubAt where
  /-- in a free cell, or in no frame -/
  | free
  /-- in a queue's frame, by its place in the queue -/
  | frame (q : Queue) (i : Nat)
  /-- in a frame stored for the neighbour, by its place among them -/
  | lent (i : Nat)
deriving DecidableEq, Repr

/-- An event that reaches a Roll engine (15_self_test_and_faults.md R491); `tx`: on transmit. -/
inductive RollEvt where
  /-- a frame of a class with its bytes -/
  | frame (tx : Bool) (cls : Fin 8) (b : Bytes)
  /-- a symbol -/
  | symbol (tx : Bool)
  /-- an FEC codeword: 0 RS(544,514), 1 RS(360,326), 2 RS(528,514), 3 the Octavo LDPC -/
  | codeword (tx : Bool) (code : Fin 4)
  /-- a Pip frame sent -/
  | pip
deriving DecidableEq, Repr

/-- Why a Pip frame is discarded (04_pip_channel.md R131). -/
inductive PipBad where
  /-- a bit of the start delimiter is wrong -/
  | delimiter
  /-- its length is above 64 -/
  | length
  /-- its CRC fails -/
  | crc
  /-- its CRC checks and its TYPE is not listed: TYPE, rate (0 P1, 1 P4, 2 P16) and LQ -/
  | typ (typ : Byte) (rate : Fin 3) (lq : Byte)
deriving DecidableEq, Repr

/-- One constructor per row of spec/opcode_table.json: the commands and events of the C9480. -/
inductive Instr where
  /-- A frame received from a line pair is checked, stamped and committed to its Quire queue (R267). Operands: line port, the frame's bytes, its stamp instant after the last tick in 2^-16 ns, in Octavo how many of the last codewords carried it. -/
  | lineRxFrame (p : Port) (b : Bytes) (frac cws : Nat)
  /-- A free output picks the next frame by priority or deficit round robin and starts sending it (R290). Operands: output (0 to 7 pairs, 8 to 15 Hn, 16 tagged), instant after the last tick, a word its reads meet, the first byte has left. -/
  | queueServe (o : Fin 17) (frac : Nat) (r : WordRead) (started : Bool)
  /-- A frame from the host is checked for tag, length and FCS, reordered in BONDED mode, stripped and queued toward the line (R34). Operands: lane (Tn too where it is retimed), the frame's bytes, instant after the last tick, what the lane's decoder has counted since the last. -/
  | hostRxFrame (l : Lane) (b : Bytes) (frac : Nat) (dec : LaneDec)
  /-- A write to HGRP_MODE takes effect at once with all lanes disabled, or is stored as pending (R26). Operands: interface, MODE. -/
  | hgrpModeWrite (i : Ifc) (mode : BitVec 3)
  /-- Setting LPn_PMA_CTL.ENABLE takes the start exit of DISABLED to PIP_PRE, AN or TRAIN (R49). Operands: interface, port. -/
  | portEnable (i : Ifc) (p : Port)
  /-- Clearing LPn_PMA_CTL.ENABLE sends the port to DISABLED within 1 µs and silences its transmitters (R54). Operands: interface, port. -/
  | portDisable (i : Ifc) (p : Port)
  /-- LPn_PMA_CTL.SRST returns the port's state and adapted values to reset and takes the start exit if enabled (R79). Operands: interface, port. -/
  | portSrst (i : Ifc) (p : Port)
  /-- A write of 1 to LPn_LINK_CTL.RESTART sends the port to LINK_FAIL with FAIL_CAUSE 6 or restarts T_HOLD (R55). Operands: interface, port, a link-fail criterion has been met in the same cycle. -/
  | restart (i : Ifc) (p : Port) (met : Bool)
  /-- T_PRE of 24 ms expires and the port goes to AN, TRAIN or LINK_FAIL by MODE_SEL (R49). Operands: line port. -/
  | pipPreTimeout (p : Port)
  /-- T_CAP of 16 ms expires without agreement and the port goes to AN, TRAIN or LINK_FAIL (R49). Operands: line port. -/
  | pipCapTimeout (p : Port)
  /-- T_AN of 500 ms expires and the port enters LINK_FAIL (R49). Operands: line port. -/
  | anTimeout (p : Port)
  /-- T_TRAIN of 400 ms expires and the port enters LINK_FAIL (R49). Operands: line port. -/
  | trainTimeout (p : Port)
  /-- T_FAST of 12 ms expires, FAST_MISS is set and the port goes to AN or full TRAIN (R49). Operands: line port. -/
  | fastTrainTimeout (p : Port)
  /-- T_HOLD of 10 ms expires and the port goes to HALT, BACKOFF or the start exit (R49). Operands: line port. -/
  | linkFailHoldExpiry (p : Port)
  /-- T_BACK of 500 ms expires and the port takes the start exit of DISABLED (R49). Operands: line port. -/
  | backoffExpiry (p : Port)
  /-- T_CAL expires during a standard-port calibration, which ends ABORTED with the old trims restored (R458). Operands: line port. -/
  | calStateTimeout (p : Port)
  /-- Clause 98 pages seen in PIP_PRE send the port to AN or TRAIN, or are ignored under forced Octavo (R49). Operands: line port. -/
  | clause98PagesDetected (p : Port)
  /-- Clause 98 negotiation ends with a resolved standard mode to TRAIN, or with no common mode or a master-slave fault to LINK_FAIL (R47). Operands: line port, the partner's advertisement, the role Clause 98 resolved, a configuration fault. -/
  | anComplete (p : Port) (ability : BitVec 14) (master msFault : Bool)
  /-- PCS link_status goes OK in TRAIN or FAST_TRAIN and the port enters LINK_UP (R49). Operands: line port, trained values as group, index and value. -/
  | pcsLinkOk (p : Port) (l : List (Nat × Nat × Int))
  /-- The standard's training failure sends the port from TRAIN to LINK_FAIL (R49). Operands: line port. -/
  | trainFail (p : Port)
  /-- After 1 s up without a break, ATTEMPTS is cleared (R52). Operands: line port. -/
  | linkUpStable (p : Port)
  /-- PCS link_status going to FAIL in LINK_UP declares link fail with cause 1 (R68). Operands: line port. -/
  | pcsLinkStatusFail (p : Port)
  /-- Received energy below the signal-detect threshold for 50 µs outside LPI declares link fail with cause 2 (R68). Operands: line port. -/
  | signalDetectLoss (p : Port)
  /-- The end of a 1 ms monitoring window updates the SNR and FEC window counts and declares link fail cause 3 or 4 after WIN bad windows (R68). Operands: line port, SNR in 0.1 dB, codewords corrected and uncorrectable in the window. -/
  | lmWindowEnd (p : Port) (snr : BitVec 10) (corr unc : Nat)
  /-- An adaptation step updates the adapted values of groups 0 to 4 within their envelopes (R58). Operands: line port, the values the step would set as group, index and value. -/
  | adaptationStep (p : Port) (l : List (Nat × Nat × Int))
  /-- A quick refresh ends after at most 2 ms with success, new centres and a snapshot, or failure and restored values (R60). Operands: line port. -/
  | quickRefreshEnd (p : Port)
  /-- 10 ms after a failed refresh a further refresh starts, and three failures in 1 s declare link fail cause 5 (R61). Operands: line port. -/
  | quickRefreshRetry (p : Port)
  /-- A write of 1 to LPn_DSP_CTL.REFRESH_REQ starts or restarts a quick refresh in LINK_UP or SHOWTIME (R62). Operands: interface, port. -/
  | refreshReq (i : Ifc) (p : Port)
  /-- An access to LPn_DSP_TAP_DATA reads or writes the selected adapted value, clipping and moving its centre, and auto-increments INDEX (R64). Operands: interface, port, the word written, none for a read, an adaptation step updates the value in the same cycle. -/
  | dspTapDataAccess (i : Ifc) (p : Port) (wr : Option (BitVec 16)) (met : Bool)
  /-- Setting a group freeze bit stops adaptation of the group and ends a running quick refresh without result (R65). Operands: interface, port, the five freeze bits. -/
  | groupFreeze (i : Ifc) (p : Port) (bits : BitVec 5)
  /-- A received PFC frame pauses the named enabled classes toward the sensor and is counted (R76). Operands: line port, the frame's bytes. -/
  | pfcFrameRx (p : Port) (f : Bytes)
  /-- A received IEEE 802.3 PAUSE frame is consumed, counted and ignored (R77). Operands: line port. -/
  | pauseFrameRx (p : Port)
  /-- A received pause time runs out and the class may send again (R76). Operands: line port, class, on the side of Hn. -/
  | pfcPauseExpiry (p : Port) (k : Cls) (host : Bool)
  /-- Every PFC_REFRESH.PERIOD while a class is held, a further PFC frame is sent (R73). Operands: line port, class, on the side of Hn. -/
  | pfcRefreshTimer (p : Port) (k : Cls) (host : Bool)
  /-- A training phase reaches its fixed length and the port moves to the next phase or ends training with DOWN_CAUSE 1 or 2 (R97). Operands: line port, the phase had its result, SNR per tone in 0.1 dB and group delays in 2^-16 ns where it measured them, and for CHANNEL the values received per data tone. -/
  | octavoPhaseEnd (p : Port) (ok : Bool) (snr : List Nat) (gd : List Int) (rx : List (List Point))
  /-- The MASTER accepts the SLAVE's report on the first copy with a good CRC-32 (R102). Operands: line port, the 42 bytes. -/
  | loadReportRx (p : Port) (b : Bytes)
  /-- The SLAVE accepts the MASTER's grade and split decision on the first copy with a good CRC-32 (R102). Operands: line port, the 8 bytes. -/
  | loadDecisionRx (p : Port) (b : Bytes)
  /-- In EXCHANGE the first copy of the partner's loading table with a good CRC-32 is taken for the transmitter (R103). Operands: line port, the 1028 bytes. -/
  | loadingTableRx (p : Port) (b : Bytes)
  /-- At the first superframe boundary after EXCHANGE the link enters SHOWTIME with SF_COUNT 0 (R103). Operands: line port. -/
  | showtimeStart (p : Port)
  /-- A received LDPC codeword is decoded in 12 iterations, its blocks and management slice passed on or replaced and discarded (R90). Operands: line port, its soft values, the start of its superframe was received. -/
  | codewordRx (p : Port) (llr : List Int) (start : Bool)
  /-- Per-tone equaliser tracking sets TONE_DRIFT when a tone leaves ±3 dB of its CHANNEL value (R108). Operands: line port, tone, its equaliser now. -/
  | toneEqTrack (p : Port) (tone : Fin 2048) (w : Equaliser)
  /-- Every 64 superframes the receiver evaluates its margins and sends SWAP_REQ with moved bits (R111). Operands: line port, SNR per tone in 0.1 dB or empty. -/
  | swapEvaluation (p : Port) (snr : List Nat)
  /-- The transmitter answers a SWAP_REQ with SWAP_ACK naming a target or SWAP_NAK with a reason (R112). Operands: line port, the message. -/
  | swapReqRx (p : Port) (m : Bytes)
  /-- The requester notes the target superframe of its accepted swap (R113). Operands: line port, the message. -/
  | swapAckRx (p : Port) (m : Bytes)
  /-- The requester drops its refused swap and sets SWAP_NAK (R112). Operands: line port, the message. -/
  | swapNakRx (p : Port) (m : Bytes)
  /-- At the target superframe the transmitter sends an inverted flag and uses the new loading (R113). Operands: line port, of the transmit direction. -/
  | swapChangeover (p : Port) (tx : Bool)
  /-- A receiver detecting an inverted flag changes over for an outstanding request, or counts a stray flag (R113). Operands: line port, received superframe. -/
  | invertedFlagRx (p : Port) (sf : Byte)
  /-- 16 superframes without an answer resend the request with the same SEQ, up to four times, and then abandon it (R114). Operands: line port. -/
  | swapRetryTimeout (p : Port)
  /-- A write of 1 to LPn_OCT_CTL.RELOAD starts a reload with the MASTER's values (R116). Operands: interface, port. -/
  | reload (i : Ifc) (p : Port)
  /-- A received RELOAD_REQ is answered by the MASTER's own request or by table computation and TABLE fragments, or RELOAD_NAK (R116). Operands: line port, the message. -/
  | reloadReqRx (p : Port) (m : Bytes)
  /-- A received TABLE fragment is stored, and the SLAVE sends RELOAD_ACK once it holds all fragments (R116). Operands: line port, the message. -/
  | tableRx (p : Port) (m : Bytes)
  /-- The MASTER notes the target superframe of the reload changeover (R116). Operands: line port, the message. -/
  | reloadAckRx (p : Port) (m : Bytes)
  /-- A refused reload is abandoned and RELOAD_FAIL is set (R117). Operands: line port, the message. -/
  | reloadNakRx (p : Port) (m : Bytes)
  /-- At the target superframe both transmitters change to the new N, B and loading (R116). Operands: line port. -/
  | reloadChangeover (p : Port)
  /-- A reload unacknowledged within 256 superframes is abandoned with RELOAD_FAIL (R117). Operands: line port. -/
  | reloadTimeout (p : Port)
  /-- Without acknowledgement by X − 2 the pause is cancelled, and refused after three cancellations (R119). Operands: line port. -/
  | pauseCancel (p : Port)
  /-- 64 superframes after a cancelled notice a new pause notice is sent (R119). Operands: line port. -/
  | pauseRenotice (p : Port)
  /-- At superframe X both transmitters fall silent on the data tones and PHASE becomes 12 (R118). Operands: line port. -/
  | pauseStart (p : Port)
  /-- The calibrating port's calibration completes within the pause (R118). Operands: line port. -/
  | pauseCalDone (p : Port)
  /-- At X + 54 the MASTER sends flag symbols, or the link goes down with DOWN_CAUSE 7 if calibration is incomplete (R118). Operands: line port. -/
  | pauseFlagPhase (p : Port)
  /-- At X + 64 data resumes with a plain flag, or the link goes down if no flag is detected (R118). Operands: line port, a flag is detected. -/
  | pauseEnd (p : Port) (flag : Bool)
  /-- Energy below signal detect for 50 µs in SHOWTIME brings the Octavo link down with DOWN_CAUSE 3 (R121). Operands: line port. -/
  | octSignalLoss (p : Port)
  /-- No flag at four consecutive superframe starts brings the Octavo link down with DOWN_CAUSE 4 (R121). Operands: line port. -/
  | octFlagLoss (p : Port)
  /-- A 1 ms window in SHOWTIME counts uncorrectable codewords and SNR margin and brings the link down with cause 5 or 6 after WIN bad windows (R121). Operands: line port, uncorrectable codewords, SNR per tone in 0.1 dB or empty. -/
  | octLmWindowEnd (p : Port) (unc : Nat) (snr : List Nat)
  /-- A received Pip HELLO from a Carestyr identity moves the port to PIP_CAP and is answered with CAP (R146). Operands: line port, rate, LQ, body from payload byte 2. -/
  | helloRx (p : Port) (rate : Fin 3) (lq : Byte) (body : Bytes)
  /-- A received CAP gives the partner's abilities and roles, is acknowledged and may move the port to PIP_CAP (R147). Operands: line port, rate, LQ, SEQ, body. -/
  | capRx (p : Port) (rate : Fin 3) (lq seq : Byte) (body : Bytes)
  /-- The SLAVE answers an OFFER with ACK result 0 or 1 (R149). Operands: as CAP_RX. -/
  | offerRx (p : Port) (rate : Fin 3) (lq seq : Byte) (body : Bytes)
  /-- A received ACK completes an outstanding message and may send OFFER or take the agreed Octavo or fast path (R148). Operands: line port, rate, LQ, body, and the answer's delay in 2^-16 ns. -/
  | pipAckRx (p : Port) (rate : Fin 3) (lq : Byte) (body : Bytes) (turn : Nat)
  /-- A WAKE frame with a good CRC on a listening pair wakes the device (R152). Operands: port, rate and link quality. -/
  | wakeRx (p : Port) (rate : Fin 3) (lq : Byte)
  /-- A received SLEEP is acknowledged and handed to the power sequencer when partner sleep is allowed (R154). Operands: port, rate, link quality, SEQ, STATE, DELAY. -/
  | sleepRx (p : Port) (rate : Fin 3) (lq seq : Byte) (st : Byte) (delay : BitVec 16)
  /-- A received PAUSE notice is acknowledged with result 0 or refused with result 1 (R155). Operands: as CAP_RX. -/
  | pipPauseRx (p : Port) (rate : Fin 3) (lq seq : Byte) (body : Bytes)
  /-- A received BEACON is stamped, corrected and handed to Folio for coarse holdover steering (R157). Operands: line port, rate, LQ, body, and the stamp instant after the last tick in 2^-16 ns. -/
  | beaconRx (p : Port) (rate : Fin 3) (lq : Byte) (body : Bytes) (frac : Nat)
  /-- A received DIAG_REQ is answered by code with DIAG_RPT, ACK, or storage in the receive buffer (R158). Operands: as CAP_RX. -/
  | diagReqRx (p : Port) (rate : Fin 3) (lq seq : Byte) (body : Bytes)
  /-- A DIAG_RPT answering this port's request completes it and sets DIAG_RPT (R158). Operands: as HELLO_RX. -/
  | diagRptRx (p : Port) (rate : Fin 3) (lq : Byte) (body : Bytes)
  /-- A Pip frame with a bad delimiter, length, CRC or TYPE is discarded and counted (R131). Operands: line port, why. -/
  | pipBadFrameRx (p : Port) (why : PipBad)
  /-- A new preamble stronger by CAPTURE_DB aborts the frame in progress and the receiver locks to the new one (R135). Operands: line port, amplitude above the present frame's in 0.5 dB steps. -/
  | pipCapture (p : Port) (diff : Int)
  /-- After 16 µs idle and the die-roll backoff the port sends its next waiting Pip frame (R137). Operands: line port, the instant the start delimiter ends. -/
  | pipBackoffEnd (p : Port) (frac : Nat)
  /-- 8 µs after a frame that needs an answer, the answer is sent without listening (R139). Operands: as PIP_BACKOFF_END. -/
  | pipAnswerTx (p : Port) (frac : Nat)
  /-- 1 ms plus a die-roll delay after the last HELLO, the next HELLO becomes due (R146). Operands: line port. -/
  | helloDue (p : Port)
  /-- T_ANS without an answer resends the message with the same SEQ, abandoning it with NO_ANS after four sends (R143). Operands: line port, TYPE and SEQ of the message. -/
  | pipAnswerTimeout (p : Port) (typ seq : Byte)
  /-- A write of 1 to LPn_PIP_CTL.WAKE_REQ starts a burst of back-to-back WAKE frames (R150). Operands: interface, port. -/
  | wakeReq (i : Ifc) (p : Port)
  /-- BURST ms after the first chip no further WAKE frame starts and WAKE_DONE is set (R150). Operands: line port. -/
  | wakeBurstEnd (p : Port)
  /-- A write of 1 to LPn_PIP_CTL.SLEEP_REQ sends a SLEEP message (R154). Operands: interface, port. -/
  | sleepReq (i : Ifc) (p : Port)
  /-- A write of 1 to LPn_PIP_CTL.DIAG_REQ sends a DIAG_REQ with the configured code and data (R158). Operands: interface, port. -/
  | diagReq (i : Ifc) (p : Port)
  /-- In BACKOFF and HALT a BEACON is sent every BEACON_PER × 8 ms (R156). Operands: line port. -/
  | beaconPeriodTimer (p : Port)
  /-- A write to LPn_PIP_DIAG_CTL sets code and length and resets the buffer pointer (R159). Operands: interface, port, word. -/
  | pipDiagCtlWrite (i : Ifc) (p : Port) (v : BitVec 16)
  /-- An access to LPn_PIP_DIAG_DATA reads or writes two buffer bytes and advances the pointer by 2 (R159). Operands: interface, port, the word written, none for a read. -/
  | pipDiagDataAccess (i : Ifc) (p : Port) (wr : Option (BitVec 16))
  /-- A write of 1 to LPn_DIAG_CTL.TDR_START starts or restarts a reflectometry run, or is refused (R160). Operands: interface, port. -/
  | tdrStart (i : Ifc) (p : Port)
  /-- After 100 µs of idle pair a try sends 64 probe shots (R164). Operands: line port. -/
  | tdrTryStart (p : Port)
  /-- A pair not idle for 10 ms fails the try, and three failures end the run PARTNER_ACTIVE (R164). Operands: line port. -/
  | tdrIdleTimeout (p : Port)
  /-- A try completes its averaging and correlation and the run ends COMPLETE or NOISE, or fails the try (R166). Operands: line port, no partner energy, noise floor in 2^-16 of full reflection, reflections as Γ in 1/128 and round trip in 2^-16 ns. -/
  | tdrTryEnd (p : Port) (quiet : Bool) (noise : Nat) (l : List (Int × Nat))
  /-- A write of 1 to LPn_DIAG_CTL.E_CLR clears the Method E delay (R179). Operands: interface, port. -/
  | eClr (i : Ifc) (p : Port)
  /-- A SLAVE sends each marker exactly T_TURN after the corresponding received marker (R170). Operands: line port, the instant the received marker crosses the balls. -/
  | markerTurn (p : Port) (frac : Nat)
  /-- At the end of each 1 ms window the MASTER sets RTT, validates Method L and checks for a delay jump (R171). Operands: line port, the window's mean M in 2^-16 ns. -/
  | methodLWindowEnd (p : Port) (m : Nat)
  /-- The Method L MASTER sends its RTT in a Signaling message on validity, every 125 ms and after each jump (R207). Operands: line port. -/
  | rttSignalingTx (p : Port)
  /-- A SLAVE takes a received RTT Signaling message under its conditions and derives its one-way delays (R175). Operands: line port, the frame's bytes. -/
  | rttSignalingRx (p : Port) (f : Bytes)
  /-- After queues empty for IDLE µs the transmitter requests standard LPI (R183). Operands: line port. -/
  | lpiEntry (p : Port)
  /-- A frame, PFC frame or Folio event frame becoming ready takes the transmitter out of LPI (R183). Operands: line port. -/
  | lpiExit (p : Port)
  /-- At a superframe boundary with its conditions met the transmitter opens with a conjugated flag and enters Octavo LPI (R184). Operands: line port. -/
  | octLpiEntry (p : Port)
  /-- Every QUIET + 1 superframes in Octavo LPI a refresh superframe of idle fill is sent (R185). Operands: line port. -/
  | octLpiRefresh (p : Port)
  /-- A transmitter in Octavo LPI with a frame ready resumes full data at the next superframe boundary (R186). Operands: line port. -/
  | octLpiResume (p : Port)
  /-- A receiver enters its quiet state on a conjugated flag or an empty superframe and leaves it on data (R187). Operands: line port, the partner's direction is in LPI, and quiet in this superframe. -/
  | octRxQuietEntry (p : Port) (lpi quiet : Bool)
  /-- A refresh deferred by partner LPI starts when the partner's direction leaves LPI (R190). Operands: line port. -/
  | deferredRefreshStart (p : Port)
  /-- Each TPLL cycle adds 0.8 ns times the rate to the time word with carry into seconds (R193). Operands: model time units that pass. -/
  | timeTick (n : Nat)
  /-- A write of 1 to FOLIO_CMD.SET loads the time word from FOLIO_SET within 100 ns (R195). Operands: interface. -/
  | folioCmdSet (i : Ifc)
  /-- A write of 1 to FOLIO_CMD.ADD adds FOLIO_ADD to the time word within 100 ns (R195). Operands: interface. -/
  | folioCmdAdd (i : Ifc)
  /-- A write of 1 to FOLIO_CMD.FINE clears COARSE and latches FOLIO_FINE (R221). Operands: interface. -/
  | folioCmdFine (i : Ifc)
  /-- A write of 1 to FOLIO_CMD.SRST empties capture queues and restarts the servo and message engine (R539). Operands: interface. -/
  | folioCmdSrst (i : Ifc)
  /-- A read of FOLIO_TIME0 latches the whole time word (R198). Operands: interface. -/
  | folioTimeRead (i : Ifc)
  /-- A write to FOLIO_RATE is clipped to ±500 ppm, sets RATE_LIMIT if clipped, and meets the servo under R197 (R194). Operands: interface, RATE. -/
  | rateWrite (i : Ifc) (v : BitVec 48)
  /-- A Sync on the source port gives an offset measurement to the servo, and under TC is forwarded corrected (R210). Operands: PTP port (0 to 7 LP0 to LP7, 8 to 15 H0 to H7), the frame's bytes, and the stamp instant after the last TPLL tick in 2^-16 ns. -/
  | syncRx (i : Fin 16) (b : Bytes) (frac : Nat)
  /-- A Follow_Up completes a two-step Sync measurement and is forwarded under TC (R210). Operands: as SYNC_RX. -/
  | followUpRx (i : Fin 16) (b : Bytes) (frac : Nat)
  /-- SYNC_TIMEOUT Sync intervals without a Sync mark the source lost (R200). -/
  | syncTimeout
  /-- A selected edge on CAPn is stamped and queued, or dropped with OVF when the queue is full (R222). Operands: input, edge, and its instant after the last tick in 2^-16 ns. -/
  | captureEdge (i : Fin 4) (rising : Bool) (frac : Nat)
  /-- A capture source without an edge for 2 s is lost (R200). -/
  | captureSourceTimeout
  /-- At each Sync interval Folio sends its own one-step Sync on each master port (R212). Operands: PTP port. -/
  | syncTx (i : Fin 16)
  /-- Every 1 s Folio sends Announce on master ports with forwarded or own values (R212). Operands: PTP port. -/
  | announceTx (i : Fin 16)
  /-- An Announce received on the source port is counted and stored for forwarding (R212). Operands: PTP port and the frame's bytes. -/
  | announceRx (i : Fin 16) (b : Bytes)
  /-- At each peer-delay interval a Pdelay_Req is sent on every enabled port (R208). Operands: PTP port. -/
  | pdelayReqTx (i : Fin 16)
  /-- A received peer-delay message is answered or used to update the mean link delay and neighbour rate ratio (R208). Operands: as SYNC_RX. -/
  | pdelayMsgRx (i : Fin 16) (b : Bytes) (frac : Nat)
  /-- Other Signaling and management messages of the domain are counted and discarded (R208). Operands: PTP port and the frame's bytes. -/
  | ptpOtherRx (i : Fin 16) (b : Bytes)
  /-- At a programmed edge time EVTn goes to its active level (R224). Operands: output. -/
  | eventOutputEdge (o : Fin 4)
  /-- FOLIO_OUT_WIDTH after an edge EVTn returns to its idle level (R224). Operands: output. -/
  | eventOutputPulseEnd (o : Fin 4)
  /-- A write of 1 to FOLIO_OUT_CTL.ARM arms the selected output or refuses with OUT_LATE (R225). Operands: interface. -/
  | outArm (i : Ifc)
  /-- A write of 1 to FOLIO_OUT_CTL.STOP disarms the selected output at once (R228). Operands: interface. -/
  | outStop (i : Ifc)
  /-- A read of FOLIO_CAP_TIME0 moves the oldest stamp of the selected input into the latch (R223). Operands: interface. -/
  | capTimeRead (i : Ifc)
  /-- Setting Xn_CTL.ENABLE applies rate, coding and polarity and starts the lane (R230). Operands: interface, lane. -/
  | laneEnable (i : Ifc) (l : Lane)
  /-- Clearing Xn_CTL.ENABLE takes the lane down to electrical idle (R230). Operands: interface, lane. -/
  | laneDisable (i : Ifc) (l : Lane)
  /-- Xn_CTL.SRST returns the lane's state, adapted and held values to reset (R264). Operands: interface, lane. -/
  | laneSrst (i : Ifc) (l : Lane)
  /-- A lane loss condition persisting 1 µs faults the lane with the mode's effect (R236). Operands: lane; signal, CDR lock, block lock, FEC alignment, remote fault as they are now. -/
  | laneFault (l : Lane) (sig cdr blk fec rf : Bool)
  /-- A lane whose fault conditions all end comes up again (R236). Operands: lane, adapted values as group, index and value, the Clause 119 PCS has deskewed the eight lanes. -/
  | laneFaultClear (l : Lane) (v : List (Nat × Nat × Int)) (desk : Bool)
  /-- A lane up for REJOIN ms becomes live and rejoins the bond (R243). Operands: lane. -/
  | laneLive (l : Lane)
  /-- A frame sent on a BONDED lane is released from Quire REPLAY µs after its last bit (R246). Operands: lane. -/
  | replayRelease (l : Lane)
  /-- A missing number waited on for REORDER_TO µs is given up and held frames are queued (R250). Operands: line port. -/
  | reorderTimeout (p : Port)
  /-- A received credit ordered set is discarded if bad or its LIMIT applied at once (R293). Operands: lane Hn and the set's fields. -/
  | creditSetRx (n : Port) (d1 : Byte) (limit : BitVec 32) (check : Byte) (kind : BitVec 4)
  /-- A credit ordered set is sent when a LIMIT rises by STEP or in the REFRESH rotation (R295). Operands: the rotation's turn. -/
  | creditSetTx (rotation : Bool)
  /-- Signal on Hn_RX or Tn_RX moves an idle pair to AN_RELAY or PASS (R253). Operands: lane. -/
  | retimerSignalDetect (l : Lane)
  /-- Clause 73 pages on a receiver are relayed unchanged and the pair enters AN_RELAY (R252). Operands: lane, page. -/
  | retimerPagesRx (l : Lane) (page : BitVec 48)
  /-- Training frames on a receiver move the pair to TRAIN (R253). Operands: lane. -/
  | retimerTrainingFramesRx (l : Lane)
  /-- 1 ms without signal on either receiver returns AN_RELAY to IDLE (R253). Operands: pair. -/
  | retimerNoSignal (n : Port)
  /-- A receiver trained on its segment reports ready when both segments and the far partner are ready (R254). Operands: lane, the report is the partner's, trained values. -/
  | retimerRxTrained (l : Lane) (remote : Bool) (v : List (Nat × Nat × Int))
  /-- Both segments leave training and the pair enters PASS (R253). Operands: lane. -/
  | retimerTrainDone (l : Lane)
  /-- A segment fails training and the pair enters FAIL (R253). Operands: lane. -/
  | retimerTrainFail (l : Lane)
  /-- After 10 ms in FAIL the pair returns to IDLE (R253). Operands: lane. -/
  | retimerFailTimeout (l : Lane)
  /-- The faulted receiver locking to data again returns the pair from HOLD to PASS (R253). Operands: lane. -/
  | retimerRxRelock (l : Lane)
  /-- A write of 1 to Xn_TRN_CTL.RESTART retrains a data lane or sends a retimer pair to FAIL (R264). Operands: interface, lane. -/
  | trnRestart (i : Ifc) (l : Lane)
  /-- After 64 error-free bits the checker locks and starts counting (R262). Operands: lane. -/
  | patCheckerLock (l : Lane)
  /-- 64 or more errors in 1,024 bits unlock the checker and set PAT_UNLOCK (R262). Operands: lane, wrong bits of 1,024. -/
  | patCheckerUnlock (l : Lane) (n : Fin 1025)
  /-- A write of 1 to Xn_PAT_INJ.ONE inverts one generated bit within 1 µs (R263). Operands: interface, lane. -/
  | patInjOne (i : Ifc) (l : Lane)
  /-- With PERIODIC set, one bit in every 2^(EXP + 10) generated bits is inverted (R263). Operands: lane. -/
  | patPeriodicInject (l : Lane)
  /-- The scrubber reads one word, correcting and writing it back, or zeroing or poisoning on an uncorrectable error (R272). Operands: the word it meets (a word of a cell lies at the scrubber's own position), where it lies, a traffic write in the same cycle. -/
  | scrubCycle (r : WordRead) (at_ : ScrubAt) (traffic : Bool)
  /-- The free-list sweep completes, clears REBUILD and sets REBUILD_DONE (R276). -/
  | rebuildDone
  /-- QUIRE_CTL.SRST loses Quire's contents and idles Hn_TX for 10 µs in tagged modes (R297). Operands: interface. -/
  | quireSrst (i : Ifc)
  /-- Spilled frames are recalled over the Spine before local frames ahead of them run out (R303). Operands: queue toward the host, frames to recall. -/
  | spillRecall (q : Fin 64) (n : BitVec 16)
  /-- Setting a face's enable moves it from OFF to CLK_WAIT (R313). Operands: interface, face. -/
  | spineFaceEnable (i : Ifc) (f : Face)
  /-- Received clock present for 4,096 cycles moves the face to ALIGN (R313). Operands: face. -/
  | spineClockPresent (f : Face)
  /-- Every lane aligned on 16 /A/ moves the face to HELLO on four lanes (R313). Operands: face. -/
  | spineAlignDone (f : Face)
  /-- T_ALIGN expiry goes to HELLO on two lanes or to DOWN (R313). Operands: face; lanes 0 and 1 are aligned, lanes 2 and 3 are. -/
  | spineAlignTimeout (f : Face) (low high : Bool)
  /-- T_HELLO expiry sends the face to DOWN (R313). Operands: face. -/
  | spineHelloTimeout (f : Face)
  /-- T_DOWN expiry sends the face to CLK_WAIT (R313). Operands: face. -/
  | spineDownTimeout (f : Face)
  /-- Loss of the received clock sends the face to CLK_WAIT, sets CLK_LOST if unannounced and sends a tail to HOLDOVER (R315). Operands: face. -/
  | spineClockLoss (f : Face)
  /-- A failed receive lane sends FALLBACK naming the good pair, or takes the face DOWN (R314). Operands: face, the lanes that fail, errors counted on each lane. -/
  | spineLaneFail (f : Face) (failed : BitVec 4) (errs : List Nat)
  /-- SPINE_N_CTL or SPINE_S_CTL.RETRAIN sends the face to ALIGN on all four lanes (R334). Operands: interface, face. -/
  | spineRetrain (i : Ifc) (f : Face)
  /-- SPINE_CTL.SRST restarts both faces in CLK_WAIT with clocks running (R334). Operands: interface. -/
  | spineSrst (i : Ifc)
  /-- Every 1,250 columns a forward time mark is sent on each south face in UP (R317). Operands: instant after the last tick in 2^-16 ns. -/
  | forwardMarkTx (frac : Nat)
  /-- A tail takes the offset from a valid forward mark, steers its time and copies its flags (R320). Operands: the mark's 32 bytes, instant after the last tick, r − 1 as measured, signed, 2^-56 per step. -/
  | forwardMarkRx (b : Bytes) (frac : Nat) (r : BitVec 48)
  /-- At the first even column 200 ns after a forward mark an echo mark is sent north (R317). Operands: instant after the last tick. -/
  | echoMarkTx (frac : Nat)
  /-- The north end computes RTT from an echo and updates D of the hop (R319). Operands: the mark's 32 bytes, instant after the last tick. -/
  | echoMarkRx (b : Bytes) (frac : Nat)
  /-- 100 µs without a valid forward mark sets MARK_LOSS (R321). Operands: r − 1 as measured, signed, 2^-56 per step. -/
  | markLoss (r : BitVec 48)
  /-- A Spine HELLO is checked for position, acknowledged and updates peer state and COUNT (R327). Operands: face, the /C/ from TYPE to its CRC-32. -/
  | spineHelloRx (f : Face) (b : Bytes)
  /-- An ACK completes the outstanding control message of the face (R324). Operands: face, the /C/ from TYPE to its CRC-32. -/
  | spineAckRx (f : Face) (b : Bytes)
  /-- 2 µs without ACK resends the message, and after eight sends MSG_FAIL takes the face DOWN (R324). Operands: face. -/
  | spineMsgRetx (f : Face)
  /-- An MB2 request from the head is placed in MB2, or a result returns to the source (R387). Operands: face, the /C/ from TYPE to its CRC-32. -/
  | mb2MsgRx (f : Face) (b : Bytes)
  /-- A LEND message records the cells the neighbour lends (R301). Operands: face, the /C/ from TYPE to its CRC-32. -/
  | lendRx (f : Face) (b : Bytes)
  /-- A RECALL makes the lender return spilled frames in spill-sequence order or gap headers (R333). Operands: face, the /C/ from TYPE to its CRC-32. -/
  | recallRx (f : Face) (b : Bytes)
  /-- A /S/ ordered set stores, returns or reports a gap for a spilled frame (R333). Operands: face, the set's header, frame and CRC-32. -/
  | spillFrameRx (f : Face) (b : Bytes)
  /-- A STACK_RESET message is relayed south and acted on 10 µs after its acknowledgement (R331). Operands: face, the /C/ from TYPE to its CRC-32. -/
  | stackResetRx (f : Face) (b : Bytes)
  /-- 10 µs after acknowledgement the tail takes a global soft or pin reset (R331). Operands: the strap pins. -/
  | stackResetAct (straps : BitVec 8)
  /-- A POWER message is an announcement from a neighbour or an accepted sleep request from the head (R427). Operands: face, the /C/ from TYPE to its CRC-32. -/
  | powerRx (f : Face) (b : Bytes)
  /-- 10 µs after acknowledging a sleep announcement the north neighbour stops its south clock (R332). -/
  | southClockStop
  /-- A FALLBACK is acknowledged and both ends change width at the next column (R314). Operands: face, the /C/ from TYPE to its CRC-32. -/
  | fallbackRx (f : Face) (b : Bytes)
  /-- The head records a tail's ALERT state in SPINE_TAIL_ALERT (R328). Operands: face, the /C/ from TYPE to its CRC-32. -/
  | alertRx (f : Face) (b : Bytes)
  /-- A PROMOTE message marks a new acting head or the head's restoration (R330). Operands: face, the /C/ from TYPE to its CRC-32. -/
  | promoteRx (f : Face) (b : Bytes)
  /-- Position 1 with STACK_PROMOTE after 10 ms of unannounced north clock loss becomes acting head (R329). -/
  | promotionTimeout
  /-- A write of 1 to SPINE_CMD.DEMOTE returns the acting head to tail and sends PROMOTE 0 (R330). Operands: interface. -/
  | demote (i : Ifc)
  /-- A write of 1 to SPINE_CMD.STACK_RST on the head sends STACK_RESET to RST_DEST (R331). Operands: interface, RST_KIND, RST_DEST. -/
  | stackRst (i : Ifc) (kind dest : BitVec 2)
  /-- A write of 1 to SPINE_CMD.WAKE_SOUTH restarts the south clock (R332). Operands: interface. -/
  | wakeSouth (i : Ifc)
  /-- An SPI frame on SPI_CS0_N carries register reads or masked writes with status bytes (R338). Operands: opcode, address, mask and data of the complete write words, words read, SPI_SCK period in ps, the other chip select low, the accesses that wait at other interfaces meanwhile (R335). -/
  | spiFrame (op : Byte) (a : BitVec 19) (words : List (BitVec 16 × BitVec 16)) (n per : Nat) (second : Bool) (mid : List Access)
  /-- An SPI frame on SPI_CS1_N reads enabled groups without side effects and refuses every write (R343). Operands: as SPI_FRAME. -/
  | spiObserveFrame (op : Byte) (a : BitVec 19) (words : List (BitVec 16 × BitVec 16)) (n per : Nat) (second : Bool) (mid : List Access)
  /-- A Clause 45 frame at the port's PHY address accesses MMD 1, 3, 7 or the MMD 30 window (R345). Operands: operation (0 address, 1 write, 2 post-read-increment-address, 3 read), PHY address, MMD, address or data. -/
  | mdioFrame (op : BitVec 2) (phy mmd : BitVec 5) (data : BitVec 16)
  /-- An access to MDIO_WIN_DATA performs a fabric access at the window address and increments it (R348). Operands: the word written, none for a read. -/
  | mdioWinDataAccess (wr : Option (BitVec 16))
  /-- A TWM write transaction sets the address and writes masked groups to successive registers (R350). Operands: 7-bit address, the bytes after it, the accesses that wait at other interfaces. -/
  | twmWrite (dev : BitVec 7) (b : Bytes) (mid : List Access)
  /-- A TWM read transaction returns status and data per register (R351). Operands: 7-bit address; the word address before a repeated start, none for the next one; registers read; the accesses that wait at other interfaces. -/
  | twmRead (dev : BitVec 7) (a : Option (BitVec 19)) (n : Nat) (mid : List Access)
  /-- In Nap or Watch a matching TWM address is acknowledged and starts a wake (R353). Operands: 7-bit address, direction bit. -/
  | twmWakeAddress (dev : BitVec 7) (read : Bool)
  /-- A masked write to a register without a row of its own merges its bits by access code (R354). Operands: interface, address, mask, data, the bits that a hardware update reaches in the same cycle. -/
  | registerWrite (i : Ifc) (a : BitVec 19) (mask data met : BitVec 16)
  /-- A read of a wide value's lowest register latches the whole value for the interface (R336). Operands: interface, address. -/
  | wideValueRead (i : Ifc) (a : BitVec 19)
  /-- Writes to a wide value's lower registers are staged and committed together by the highest register (R337). Operands: interface, address, mask and data of each register. -/
  | wideValueWrite (i : Ifc) (a : BitVec 19) (words : List (BitVec 16 × BitVec 16))
  /-- The one write to a REG_LOCK bit stores its value and locks the bit until power-on reset (R14). Operands: interface, mask, data. -/
  | regLockWrite (i : Ifc) (mask data : BitVec 16)
  /-- A posted write takes effect in the AON island and clears its REG_POSTED bit (R357). Operands: block: 0 CLK, 1 PWR, 2 SNS. -/
  | postedWriteComplete (k : Fin 3)
  /-- A write of 1 to MBn_CTL.DOORBELL submits the request and locks the request registers (R368). Operands: interface, mailbox. -/
  | doorbell (i : Ifc) (m : Fin 4)
  /-- Returns link, negotiation, margin, Octavo and PCS status of a port (R383). -/
  | linkInfo
  /-- Sets ENABLE of the selected ports (R383). -/
  | linkEnable
  /-- Writes RESTART to the selected ports (R383). -/
  | linkRestart
  /-- Writes MODE_SEL and LPn_AN_ADV of a port (R383). -/
  | linkMode
  /-- Job that waits for a port's link to come up within a limit (R383). -/
  | linkWaitUp
  /-- Writes the Octavo control, partition, margin and swap registers of a port (R383). -/
  | octConfig
  /-- Job that runs a reload on a port in SHOWTIME (R383). -/
  | octReload
  /-- Returns the received bits of a range of tones (R383). -/
  | octTones
  /-- Job that sends a DIAG_REQ and returns the reply (R383). -/
  | pipDiag
  /-- Sets BURST and writes WAKE_REQ on the selected ports (R383). -/
  | pipWake
  /-- Job that disables all lanes, sets the host mode and rates and re-enables lanes (R383). -/
  | hostMode
  /-- Returns the status, training, eye and control of a lane (R383). -/
  | laneInfo
  /-- Returns the latched time word and FOLIO_STAT (R383). -/
  | timeGet
  /-- Loads the time word under R195 (R383). -/
  | timeSet
  /-- Adds a signed offset to the time word (R383). -/
  | timeAdd
  /-- Job that slews an offset by adjusting RATE in FREE and then restores RATE (R383). -/
  | timeSlew
  /-- Writes RATE and returns it after clipping (R383). -/
  | timeRate
  /-- Writes FOLIO_CTL (R383). -/
  | timeSource
  /-- Job that waits for Folio to lock within a limit (R383). -/
  | timeWaitLock
  /-- Sets up and arms an event output (R383). -/
  | evtArm
  /-- Removes and returns up to seven stamps of a capture input (R383). -/
  | capRead
  /-- Returns a port's time status, peer delay and delays (R383). -/
  | portTime
  /-- Job that runs reflectometry on a port and returns the reflections (R383). -/
  | tdrRun
  /-- Writes E_CLR on the selected ports (R383). -/
  | delayClear
  /-- Returns the error log and optionally re-arms it (R383). -/
  | errlog
  /-- Latches and returns up to 16 consecutive counters within 1 µs (R384). -/
  | ctrSnapshot
  /-- Returns the eight temperatures and six rail voltages (R383). -/
  | sensors
  /-- Returns the asserted alert sources and non-maskable events (R383). -/
  | alerts
  /-- Returns a job slot's state and results and optionally releases it (R383). -/
  | jobRead
  /-- Returns Quire status, bank map, ECC log and events (R383). -/
  | quireHealth
  /-- Returns family, part, stepping, ROM, serial and position (R383). -/
  | identify
  /-- Job that runs a foreground calibration of a port (R383). -/
  | calPort
  /-- Job that runs a foreground calibration of a lane (R383). -/
  | calLane
  /-- Sets the calibration scheduler's targets and interval (R383). -/
  | calSchedule
  /-- Returns words of an OTP or MTP record with its check result (R383). -/
  | nvmRead
  /-- Job that saves a port's or lane's calibration record to MTP (R383). -/
  | nvmSaveCal
  /-- Returns years to limit, trend and last action of an ageing target (R383). -/
  | ageRead
  /-- Returns a ledger entry (R383). -/
  | ageLedger
  /-- Writes the planner policy and notice (R383). -/
  | agePolicy
  /-- Approves or vetoes a pending proposal (R383). -/
  | ageAnswer
  /-- Job that writes a ledger entry now (R383). -/
  | ageEntryNow
  /-- Requests Doze, Nap or Watch after a delay, entry beginning after completion (R385). -/
  | pwrEnter
  /-- Writes the keep-bank selection (R383). -/
  | pwrKeep
  /-- Changes the voltage and frequency level and returns the level reached (R383). Operands: PGOOD rises in time. -/
  | pwrLevel (pgood : Bool)
  /-- Returns power state, level, lost banks, wake source and wake steps (R383). -/
  | pwrStatus
  /-- Sets the Watch period, window and listening pairs (R383). -/
  | pwrWatch
  /-- Sets the enabled wake sources (R383). -/
  | pwrWakeSrc
  /-- Sets PWR_PARTNER_SLEEP_EN (R383). -/
  | pwrPartner
  /-- Sets the Watch low and high thresholds of a sample index (R383). -/
  | pwrThresh
  /-- Job that runs memory BIST on a target, optionally forced (R383). -/
  | bistRun
  /-- Returns the last BIST outcome and spares used of a target (R383). -/
  | bistResult
  /-- Job that writes a Quire bank's repair map to MTP (R383). -/
  | repairSave
  /-- Job that runs a lane's pattern generator and checker for a time and returns the counts (R383). -/
  | prbsRun
  /-- Configures a Roll engine's operation, mode, N and seed (R383). -/
  | rollSet
  /-- Stops one Roll engine or all of them (R383). -/
  | rollStop
  /-- Returns its parameter words unchanged (R383). -/
  | echo
  /-- Sets the loopback of a port or lane (R383). -/
  | loopback
  /-- Job that sends a command to one stack position over MB2 and returns a window of its results (R386). -/
  | remote
  /-- Returns Spine status, face states, hop delays and tail alerts (R383). -/
  | stackInfo
  /-- Sends a stack reset of a kind to a destination (R383). -/
  | stackReset
  /-- Writes SPINE_CTL.STACK_PROMOTE (R383). -/
  | stackPromote
  /-- Writes DEMOTE on the acting head (R383). -/
  | stackDemote
  /-- Writes spill enable, face, thresholds and lending (R383). -/
  | spillConfig
  /-- Job that runs a command on this device and every stack device (R383). -/
  | stackAll
  /-- A job's operation ends and its result is written into its slot with JOB_DONE (R376). Operands: slot, the command's time limit has passed, the operation succeeded where no register tells. -/
  | jobEnd (j : Fin 8) (limit ok : Bool)
  /-- A write of 1 to MBX_JOB_CTL.RELEASE frees a DONE job slot (R376). Operands: interface. -/
  | jobRelease (i : Ifc)
  /-- 10 ms without a watchdog restart resets the Binder and ends running work with WDOG (R378). -/
  | binderWatchdog
  /-- A clock source passes its stability count and starts feeding its loads (R394). Operands: source: 0 XA, 1 XB, 2 FOSC, 3 SOSC. -/
  | sourceStable (k : Fin 4)
  /-- A loop's lock detector reports lock and its stability count starts (R395). Operands: loop, in the order of CLK_LOOP_STAT. -/
  | loopLock (k : Fin 6)
  /-- 4,096 reference cycles after lock the loop is ready (R395). Operands: loop. -/
  | loopReady (k : Fin 6)
  /-- A loop losing lock with a good reference clears READY and stops its islands (R396). Operands: loop. -/
  | loopUnlock (k : Fin 6)
  /-- A completed write to CLK_EN0 or CLK_EN1 starts or soft-resets and stops blocks (R399). -/
  | clockEnableChange
  /-- An island gated off in Run is powered within 10 µs of an enable being set (R421). Operands: island, in the order of PWR_ISLANDS. -/
  | islandPowerUp (k : Fin 8)
  /-- An old clock silent for 64 new-clock cycles forces the switch and sets SWITCH_FORCED (R401). -/
  | switchForced
  /-- A 10 µs XA check window ends and its count passes or fails (R403). Operands: the window's count. -/
  | xaWindowEnd (count : Nat)
  /-- A 10 µs XB check window ends and its count passes or fails (R403). Operands: the window's count. -/
  | xbWindowEnd (count : Nat)
  /-- In Nap or Watch a 1 ms XB window against SOSC fails twice to set XB_FAIL and start a wake (R406). Operands: XB edges counted. -/
  | xbSleepWindowEnd (count : Nat)
  /-- Once per second REF moves by at most one count toward the mean (R404). -/
  | refUpdate
  /-- After 16 passing windows and the stability count a tripped source clears its FAIL bit (R412). Operands: XB, else XA. -/
  | sourceRecovered (xb : Bool)
  /-- AUTO_RESUME or CLK_CMD.RESUME switches CTRL back to CPLL and restarts halted islands (R412). -/
  | clkResume
  /-- A completed write to CLK_EVT_CLR clears clock events whose cause is gone (R419). -/
  | clkEvtClr
  /-- A completed write to CLK_LEVEL.TARGET starts the VSEL and division sequence (R416). -/
  | levelChangeStart
  /-- PGOOD high after a VSEL change lets the sequencer change divisions and reach the level (R416). -/
  | pgoodHigh
  /-- PGOOD not high 140 µs after a VSEL change holds the higher voltage and sets VHIGH and PGOOD_FAIL (R417). -/
  | pgoodTimeout
  /-- PGOOD low outside a change for more than 1 µs sets PGOOD_FAIL (R418). -/
  | pgoodLow
  /-- A write to PWR_CTL.REQ makes a state request pending for its delay or cancels one (R425). -/
  | pwrReq
  /-- A pending request's delay ends and entry begins once no MTP write is in progress (R425). Operands: code and index of the wake sources that arrive while entry runs. -/
  | sleepDelayExpiry (during : List (Fin 11 × Fin 16))
  /-- A wake source, REQ = 0 or GLB_SWRST ends Doze and restarts the stopped islands (R423). -/
  | dozeExit
  /-- Each Watch period the Pip receivers listen for a window and sensors are sampled (R429). Operands: the sampled temperatures and rails. -/
  | watchPeriod (temps rails : List (BitVec 16))
  /-- The chosen edge on an enabled CAPn wakes the device (R431). Operands: the input; rising edge. -/
  | capWakeEdge (i : Fin 4) (rising : Bool)
  /-- 2 µs of clock activity on SPN_RX_CK wakes a sleeping tail (R431). -/
  | spineWakeClock
  /-- A wake starts its regulator, oscillator, memory and logic steps and records its cause (R434). Operands: code and index of the sources of one AON cycle. -/
  | wakeStart (l : List (Fin 11 × Fin 16))
  /-- A wake step becomes ready, and the logic step raises RDY and restarts ports (R434). Operands: the wrong bits found in the words of the kept banks, by bank and word. -/
  | wakeStepReady (errs : List (Fin 4 × Fin 8192 × BitVec 145))
  /-- RST_N held low for 1 µs or longer takes a pin reset (R444). -/
  | rstNAssert
  /-- The rising edge of RST_N samples the straps and releases the pin reset (R444). Operands: the strap pins. -/
  | rstNRelease (straps : BitVec 8)
  /-- Supplies in range start the power-on sequence of oscillators, NVM load, BIST and RDY (R443). Operands: strap pins; non-volatile slots that fail; failing cells of the first memory test; targets that fail the second; the stores fail. -/
  | powerOnReset (straps : BitVec 8) (bad : List Nat) (fails : List (Nat × Nat × Nat)) (second : List Nat) (stores : Bool)
  /-- A rail below its threshold for more than 1 µs starts a power-on reset (R518). -/
  | supplyFail
  /-- A write of 1 to GLB_SWRST.SWRST resets all logic, loses Quire and restarts links and the servo (R445). Operands: interface. -/
  | glbSwrst (i : Ifc)
  /-- Every 1 ms the estimator renews each background trim target (R455). Operands: the target, the coefficients its trackers move (index and new value), the eye. -/
  | bgTargetUpdate (t : Fin 24) (vals : List (BitVec 8 × BitVec 16)) (eye : BitVec 16)
  /-- Every 10 µs each trim moves at most 1 LSB toward its target (R455). -/
  | bgTrimStep
  /-- CAL_FG_CTL.START begins a foreground calibration of a port or lane or refuses it (R457). Operands: interface, TARGET. -/
  | calFgStart (i : Ifc) (t : BitVec 5)
  /-- A foreground calibration ends with a result shown in CAL_FG_STAT (R460). Operands: the target and the coefficients the calibration found. -/
  | calFgEnd (t : Fin 24) (vals : List (BitVec 8 × BitVec 16))
  /-- CAL_FG_CTL.SAVE queues the target's calibration record for MTP (R454). Operands: interface, TARGET. -/
  | calFgSave (i : Ifc) (t : BitVec 5)
  /-- An MTP record write completes its read-back or fails with NVM_FAIL (R454). Operands: the read back agrees. -/
  | mtpWriteDone (ok : Bool)
  /-- A scheduled target becomes due by interval or temperature and its calibration starts (R461). Operands: the target; due by temperature, else by interval. -/
  | calSchedulerDue (t : Fin 24) (temp : Bool)
  /-- Once per powered hour the rings and margins are measured and due actions taken (R463). Operands: drift of each wear mechanism in the hour. -/
  | ageingHourlyStep (d : List Int)
  /-- Every 8 powered hours the hour counts are written to the hour log (R465). -/
  | hourLogWrite
  /-- Every 720 powered hours a ledger entry is written and years to limit projected (R466). -/
  | ledgerEntry
  /-- AGE_PROP_ANS.APPROVE approves the selected proposal (R469). Operands: interface. -/
  | agePropApprove (i : Ifc)
  /-- AGE_PROP_ANS.VETO drops the selected proposal and sets VETOED (R469). Operands: interface. -/
  | agePropVeto (i : Ifc)
  /-- The second after approval the VDD_CORE rise is checked to count the guard step or set GUARD_FAIL (R470). Operands: the level number before and after. -/
  | vguardCheck (before after : Nat)
  /-- BIST_CTL.START starts a test of the target or refuses it (R481). Operands: interface, TARGET, FORCE. -/
  | bistStart (i : Ifc) (target : BitVec 6) (force : Bool)
  /-- After at most 1 ms the forced bank's remaining frames are discarded and pass 1 starts (R482). -/
  | bistDrainEnd
  /-- A BIST pass completes, spares are assigned or the test ends with its result (R476). Operands: operations completed; word and bit of each failing cell; the signature; whether it is the expected one. -/
  | bistPassEnd (count : Nat) (fails : List (BitVec 17 × Fin 145)) (sig : BitVec 32) (sigOk : Bool)
  /-- A write of BIST_MAN with VALID requests a spare row at the bank's next test (R485). Operands: interface, bank, row. -/
  | bistManWrite (i : Ifc) (bank : BitVec 5) (row : BitVec 10)
  /-- A new TAP instruction takes effect, driving the balls and stopping the core or resuming it (R489). Operands: the instruction code shifted in. -/
  | tapInstructionUpdate (code : Byte)
  /-- TRST_N low puts the TAP in Test-Logic-Reset with IDCODE loaded (R486). -/
  | tapReset
  /-- An event reaching an enabled Roll engine is acted on by N or die roll, or skipped (R491). Operands: the engine and what reaches it. -/
  | rollEngineEvent (e : Fin 26) (ev : RollEvt)
  /-- A frame held by DELAY or REORDER is released when its time or count is reached (R491). Operands: the engine. -/
  | rollHoldRelease (e : Fin 26)
  /-- ROLL_CMD.STOP_ALL clears every engine's EN and releases held frames (R494). Operands: interface. -/
  | rollStopAll (i : Ifc)
  /-- A write of ROLL_SEED restarts the engine's LFSR from the seed (R492). Operands: interface, seed. -/
  | rollSeedWrite (i : Ifc) (seed : BitVec 32)
  /-- A programmable counter passing 0xFFFF_FFFF sets OVF, reloads and may capture SAMPLE (R505). Operands: the unit, the counter and the events of the time. -/
  | pmcOverflow (u : Fin 2) (k : Fin 8) (n : BitVec 32)
  /-- A committed write to a programmable counter takes the value plus that cycle's increment (R506). Operands: interface, unit, counter, value, increments of the same cycle. -/
  | pmcCntWrite (i : Ifc) (u : Fin 2) (k : Fin 8) (v n : BitVec 32)
  /-- A write of 1 to CYC_CLR clears the cycle counter (R506). Operands: interface, unit. -/
  | cycClr (i : Ifc) (u : Fin 2)
  /-- Every 1 ms each sensor and rail monitor updates and thresholds are checked (R527). Operands: the sampled temperatures and rails. -/
  | sensorUpdate (temps rails : List (BitVec 16))
  /-- A completed write to SNS_EVT_CLR clears sensor events whose cause is gone (R529). -/
  | snsEvtClr
  /-- In a standard-mode LPI quiet period the transmitter's quiet timer of Clause 149 or 165 runs out and it sends a refresh, which also resumes frequency transfer (R182). Operands: line port. -/
  | stdLpiRefresh (p : Port)
  /-- In a standard mode the partner's direction enters or leaves an LPI quiet period, which suspends or restarts the link-fail window counts and holds or resumes adaptation (R69). Operands: line port, the partner's direction is in LPI, and in a quiet period of it. -/
  | rxLpiQuietChange (p : Port) (lpi quiet : Bool)
  /-- 10 µs after a QUIRE or global soft reset in a tagged mode, the electrical-idle hold on every Hn_TX ends and the lanes transmit again (R297). -/
  | taggedIdleHoldEnd
deriving DecidableEq, Repr

end Sys2Proof
end

