-- ==== Sys2Proof/Machine/RegMap.lean ====
section
/-! DEFINITION. The register map: every register of spec/18_register_map.md R537 with the fields, access codes (R13),
reset values (R19), Kept by letters (R20) and reserved encodings (R18) that the table of its own chapter gives, and a
name for each field, as the tables spell it. -/

namespace Sys2Proof.Machine

/-- R13: the access codes of a register table. -/
inductive Acc where
  | rw | ro | w1c | w1s | wo | wl | rwp
deriving DecidableEq, Repr

/-- One field row of a register table: lowest bit, width, access code, reset value, Kept by letters as a sum
(P 1, G 2, B 4, D 8, N 16, W 32; 64 marks a live field), and the range of encodings that are not reserved. -/
structure FieldDef where
  lo : Nat
  w : Nat
  acc : Acc
  rst : Nat
  kept : Nat
  min : Nat
  max : Nat
deriving DecidableEq, Repr

/-- `cnt` registers in a row from offset `off` with the same fields; `wide` registers form one wide value (0: none) and
`pos` is the place of the first of them in its value. -/
structure RegDef where
  off : Nat
  cnt : Nat
  wide : Nat
  pos : Nat
  fields : List FieldDef
deriving DecidableEq, Repr

/-- A field by its name: the register's offset in its block, the lowest bit and the width. -/
structure Fld where
  off : Nat
  lo : Nat
  w : Nat
deriving DecidableEq, Repr

/-- A field whose encodings are all allowed. -/
abbrev fld (lo w : Nat) (acc : Acc) (rst kept : Nat) : FieldDef := ⟨lo, w, acc, rst, kept, 0, 2 ^ w - 1⟩

/-- A field with encodings outside `min` to `max` reserved (R18). -/
abbrev fldR (lo w : Nat) (acc : Acc) (rst kept min max : Nat) : FieldDef := ⟨lo, w, acc, rst, kept, min, max⟩

/-- The registers of block GLB: 13_power_and_reset.md R449, 17_pins_and_electrical.md R513, 18_register_map.md R534, 18_register_map.md R535. -/
def glbRegs0 : List RegDef :=
  [⟨0x0, 1, 0, 0, [fld 0 8 .ro 128 63, fld 8 8 .ro 202 63]⟩,
   ⟨0x1, 1, 0, 0, [fld 0 8 .ro 161 63]⟩,
   ⟨0x2, 1, 0, 0, [fld 0 8 .ro 2 63, fld 8 8 .ro 3 63]⟩,
   ⟨0x3, 3, 3, 0, [fld 0 16 .ro 0 63]⟩,
   ⟨0x10, 1, 0, 0, [fld 0 1 .w1s 0 0]⟩,
   ⟨0x11, 1, 0, 0, [fld 0 1 .w1c 1 63, fld 1 1 .w1c 0 63, fld 2 1 .w1c 0 63, fld 3 1 .w1c 0 63, fld 4 1 .w1c 0 63, fld 5 1 .w1c 0 63]⟩,
   ⟨0x20, 1, 0, 0, [fld 0 2 .ro 0 62, fld 2 3 .ro 0 62, fld 5 2 .ro 0 62, fld 7 1 .ro 0 62]⟩,
   ⟨0x30, 2, 2, 0, [fld 0 16 .ro 0 127]⟩,
   ⟨0x32, 2, 2, 0, [fld 0 16 .rw 65535 62]⟩,
   ⟨0x34, 1, 0, 0, [fld 0 1 .ro 0 127, fld 1 1 .ro 0 127]⟩]

/-- Every register of block GLB. -/
def glbRegs : List RegDef := glbRegs0

/-- The registers of block CLK: 12_clocks.md R419. -/
def clkRegs0 : List RegDef :=
  [⟨0x0, 1, 0, 0, [fld 0 8 .rwp 0 62, fld 8 1 .rwp 0 62, fld 9 1 .rwp 0 62, fld 10 1 .rwp 0 62, fld 11 1 .rwp 0 62, fld 12 1 .rwp 0 62]⟩,
   ⟨0x1, 1, 0, 0, [fld 0 8 .rwp 0 62, fld 8 8 .rwp 0 62]⟩,
   ⟨0x2, 1, 0, 0, [fld 0 1 .ro 0 127, fld 1 1 .ro 0 127, fld 2 1 .ro 0 127, fld 3 2 .ro 0 127, fld 5 1 .ro 0 127, fld 6 1 .ro 0 127]⟩,
   ⟨0x3, 1, 0, 0, [fld 0 6 .ro 0 127, fld 8 6 .ro 0 127, fld 14 1 .ro 0 127, fld 15 1 .ro 0 127]⟩,
   ⟨0x10, 1, 0, 0, [fld 0 1 .rwp 1 62, fld 1 1 .rwp 1 62, fldR 2 4 .rwp 4 62 1 15, fld 6 1 .rwp 0 62]⟩,
   ⟨0x11, 1, 0, 0, [fld 0 1 .ro 0 127, fld 1 1 .ro 0 127, fld 2 1 .ro 0 127]⟩,
   ⟨0x12, 1, 0, 0, [fld 0 10 .ro 0 127]⟩,
   ⟨0x13, 1, 0, 0, [fld 0 10 .ro 0 127]⟩,
   ⟨0x14, 1, 0, 0, [fld 0 10 .ro 0 63]⟩,
   ⟨0x20, 1, 0, 0, [fld 0 1 .rwp 0 0]⟩,
   ⟨0x30, 1, 0, 0, [fld 0 1 .ro 0 8, fld 1 1 .ro 0 8, fld 2 1 .ro 0 8, fld 3 1 .ro 0 8, fld 4 1 .ro 0 8, fld 5 1 .ro 0 8, fld 6 1 .ro 0 8]⟩,
   ⟨0x31, 1, 0, 0, [fld 0 7 .rwp 0 0]⟩,
   ⟨0x32, 1, 0, 0, [fld 0 7 .rwp 94 62]⟩,
   ⟨0x40, 1, 0, 0, [fldR 0 2 .rwp 1 62 0 2, fld 4 2 .ro 1 127, fld 6 1 .ro 0 127, fld 7 1 .ro 0 127]⟩]

/-- Every register of block CLK. -/
def clkRegs : List RegDef := clkRegs0

/-- The registers of block PWR: 13_power_and_reset.md R449. -/
def pwrRegs0 : List RegDef :=
  [⟨0x0, 1, 0, 0, [fld 0 2 .rwp 0 0]⟩,
   ⟨0x1, 1, 0, 0, [fld 0 16 .rwp 0 62]⟩,
   ⟨0x2, 1, 0, 0, [fld 0 2 .ro 0 127, fld 2 2 .ro 0 15]⟩,
   ⟨0x3, 1, 0, 0, [fld 0 1 .rwp 1 62, fld 1 1 .rwp 1 62, fld 2 4 .rwp 0 62, fld 6 1 .rwp 1 62, fld 7 1 .rwp 1 62, fld 8 4 .rwp 0 62]⟩,
   ⟨0x4, 1, 0, 0, [fld 0 4 .ro 0 15, fld 4 4 .ro 0 15, fld 8 1 .ro 0 15]⟩,
   ⟨0x5, 1, 0, 0, [fld 1 10 .ro 0 15]⟩,
   ⟨0x6, 1, 0, 0, [fld 0 1 .ro 0 15, fld 1 1 .ro 0 15, fld 2 1 .ro 0 15, fld 3 1 .ro 0 15]⟩,
   ⟨0x7, 1, 0, 0, [fld 0 16 .ro 0 15]⟩,
   ⟨0x8, 1, 0, 0, [fld 0 4 .rwp 15 62]⟩,
   ⟨0x9, 1, 0, 0, [fld 0 4 .ro 0 15, fld 4 4 .ro 0 15]⟩,
   ⟨0xA, 1, 0, 0, [fldR 0 10 .rwp 100 62 1 1000]⟩,
   ⟨0xB, 1, 0, 0, [fldR 0 10 .rwp 200 62 200 1000]⟩,
   ⟨0xC, 1, 0, 0, [fld 0 8 .rwp 255 62, fld 8 1 .rwp 1 62]⟩,
   ⟨0x10, 1, 0, 0, [fldR 0 4 .rwp 0 62 0 13]⟩,
   ⟨0x11, 1, 0, 0, [fld 0 16 .rwp 32768 62]⟩,
   ⟨0x12, 1, 0, 0, [fld 0 16 .rwp 32767 62]⟩,
   ⟨0x14, 1, 0, 0, [fld 0 1 .rwp 0 62]⟩,
   ⟨0x15, 1, 0, 0, [fld 0 5 .rwp 31 62]⟩,
   ⟨0x16, 1, 0, 0, [fld 0 8 .ro 67 127]⟩]

/-- Every register of block PWR. -/
def pwrRegs : List RegDef := pwrRegs0

/-- The registers of block CAL: 14_calibration_and_ageing.md R472. -/
def calRegs0 : List RegDef :=
  [⟨0x0, 1, 0, 0, [fld 0 1 .rw 1 62, fld 1 1 .rw 1 62, fld 2 1 .rw 1 62]⟩,
   ⟨0x1, 1, 0, 0, [fldR 0 8 .rw 32 62 1 255]⟩,
   ⟨0x10, 1, 0, 0, [fldR 0 5 .rw 0 62 0 23, fld 5 1 .w1s 0 0, fld 6 1 .w1s 0 0]⟩,
   ⟨0x11, 1, 0, 0, [fld 0 1 .ro 0 72, fld 1 3 .ro 0 8, fld 4 5 .ro 0 8, fld 9 1 .ro 0 72]⟩,
   ⟨0x12, 1, 0, 0, [fld 0 16 .ro 0 8]⟩,
   ⟨0x20, 1, 0, 0, [fld 0 8 .rw 0 62]⟩,
   ⟨0x21, 1, 0, 0, [fld 0 16 .rw 0 62]⟩,
   ⟨0x22, 1, 0, 0, [fldR 0 16 .rw 0 62 0 10080]⟩,
   ⟨0x23, 1, 0, 0, [fld 0 8 .rw 20 62]⟩,
   ⟨0x30, 1, 0, 0, [fld 0 1 .ro 0 63, fld 1 1 .ro 0 63]⟩,
   ⟨0x31, 1, 0, 0, [fld 0 1 .rw 0 62, fld 1 8 .rw 0 62]⟩,
   ⟨0x32, 1, 0, 0, [fld 0 2 .ro 0 72, fld 2 1 .ro 0 72]⟩,
   ⟨0x33, 1, 0, 0, [fld 0 16 .ro 0 72]⟩,
   ⟨0x40, 1, 0, 0, [fld 0 1 .w1c 0 8, fld 1 1 .w1c 0 8, fld 2 1 .w1c 0 8, fld 3 1 .w1c 0 8, fld 4 1 .w1c 0 8]⟩,
   ⟨0x41, 1, 0, 0, [fld 0 1 .rw 0 62, fld 1 1 .rw 1 62, fld 2 1 .rw 1 62, fld 3 1 .rw 1 62, fld 4 1 .rw 1 62]⟩,
   ⟨0x43, 1, 0, 0, [fld 0 8 .ro 0 8]⟩,
   ⟨0x44, 1, 0, 0, [fld 0 16 .ro 0 8]⟩]

/-- Every register of block CAL. -/
def calRegs : List RegDef := calRegs0

/-- The registers of block AGE: 14_calibration_and_ageing.md R472. -/
def ageRegs0 : List RegDef :=
  [⟨0x0, 1, 0, 0, [fldR 0 16 .rw 50 62 1 1000]⟩,
   ⟨0x1, 1, 0, 0, [fldR 0 8 .rw 15 62 1 255]⟩,
   ⟨0x2, 1, 0, 0, [fld 0 1 .rw 1 63, fld 1 1 .rw 1 63, fld 2 1 .rw 1 63, fld 3 1 .rw 1 63, fld 4 10 .rw 72 63]⟩,
   ⟨0x3, 1, 0, 0, [fld 0 8 .ro 0 127, fld 8 3 .ro 0 127, fld 11 3 .ro 0 127, fld 14 1 .ro 0 127]⟩,
   ⟨0x4, 2, 2, 0, [fld 0 16 .ro 0 127]⟩,
   ⟨0x6, 2, 2, 0, [fld 0 16 .ro 0 127]⟩,
   ⟨0x10, 1, 0, 0, [fld 0 5 .rw 0 62]⟩,
   ⟨0x11, 1, 0, 0, [fld 0 16 .ro 65535 127]⟩,
   ⟨0x12, 1, 0, 0, [fld 0 16 .ro 0 127]⟩,
   ⟨0x13, 1, 0, 0, [fld 0 16 .ro 0 127]⟩,
   ⟨0x20, 1, 0, 0, [fld 0 2 .rw 0 62]⟩,
   ⟨0x21, 2, 2, 0, [fld 0 16 .ro 0 127]⟩,
   ⟨0x23, 1, 0, 0, [fld 0 16 .ro 0 127]⟩,
   ⟨0x24, 1, 0, 0, [fld 0 1 .w1s 0 0, fld 1 1 .w1s 0 0]⟩,
   ⟨0x30, 1, 0, 0, [fld 0 1 .w1c 0 8, fld 1 1 .w1c 0 8, fld 2 1 .w1c 0 8, fld 3 1 .w1c 0 8, fld 4 1 .w1c 0 8, fld 5 1 .w1c 0 8]⟩,
   ⟨0x31, 1, 0, 0, [fld 0 1 .rw 0 62, fld 1 1 .rw 1 62, fld 2 1 .rw 1 62, fld 3 1 .rw 0 62, fld 4 1 .rw 1 62, fld 5 1 .rw 1 62]⟩]

/-- Every register of block AGE. -/
def ageRegs : List RegDef := ageRegs0

/-- The registers of block BIST: 15_self_test_and_faults.md R495. -/
def bistRegs0 : List RegDef :=
  [⟨0x0, 1, 0, 0, [fldR 0 6 .rw 0 62 0 43, fld 6 1 .rw 0 62, fld 7 1 .w1s 0 0]⟩,
   ⟨0x1, 1, 0, 0, [fld 0 1 .ro 0 72, fld 1 3 .ro 0 8, fld 4 6 .ro 0 8, fld 10 3 .ro 0 72]⟩,
   ⟨0x2, 1, 0, 0, [fld 0 2 .ro 3 63, fld 2 4 .ro 0 63, fld 6 2 .ro 0 63, fld 8 1 .ro 0 63]⟩,
   ⟨0x3, 2, 2, 0, [fld 0 16 .ro 65535 63]⟩,
   ⟨0x5, 1, 0, 0, [fld 0 16 .ro 255 63]⟩,
   ⟨0x6, 2, 2, 0, [fld 0 16 .ro 0 63]⟩,
   ⟨0x8, 2, 2, 0, [fld 0 16 .ro 0 63]⟩,
   ⟨0xA, 2, 2, 0, [fld 0 16 .ro 0 63]⟩,
   ⟨0x10, 3, 3, 0, [fld 0 16 .ro 0 63]⟩,
   ⟨0x18, 1, 0, 0, [fld 0 5 .rw 0 62, fld 5 10 .rw 0 62, fld 15 1 .rw 0 62]⟩,
   ⟨0x20, 1, 0, 0, [fld 0 1 .w1c 0 8, fld 1 1 .w1c 0 8, fld 2 1 .w1c 0 63, fld 3 1 .w1c 0 8]⟩,
   ⟨0x21, 1, 0, 0, [fld 0 1 .rw 0 62, fld 1 1 .rw 1 62, fld 2 1 .rw 1 62, fld 3 1 .rw 1 62]⟩]

/-- Every register of block BIST. -/
def bistRegs : List RegDef := bistRegs0

/-- The registers of block TAP: 15_self_test_and_faults.md R495. -/
def tapRegs0 : List RegDef :=
  [⟨0x0, 1, 2, 0, [fld 0 16 .ro 34251 127]⟩,
   ⟨0x1, 1, 2, 1, [fld 0 16 .ro 7316 127]⟩,
   ⟨0x2, 1, 0, 0, [fld 0 8 .ro 1 127, fld 8 1 .ro 0 127, fld 9 1 .ro 0 127]⟩]

/-- Every register of block TAP. -/
def tapRegs : List RegDef := tapRegs0

/-- The registers of block SNS: 17_pins_and_electrical.md R529. -/
def snsRegs0 : List RegDef :=
  [⟨0x0, 8, 0, 0, [fld 0 16 .ro 0 127]⟩,
   ⟨0x8, 6, 0, 0, [fld 0 16 .ro 0 127]⟩,
   ⟨0x10, 1, 0, 0, [fld 0 16 .rwp 920 62]⟩,
   ⟨0x11, 1, 0, 0, [fld 0 8 .ro 0 127, fld 8 6 .ro 0 127, fld 14 1 .ro 0 127]⟩,
   ⟨0x12, 1, 0, 0, [fld 0 1 .ro 0 8, fld 1 1 .ro 0 8, fld 2 1 .ro 0 8]⟩,
   ⟨0x13, 1, 0, 0, [fld 0 3 .rwp 0 0]⟩,
   ⟨0x14, 1, 0, 0, [fld 0 3 .rwp 3 62]⟩]

/-- Every register of block SNS. -/
def snsRegs : List RegDef := snsRegs0

/-- The registers of block MBX, part 0: 11_binder_mailboxes.md R389. -/
def mbxRegs0 : List RegDef :=
  [⟨0x0, 1, 0, 0, [fld 0 16 .rw 0 8]⟩,
   ⟨0x1, 1, 0, 0, [fld 0 8 .rw 0 8, fldR 8 6 .rw 0 8 0 32]⟩,
   ⟨0x2, 1, 0, 0, [fld 0 1 .w1s 0 0]⟩,
   ⟨0x3, 1, 0, 0, [fld 0 2 .ro 0 56, fld 2 1 .ro 0 56, fld 3 1 .ro 0 72, fld 8 8 .ro 0 56]⟩,
   ⟨0x4, 1, 0, 0, [fld 0 8 .ro 0 56, fld 8 6 .ro 0 56]⟩,
   ⟨0x5, 1, 0, 0, [fld 0 16 .ro 0 56]⟩,
   ⟨0x40, 64, 2, 0, [fld 0 16 .rw 0 8]⟩,
   ⟨0x80, 64, 2, 0, [fld 0 16 .ro 0 56]⟩,
   ⟨0x100, 1, 0, 0, [fld 0 16 .rw 0 8]⟩,
   ⟨0x101, 1, 0, 0, [fld 0 8 .rw 0 8, fldR 8 6 .rw 0 8 0 32]⟩,
   ⟨0x102, 1, 0, 0, [fld 0 1 .w1s 0 0]⟩,
   ⟨0x103, 1, 0, 0, [fld 0 2 .ro 0 56, fld 2 1 .ro 0 56, fld 3 1 .ro 0 72, fld 8 8 .ro 0 56]⟩,
   ⟨0x104, 1, 0, 0, [fld 0 8 .ro 0 56, fld 8 6 .ro 0 56]⟩,
   ⟨0x105, 1, 0, 0, [fld 0 16 .ro 0 56]⟩,
   ⟨0x140, 64, 2, 0, [fld 0 16 .rw 0 8]⟩,
   ⟨0x180, 64, 2, 0, [fld 0 16 .ro 0 56]⟩,
   ⟨0x200, 1, 0, 0, [fld 0 16 .rw 0 8]⟩,
   ⟨0x201, 1, 0, 0, [fld 0 8 .rw 0 8, fldR 8 6 .rw 0 8 0 32]⟩,
   ⟨0x202, 1, 0, 0, [fld 0 1 .w1s 0 0]⟩,
   ⟨0x203, 1, 0, 0, [fld 0 2 .ro 0 56, fld 2 1 .ro 0 56, fld 3 1 .ro 0 72, fld 8 8 .ro 0 56]⟩,
   ⟨0x204, 1, 0, 0, [fld 0 8 .ro 0 56, fld 8 6 .ro 0 56]⟩,
   ⟨0x205, 1, 0, 0, [fld 0 16 .ro 0 56]⟩,
   ⟨0x240, 64, 2, 0, [fld 0 16 .rw 0 8]⟩,
   ⟨0x280, 64, 2, 0, [fld 0 16 .ro 0 56]⟩]

/-- The registers of block MBX, part 1: 11_binder_mailboxes.md R389. -/
def mbxRegs1 : List RegDef :=
  [⟨0x300, 1, 0, 0, [fld 0 16 .rw 0 8]⟩,
   ⟨0x301, 1, 0, 0, [fld 0 8 .rw 0 8, fldR 8 6 .rw 0 8 0 32]⟩,
   ⟨0x302, 1, 0, 0, [fld 0 1 .w1s 0 0]⟩,
   ⟨0x303, 1, 0, 0, [fld 0 2 .ro 0 56, fld 2 1 .ro 0 56, fld 3 1 .ro 0 72, fld 8 8 .ro 0 56]⟩,
   ⟨0x304, 1, 0, 0, [fld 0 8 .ro 0 56, fld 8 6 .ro 0 56]⟩,
   ⟨0x305, 1, 0, 0, [fld 0 16 .ro 0 56]⟩,
   ⟨0x340, 64, 2, 0, [fld 0 16 .rw 0 8]⟩,
   ⟨0x380, 64, 2, 0, [fld 0 16 .ro 0 56]⟩,
   ⟨0x400, 1, 0, 0, [fld 0 4 .w1c 0 8, fld 4 1 .w1c 0 8, fld 5 1 .w1c 0 8, fld 6 1 .w1c 0 8]⟩,
   ⟨0x401, 1, 0, 0, [fld 0 7 .rw 115 62]⟩,
   ⟨0x402, 1, 0, 0, [fld 0 8 .ro 0 8]⟩,
   ⟨0x410, 1, 0, 0, [fld 0 3 .rw 0 62]⟩,
   ⟨0x411, 1, 0, 0, [fld 0 2 .ro 0 56, fld 2 2 .ro 0 56, fld 8 8 .ro 0 56]⟩,
   ⟨0x412, 1, 0, 0, [fld 0 16 .ro 0 56]⟩,
   ⟨0x413, 1, 0, 0, [fld 0 8 .ro 0 56, fld 8 1 .w1s 0 0]⟩,
   ⟨0x440, 60, 2, 0, [fld 0 16 .ro 0 56]⟩]

/-- Every register of block MBX. -/
def mbxRegs : List RegDef := mbxRegs0 ++ mbxRegs1

/-- The registers of block PMC: 16_counters.md R509. -/
def pmcRegs0 : List RegDef :=
  [⟨0x0, 1, 0, 0, [fld 0 8 .rw 0 62, fld 8 4 .rw 0 62, fld 12 1 .w1s 0 0]⟩,
   ⟨0x1, 1, 0, 0, [fld 0 8 .rw 0 62, fld 8 8 .rw 0 62]⟩,
   ⟨0x2, 1, 0, 0, [fld 0 8 .w1c 0 8]⟩,
   ⟨0x4, 4, 4, 0, [fld 0 16 .ro 0 8]⟩,
   ⟨0x10, 16, 2, 0, [fld 0 16 .rw 0 8]⟩,
   ⟨0x20, 8, 0, 0, [fldR 0 5 .rw 0 62 0 13]⟩,
   ⟨0x28, 8, 0, 0, [fld 0 16 .rw 0 62]⟩,
   ⟨0x30, 2, 2, 0, [fld 0 16 .ro 0 8]⟩,
   ⟨0x32, 1, 0, 0, [fld 0 3 .ro 0 8, fld 15 1 .w1c 0 8]⟩]

/-- Every register of block PMC. -/
def pmcRegs : List RegDef := pmcRegs0

/-- The registers of block QUIRE, part 0: 08_quire_buffer.md R306. -/
def quireRegs0 : List RegDef :=
  [⟨0x0, 1, 0, 0, [fld 0 1 .rw 1 62, fld 1 1 .rw 0 62, fld 2 1 .w1s 0 0]⟩,
   ⟨0x1, 1, 0, 0, [fld 0 6 .ro 0 72, fld 6 1 .ro 0 72, fld 7 1 .ro 0 72]⟩,
   ⟨0x2, 2, 2, 0, [fld 0 16 .ro 0 72]⟩,
   ⟨0x10, 1, 0, 0, [fld 0 12 .rw 16 62]⟩,
   ⟨0x11, 1, 0, 0, [fld 0 12 .rw 64 62]⟩,
   ⟨0x12, 2, 2, 0, [fld 0 16 .ro 0 72]⟩,
   ⟨0x14, 2, 2, 0, [fld 0 16 .ro 0 72]⟩,
   ⟨0x20, 1, 0, 0, [fld 0 3 .rw 0 62, fld 3 3 .rw 0 62, fld 6 1 .rw 0 62]⟩,
   ⟨0x21, 1, 0, 0, [fld 0 10 .rw 32 62]⟩,
   ⟨0x22, 1, 0, 0, [fld 0 12 .rw 4095 62, fld 12 4 .rw 4 62]⟩,
   ⟨0x23, 1, 0, 0, [fld 0 12 .rw 4095 62]⟩,
   ⟨0x24, 2, 2, 0, [fld 0 16 .ro 0 72]⟩,
   ⟨0x26, 1, 0, 0, [fld 0 1 .ro 0 72, fld 1 1 .ro 0 72, fld 2 1 .ro 0 72]⟩,
   ⟨0x28, 1, 0, 0, [fld 0 12 .rw 256 62]⟩,
   ⟨0x29, 1, 0, 0, [fld 0 12 .ro 0 72]⟩,
   ⟨0x2A, 1, 0, 0, [fldR 0 4 .rw 1 62 1 15]⟩,
   ⟨0x30, 1, 0, 0, [fldR 0 8 .rw 64 62 1 255, fldR 8 8 .rw 10 62 1 255]⟩,
   ⟨0x31, 2, 2, 0, [fld 0 16 .ro 0 72]⟩,
   ⟨0x33, 2, 2, 0, [fld 0 16 .ro 0 72]⟩,
   ⟨0x40, 1, 0, 0, [fld 0 1 .rw 0 62, fld 1 1 .rw 0 62]⟩,
   ⟨0x41, 1, 0, 0, [fld 0 12 .rw 256 62]⟩,
   ⟨0x42, 1, 0, 0, [fld 0 12 .rw 512 62]⟩,
   ⟨0x43, 1, 0, 0, [fld 0 12 .rw 0 62]⟩,
   ⟨0x44, 1, 0, 0, [fld 0 1 .ro 0 72, fld 1 1 .ro 0 72, fld 2 1 .ro 0 72]⟩]

/-- The registers of block QUIRE, part 1: 08_quire_buffer.md R306, 16_counters.md R509. -/
def quireRegs1 : List RegDef :=
  [⟨0x50, 2, 2, 0, [fld 0 16 .ro 0 8]⟩,
   ⟨0x52, 1, 0, 0, [fld 0 2 .ro 0 8, fld 2 1 .ro 0 8]⟩,
   ⟨0x60, 1, 0, 0, [fld 0 1 .w1c 0 8, fld 1 1 .w1c 0 8, fld 2 1 .w1c 0 8, fld 3 1 .w1c 0 8, fld 4 1 .w1c 0 8, fld 5 1 .w1c 0 8, fld 6 1 .w1c 0 8]⟩,
   ⟨0x61, 1, 0, 0, [fld 0 7 .rw 75 62]⟩,
   ⟨0x200, 60, 4, 0, [fld 0 16 .ro 0 8]⟩,
   ⟨0x2F0, 1, 0, 0, [fld 0 16 .w1c 0 8]⟩,
   ⟨0x300, 1, 0, 0, [fld 0 8 .rw 0 62, fld 8 4 .rw 0 62, fld 12 1 .w1s 0 0]⟩,
   ⟨0x301, 1, 0, 0, [fld 0 8 .rw 0 62, fld 8 8 .rw 0 62]⟩,
   ⟨0x302, 1, 0, 0, [fld 0 8 .w1c 0 8]⟩,
   ⟨0x304, 4, 4, 0, [fld 0 16 .ro 0 8]⟩,
   ⟨0x310, 16, 2, 0, [fld 0 16 .rw 0 8]⟩,
   ⟨0x320, 8, 0, 0, [fldR 0 5 .rw 0 62 0 15]⟩,
   ⟨0x328, 8, 0, 0, [fld 0 16 .rw 0 62]⟩,
   ⟨0x330, 2, 2, 0, [fld 0 16 .ro 0 8]⟩,
   ⟨0x332, 1, 0, 0, [fld 0 3 .ro 0 8, fld 15 1 .w1c 0 8]⟩]

/-- Every register of block QUIRE. -/
def quireRegs : List RegDef := quireRegs0 ++ quireRegs1

/-- The registers of block FOLIO: 06_folio_time.md R228. DESIGN CHOICE (log entry 138): LOG_SYNC and LOG_PDELAY take a value outside
the ranges of their rows as written, since no row marks one reserved. -/
def folioRegs0 : List RegDef :=
  [⟨0x0, 1, 0, 0, [fldR 0 3 .rw 0 62 0 3, fld 3 3 .rw 0 62, fld 6 1 .rw 0 62, fld 7 1 .rw 1 62, fld 8 1 .rw 1 62, fld 9 1 .rw 0 62]⟩,
   ⟨0x1, 1, 0, 0, [fld 0 1 .w1s 0 0, fld 1 1 .w1s 0 0, fld 2 1 .w1s 0 0, fld 3 1 .w1s 0 0]⟩,
   ⟨0x2, 1, 0, 0, [fld 0 3 .ro 0 126, fld 3 1 .ro 0 126, fld 4 1 .ro 0 126, fld 5 1 .ro 0 126]⟩,
   ⟨0x10, 6, 6, 0, [fld 0 16 .ro 0 72]⟩,
   ⟨0x18, 6, 6, 0, [fld 0 16 .rw 0 62]⟩,
   ⟨0x20, 4, 4, 0, [fld 0 16 .rw 0 62]⟩,
   ⟨0x28, 3, 3, 0, [fld 0 16 .rw 0 62]⟩,
   ⟨0x30, 1, 0, 0, [fld 0 1 .rw 0 62, fldR 1 3 .rw 4 62 0 6, fld 4 1 .rw 0 62, fldR 8 8 .rw 20 62 1 255]⟩,
   ⟨0x32, 2, 2, 0, [fld 0 16 .ro 0 126]⟩,
   ⟨0x38, 1, 0, 0, [fldR 0 8 .rw 16 62 1 255, fldR 8 4 .rw 3 62 2 15]⟩,
   ⟨0x40, 6, 6, 0, [fld 0 16 .ro 65535 126]⟩,
   ⟨0x48, 1, 0, 0, [fld 0 8 .rw 0 62, fld 8 1 .rw 0 62]⟩,
   ⟨0x49, 1, 0, 0, [fld 0 8 .rw 246 62, fld 8 8 .rw 248 62]⟩,
   ⟨0x50, 1, 0, 0, [fld 0 8 .rw 0 62, fld 8 4 .rw 13 62, fld 12 4 .rw 0 62]⟩,
   ⟨0x60, 1, 0, 0, [fld 0 1 .w1c 0 8, fld 1 1 .w1c 0 8, fld 2 1 .w1c 0 8, fld 3 1 .w1c 0 8, fld 4 1 .w1c 0 8, fld 5 1 .w1c 0 8, fld 6 1 .w1c 0 8, fld 7 1 .w1c 0 8]⟩,
   ⟨0x61, 1, 0, 0, [fld 0 8 .rw 250 62]⟩,
   ⟨0x70, 1, 0, 0, [fld 0 8 .rw 0 62]⟩,
   ⟨0x72, 1, 0, 0, [fld 0 2 .rw 0 62, fld 2 4 .ro 0 72, fld 6 1 .ro 0 72, fld 7 1 .w1c 0 8]⟩,
   ⟨0x74, 6, 6, 0, [fld 0 16 .ro 0 72]⟩,
   ⟨0x81, 1, 0, 0, [fld 0 2 .rw 0 62, fld 2 1 .rw 0 62, fld 3 1 .rw 0 62, fld 4 1 .w1s 0 0, fld 5 1 .w1s 0 0, fld 6 1 .ro 0 72]⟩,
   ⟨0x82, 6, 6, 0, [fld 0 16 .rw 0 62]⟩,
   ⟨0x88, 3, 3, 0, [fld 0 16 .rw 0 62]⟩,
   ⟨0x8B, 2, 2, 0, [fld 0 16 .rw 0 62]⟩]

/-- Every register of block FOLIO. -/
def folioRegs : List RegDef := folioRegs0

/-- The registers of block SPINE: 09_spine_cascade.md R334, 16_counters.md R509. -/
def spineRegs0 : List RegDef :=
  [⟨0x0, 1, 0, 0, [fld 0 1 .rw 1 62, fld 1 1 .rw 1 62, fld 2 1 .rw 0 62, fld 3 1 .rw 1 62, fld 4 1 .w1s 0 0]⟩,
   ⟨0x1, 1, 0, 0, [fld 0 1 .w1s 0 0, fldR 1 2 .rw 1 62 1 2, fld 3 2 .rw 0 62, fld 5 1 .w1s 0 0, fld 6 1 .w1s 0 0]⟩,
   ⟨0x2, 1, 0, 0, [fld 0 2 .ro 0 72, fld 2 2 .ro 0 72, fld 4 3 .ro 0 72, fld 7 1 .ro 0 72, fld 8 1 .ro 0 72]⟩,
   ⟨0x3, 1, 0, 0, [fld 1 3 .ro 0 72]⟩,
   ⟨0x100, 1, 0, 0, [fld 0 1 .w1s 0 0, fld 1 1 .rw 1 62]⟩,
   ⟨0x101, 1, 0, 0, [fld 0 3 .ro 0 72, fld 3 1 .ro 0 72, fld 4 2 .ro 0 72, fld 6 2 .ro 0 72, fld 8 2 .ro 0 72, fld 10 1 .ro 0 72, fld 11 1 .ro 0 72]⟩,
   ⟨0x102, 2, 2, 0, [fld 0 16 .ro 0 72]⟩,
   ⟨0x110, 1, 0, 0, [fld 0 1 .w1c 0 8, fld 1 1 .w1c 0 8, fld 2 1 .w1c 0 8, fld 3 1 .w1c 0 8, fld 4 1 .w1c 0 8, fld 5 1 .w1c 0 8, fld 6 1 .w1c 0 8, fld 7 1 .w1c 0 8]⟩,
   ⟨0x111, 1, 0, 0, [fld 0 8 .rw 250 62]⟩,
   ⟨0x180, 1, 0, 0, [fld 0 1 .w1s 0 0, fld 1 1 .rw 1 62]⟩,
   ⟨0x181, 1, 0, 0, [fld 0 3 .ro 0 72, fld 3 1 .ro 0 72, fld 4 2 .ro 0 72, fld 6 2 .ro 0 72, fld 8 2 .ro 0 72, fld 10 1 .ro 0 72, fld 11 1 .ro 0 72]⟩,
   ⟨0x182, 2, 2, 0, [fld 0 16 .ro 0 72]⟩,
   ⟨0x190, 1, 0, 0, [fld 0 1 .w1c 0 8, fld 1 1 .w1c 0 8, fld 2 1 .w1c 0 8, fld 3 1 .w1c 0 8, fld 4 1 .w1c 0 8, fld 5 1 .w1c 0 8, fld 6 1 .w1c 0 8, fld 7 1 .w1c 0 8]⟩,
   ⟨0x191, 1, 0, 0, [fld 0 8 .rw 250 62]⟩,
   ⟨0x200, 64, 4, 0, [fld 0 16 .ro 0 8]⟩,
   ⟨0x270, 1, 0, 0, [fld 0 16 .w1c 0 8]⟩,
   ⟨0x280, 64, 4, 0, [fld 0 16 .ro 0 8]⟩,
   ⟨0x2F0, 1, 0, 0, [fld 0 16 .w1c 0 8]⟩]

/-- Every register of block SPINE. -/
def spineRegs : List RegDef := spineRegs0

/-- The registers of block ROLL: 15_self_test_and_faults.md R495. -/
def rollRegs0 : List RegDef :=
  [⟨0x0, 1, 0, 0, [fldR 0 5 .rw 0 62 0 25]⟩,
   ⟨0x1, 1, 0, 0, [fld 0 1 .rw 0 8, fld 1 4 .rw 0 62, fld 5 1 .rw 0 62, fld 6 1 .rw 0 62, fld 7 1 .rw 0 62]⟩,
   ⟨0x2, 1, 0, 0, [fld 0 8 .rw 255 62]⟩,
   ⟨0x3, 1, 0, 0, [fld 0 10 .rw 1 62]⟩,
   ⟨0x4, 1, 2, 0, [fld 0 16 .rw 1 62]⟩,
   ⟨0x5, 1, 2, 1, [fld 0 16 .rw 0 62]⟩,
   ⟨0x6, 1, 2, 0, [fld 0 16 .rw 1 62]⟩,
   ⟨0x7, 1, 2, 1, [fld 0 16 .rw 0 62]⟩,
   ⟨0x8, 1, 0, 0, [fld 0 1 .ro 0 72, fld 1 3 .ro 0 72]⟩,
   ⟨0x10, 3, 3, 0, [fld 0 16 .ro 0 8]⟩,
   ⟨0x14, 3, 3, 0, [fld 0 16 .ro 0 8]⟩,
   ⟨0x20, 2, 2, 0, [fld 0 16 .ro 0 72]⟩,
   ⟨0x22, 1, 0, 0, [fld 0 1 .w1s 0 0]⟩]

/-- Every register of block ROLL. -/
def rollRegs : List RegDef := rollRegs0

/-- The registers of block REG: 10_register_fabric.md R363. -/
def regRegs0 : List RegDef :=
  [⟨0x0, 1, 0, 0, [fld 0 1 .ro 0 72, fld 1 1 .ro 0 72, fld 2 1 .ro 0 72]⟩,
   ⟨0x10, 1, 0, 0, [fld 0 3 .ro 0 8, fld 3 3 .ro 0 8, fld 6 1 .ro 0 8, fld 15 1 .w1c 0 8]⟩,
   ⟨0x11, 2, 2, 0, [fld 0 16 .ro 0 8]⟩,
   ⟨0x13, 1, 0, 0, [fld 0 16 .ro 0 8]⟩,
   ⟨0x20, 1, 0, 0, [fld 0 1 .rw 0 62, fld 1 1 .rw 0 62, fld 2 1 .rw 0 62, fld 3 1 .rw 0 62, fld 4 1 .rw 0 62]⟩,
   ⟨0x30, 1, 0, 0, [fld 0 1 .wl 0 63, fld 1 1 .wl 0 63, fld 2 1 .wl 0 63, fld 3 1 .wl 0 63, fld 4 1 .wl 0 63, fld 5 1 .wl 0 63, fld 6 1 .wl 0 63]⟩,
   ⟨0x40, 1, 0, 0, [fldR 0 5 .rw 16 62 4 31]⟩]

/-- Every register of block REG. -/
def regRegs : List RegDef := regRegs0

/-- The registers of block LPn, part 0: 02_line_port.md R79. -/
def lpRegs0 : List RegDef :=
  [⟨0x0, 1, 0, 0, [fld 0 1 .rw 0 62, fld 1 1 .w1s 0 0, fld 2 2 .rw 0 62, fld 4 2 .rw 3 62]⟩,
   ⟨0x1, 1, 0, 0, [fld 0 1 .ro 0 72, fld 1 1 .ro 0 72, fld 2 1 .ro 0 72, fld 3 1 .ro 0 72, fld 4 1 .ro 0 72]⟩,
   ⟨0x2, 1, 0, 0, [fld 0 4 .rw 0 62]⟩,
   ⟨0x3, 1, 0, 0, [fld 0 8 .rw 0 63]⟩,
   ⟨0x4, 1, 0, 0, [fld 0 6 .rw 0 62, fldR 6 2 .rw 0 62 0 2]⟩,
   ⟨0x5, 1, 0, 0, [fld 0 12 .rw 0 63]⟩,
   ⟨0x200, 1, 0, 0, [fld 0 1 .rw 0 62, fld 1 1 .rw 0 62, fld 2 1 .rw 0 62, fld 3 1 .rw 0 62, fld 4 1 .rw 0 62, fld 5 1 .rw 0 62, fld 8 1 .rw 1 62, fld 9 1 .w1s 0 0]⟩,
   ⟨0x201, 1, 0, 0, [fld 0 12 .rw 0 62, fld 12 3 .rw 0 62, fld 15 1 .rw 0 62]⟩,
   ⟨0x202, 1, 0, 0, [fld 0 16 .rw 0 8]⟩,
   ⟨0x203, 1, 0, 0, [fld 0 16 .ro 0 72]⟩,
   ⟨0x204, 1, 0, 0, [fldR 0 10 .rw 24 62 1 1023]⟩,
   ⟨0x205, 1, 0, 0, [fldR 0 10 .rw 16 62 1 1023]⟩,
   ⟨0x206, 1, 0, 0, [fldR 0 11 .rw 32 62 1 2047]⟩,
   ⟨0x207, 1, 0, 0, [fldR 0 6 .rw 4 62 1 63, fldR 8 6 .rw 2 62 1 63]⟩,
   ⟨0x208, 1, 0, 0, [fld 0 1 .ro 0 72, fld 1 1 .ro 0 72, fld 2 1 .ro 0 72, fld 4 3 .ro 0 8, fld 8 2 .ro 0 72]⟩,
   ⟨0x209, 1, 0, 0, [fld 0 10 .ro 0 72]⟩,
   ⟨0x400, 1, 0, 0, [fld 0 1 .ro 0 72, fld 1 1 .ro 0 72, fld 2 1 .ro 0 72, fld 3 1 .ro 0 72, fld 4 1 .ro 0 72, fld 5 1 .ro 0 72]⟩,
   ⟨0x402, 1, 0, 0, [fldR 0 14 .rw 2048 62 64 16000]⟩,
   ⟨0x410, 1, 0, 0, [fld 0 8 .rw 255 62, fld 8 8 .rw 255 62]⟩,
   ⟨0x411, 1, 0, 0, [fldR 0 16 .rw 65535 62 1 65535]⟩,
   ⟨0x412, 1, 0, 0, [fldR 0 12 .rw 200 62 1 4095]⟩,
   ⟨0x413, 1, 0, 0, [fld 0 8 .ro 0 72, fld 8 8 .ro 0 72]⟩,
   ⟨0x414, 3, 3, 0, [fld 0 16 .rw 0 62]⟩,
   ⟨0x600, 1, 0, 0, [fldR 0 4 .rw 0 62 0 5, fld 4 1 .rw 1 62, fld 5 1 .rw 1 62, fld 6 1 .rw 1 62, fld 7 1 .w1s 0 0, fld 8 4 .rw 0 62]⟩]

/-- The registers of block LPn, part 1: 02_line_port.md R79, 03_octavo.md R124. -/
def lpRegs1 : List RegDef :=
  [⟨0x601, 1, 0, 0, [fld 0 1 .rw 1 62, fld 1 1 .rw 1 62, fld 2 1 .rw 1 62, fld 3 1 .rw 1 62, fld 4 1 .rw 1 62, fld 8 4 .rw 0 62, fld 12 1 .rw 1 62, fld 13 1 .rw 1 62]⟩,
   ⟨0x602, 1, 0, 0, [fld 0 14 .ro 0 72, fld 14 1 .ro 0 72, fld 15 1 .ro 0 72]⟩,
   ⟨0x603, 1, 0, 0, [fld 0 4 .ro 0 72, fld 4 1 .ro 0 72, fld 5 1 .ro 0 72, fld 6 1 .ro 0 72, fld 7 2 .ro 0 72]⟩,
   ⟨0x604, 1, 0, 0, [fld 0 4 .ro 0 72, fld 4 1 .ro 0 72, fld 8 3 .ro 0 8, fld 12 4 .ro 0 8]⟩,
   ⟨0x605, 1, 0, 0, [fld 0 8 .rw 10 62, fldR 8 4 .rw 8 62 1 15]⟩,
   ⟨0x606, 1, 0, 0, [fld 0 16 .rw 16 62]⟩,
   ⟨0x607, 1, 0, 0, [fld 0 12 .ro 0 72]⟩,
   ⟨0x608, 1, 0, 0, [fld 0 1 .w1c 0 8, fld 1 1 .w1c 0 8, fld 2 1 .w1c 0 8, fld 3 1 .w1c 0 8, fld 4 1 .w1c 0 8, fld 5 1 .w1c 0 8, fld 6 1 .w1c 0 8]⟩,
   ⟨0x609, 1, 0, 0, [fld 0 7 .rw 34 62]⟩,
   ⟨0x700, 1, 0, 0, [fld 0 1 .rw 0 62, fldR 1 3 .rw 0 62 0 5, fld 4 1 .rw 1 62, fld 5 1 .rw 1 62, fld 6 1 .rw 1 62, fld 8 1 .w1s 0 0]⟩,
   ⟨0x701, 1, 0, 0, [fldR 0 8 .rw 5 62 2 100, fldR 8 8 .rw 92 62 2 100]⟩,
   ⟨0x702, 1, 0, 0, [fld 0 8 .rw 60 62, fld 8 8 .rw 30 62]⟩,
   ⟨0x703, 1, 0, 0, [fld 0 8 .rw 40 62]⟩,
   ⟨0x704, 1, 0, 0, [fld 0 4 .ro 0 72, fld 4 3 .ro 0 8, fld 7 3 .ro 0 72, fld 10 1 .ro 0 72, fld 11 1 .ro 0 72, fld 12 1 .ro 0 72, fld 13 1 .ro 0 72, fld 14 1 .ro 0 72]⟩,
   ⟨0x705, 1, 0, 0, [fld 0 14 .ro 0 72]⟩,
   ⟨0x706, 1, 0, 0, [fld 0 14 .ro 0 72]⟩,
   ⟨0x707, 1, 0, 0, [fld 0 8 .ro 0 72, fld 8 8 .ro 0 72]⟩,
   ⟨0x708, 1, 0, 0, [fld 0 11 .ro 0 72]⟩,
   ⟨0x709, 1, 0, 0, [fld 0 8 .ro 0 72, fld 8 8 .ro 0 72]⟩,
   ⟨0x710, 1, 0, 0, [fldR 0 11 .rw 8 62 8 2039, fld 15 1 .rw 0 62]⟩,
   ⟨0x711, 1, 0, 0, [fld 0 4 .ro 0 72, fld 4 4 .ro 0 72, fldR 8 4 .rw 12 62 0 12]⟩,
   ⟨0x712, 1, 0, 0, [fld 0 10 .ro 0 72]⟩,
   ⟨0x718, 1, 0, 0, [fld 0 5 .rw 0 62]⟩,
   ⟨0x719, 1, 0, 0, [fld 0 12 .ro 0 72]⟩]

/-- The registers of block LPn, part 2: 03_octavo.md R124, 04_pip_channel.md R159, 05_cable_and_idle.md R191. -/
def lpRegs2 : List RegDef :=
  [⟨0x720, 1, 0, 0, [fld 0 1 .w1c 0 8, fld 1 1 .w1c 0 8, fld 2 1 .w1c 0 8, fld 3 1 .w1c 0 8, fld 4 1 .w1c 0 8, fld 5 1 .w1c 0 8, fld 6 1 .w1c 0 8, fld 7 1 .w1c 0 8, fld 8 1 .w1c 0 8]⟩,
   ⟨0x721, 1, 0, 0, [fld 0 9 .rw 20 62]⟩,
   ⟨0x722, 1, 0, 0, [fld 0 16 .rw 16 62]⟩,
   ⟨0x900, 1, 0, 0, [fld 0 1 .rw 1 62, fld 1 1 .rw 0 62, fldR 2 2 .rw 0 62 0 2, fld 4 8 .rw 16 62, fld 12 1 .w1s 0 0, fld 13 1 .w1s 0 0, fld 14 1 .w1s 0 0]⟩,
   ⟨0x901, 1, 0, 0, [fld 0 6 .rw 12 62, fldR 8 6 .rw 40 62 16 63]⟩,
   ⟨0x902, 1, 0, 0, [fldR 0 10 .rw 110 62 1 1023]⟩,
   ⟨0x903, 1, 0, 0, [fldR 0 2 .rw 2 62 1 2, fld 4 12 .rw 0 62]⟩,
   ⟨0x904, 1, 0, 0, [fld 0 1 .ro 0 72, fld 1 1 .ro 0 72, fld 2 1 .ro 0 72, fld 3 1 .ro 0 72, fld 4 2 .ro 0 72]⟩,
   ⟨0x905, 1, 0, 0, [fld 0 8 .ro 0 72, fld 8 8 .ro 0 72]⟩,
   ⟨0x906, 4, 4, 0, [fld 0 16 .ro 0 72]⟩,
   ⟨0x90A, 1, 0, 0, [fld 0 8 .rw 0 62, fldR 8 6 .rw 0 62 0 61, fld 14 1 .rw 0 62]⟩,
   ⟨0x90B, 1, 0, 0, [fld 0 16 .rw 0 8]⟩,
   ⟨0x90C, 1, 0, 0, [fld 0 8 .ro 0 8, fld 8 6 .ro 0 8, fld 15 1 .w1c 0 8]⟩,
   ⟨0x910, 1, 0, 0, [fld 0 1 .w1c 0 8, fld 1 1 .w1c 0 8, fld 2 1 .w1c 0 8, fld 3 1 .w1c 0 8, fld 4 1 .w1c 0 8, fld 5 1 .w1c 0 8, fld 6 1 .w1c 0 8]⟩,
   ⟨0x911, 1, 0, 0, [fld 0 7 .rw 22 62]⟩,
   ⟨0xA00, 1, 0, 0, [fld 0 1 .w1s 0 0, fld 1 1 .w1s 0 0, fld 2 1 .rw 1 62, fld 3 1 .rw 1 62]⟩,
   ⟨0xA01, 1, 0, 0, [fldR 0 10 .rw 717 62 512 1000]⟩,
   ⟨0xA02, 1, 0, 0, [fldR 0 7 .rw 8 62 2 89, fldR 8 7 .rw 6 62 6 127]⟩,
   ⟨0xA03, 1, 0, 0, [fld 0 1 .ro 0 72, fld 1 3 .ro 0 8, fld 4 3 .ro 0 8, fld 7 1 .ro 0 8]⟩,
   ⟨0xA04, 1, 0, 0, [fld 0 2 .rw 0 62]⟩,
   ⟨0xA05, 1, 0, 0, [fld 0 3 .ro 0 8, fld 8 8 .ro 0 8]⟩,
   ⟨0xA06, 1, 0, 0, [fld 0 12 .ro 0 8]⟩,
   ⟨0xA07, 2, 2, 0, [fld 0 16 .ro 0 8]⟩,
   ⟨0xA10, 1, 0, 0, [fld 0 1 .ro 0 72, fld 1 1 .ro 0 72, fld 2 2 .ro 0 72, fld 4 4 .ro 0 72]⟩]

/-- The registers of block LPn, part 3: 05_cable_and_idle.md R191, 06_folio_time.md R228, 16_counters.md R509. LOG_SYNC and
LOG_PDELAY are as in block FOLIO (DESIGN CHOICE, log entry 138). -/
def lpRegs3 : List RegDef :=
  [⟨0xA11, 2, 2, 0, [fld 0 16 .ro 0 72]⟩,
   ⟨0xA13, 2, 2, 0, [fld 0 16 .ro 0 72]⟩,
   ⟨0xA15, 2, 2, 0, [fld 0 16 .ro 0 72]⟩,
   ⟨0xA17, 1, 0, 0, [fld 0 5 .rw 0 62]⟩,
   ⟨0xA18, 1, 0, 0, [fld 0 16 .ro 0 72]⟩,
   ⟨0xA20, 1, 0, 0, [fld 0 1 .w1c 0 8, fld 1 1 .w1c 0 8, fld 2 1 .w1c 0 8, fld 3 1 .w1c 0 8]⟩,
   ⟨0xA21, 1, 0, 0, [fld 0 4 .rw 4 62]⟩,
   ⟨0xB00, 1, 0, 0, [fld 0 1 .rw 0 62, fld 1 1 .rw 0 62, fldR 4 8 .rw 32 62 1 255]⟩,
   ⟨0xB01, 1, 0, 0, [fldR 0 8 .rw 63 62 4 255]⟩,
   ⟨0xB02, 1, 0, 0, [fld 0 1 .ro 0 72, fld 1 1 .ro 0 72, fld 2 1 .ro 0 72]⟩,
   ⟨0xC00, 208, 4, 0, [fld 0 16 .ro 0 8]⟩,
   ⟨0xDF0, 4, 0, 0, [fld 0 16 .w1c 0 8]⟩,
   ⟨0xE00, 1, 0, 0, [fldR 0 2 .rw 1 62 0 2, fld 2 4 .rw 13 62, fld 6 4 .rw 0 62]⟩,
   ⟨0xE01, 1, 0, 0, [fld 0 1 .ro 0 72, fld 1 1 .ro 0 72, fld 2 1 .ro 0 72, fld 3 1 .ro 0 72]⟩,
   ⟨0xE02, 2, 2, 0, [fld 0 16 .ro 0 72]⟩,
   ⟨0xE04, 2, 2, 0, [fld 0 16 .ro 0 72]⟩,
   ⟨0xE08, 2, 2, 0, [fld 0 16 .ro 0 72]⟩,
   ⟨0xE0A, 2, 2, 0, [fld 0 16 .ro 0 72]⟩,
   ⟨0xE10, 1, 0, 0, [fld 0 1 .w1c 0 8, fld 1 1 .w1c 0 8, fld 2 1 .w1c 0 8, fld 3 1 .w1c 0 8]⟩,
   ⟨0xE11, 1, 0, 0, [fld 0 4 .rw 2 62]⟩]

/-- Every register of block LPn. -/
def lpRegs : List RegDef := lpRegs0 ++ lpRegs1 ++ lpRegs2 ++ lpRegs3

/-- The registers of block Hn and Tn: 07_host_lanes_and_retimer.md R264, 16_counters.md R509. -/
def laneRegs0 : List RegDef :=
  [⟨0x0, 1, 0, 0, [fld 0 1 .rw 0 62, fldR 1 2 .rw 0 62 0 2, fld 3 1 .rw 0 62, fld 4 1 .rw 0 62, fld 5 1 .w1s 0 0, fldR 6 2 .rw 0 62 0 2, fld 8 1 .rw 0 62, fld 9 1 .rw 0 62, fld 10 1 .rw 0 62]⟩,
   ⟨0x1, 1, 0, 0, [fld 0 1 .ro 0 72, fld 1 1 .ro 0 72, fld 2 1 .ro 0 72, fld 3 1 .ro 0 72, fld 4 1 .ro 0 72, fld 5 1 .ro 0 72, fld 6 1 .ro 0 72, fld 7 1 .ro 0 72]⟩,
   ⟨0x2, 1, 0, 0, [fld 0 1 .w1c 0 8, fld 1 1 .w1c 0 8, fld 2 1 .w1c 0 8, fld 3 1 .w1c 0 8, fld 4 1 .w1c 0 8, fld 5 1 .w1c 0 8, fld 6 1 .w1c 0 8, fld 7 1 .w1c 0 8]⟩,
   ⟨0x3, 1, 0, 0, [fld 0 8 .rw 166 62]⟩,
   ⟨0x40, 1, 0, 0, [fld 0 8 .rw 248 62, fld 8 8 .rw 0 62]⟩,
   ⟨0x41, 1, 0, 0, [fld 0 8 .rw 248 62, fld 8 8 .rw 112 62]⟩,
   ⟨0x80, 1, 0, 0, [fld 0 1 .rw 0 62, fld 1 1 .rw 0 62, fld 2 1 .rw 0 62, fld 3 1 .rw 0 62, fld 4 1 .rw 0 62, fld 5 1 .rw 0 62]⟩,
   ⟨0x81, 1, 0, 0, [fld 0 4 .rw 0 62, fld 4 3 .rw 0 62, fld 15 1 .rw 0 62]⟩,
   ⟨0x82, 1, 0, 0, [fld 0 16 .rw 0 8]⟩,
   ⟨0x83, 1, 0, 0, [fld 0 8 .ro 0 72, fld 8 8 .ro 0 72]⟩,
   ⟨0xC0, 1, 0, 0, [fld 0 1 .w1s 0 0, fld 1 1 .rw 1 62]⟩,
   ⟨0xC1, 1, 0, 0, [fld 0 4 .ro 0 72, fld 4 1 .ro 0 72, fld 5 1 .ro 0 72, fld 6 1 .ro 0 72, fld 7 1 .ro 0 72]⟩,
   ⟨0x100, 1, 0, 0, [fld 0 1 .rw 0 62, fld 1 1 .rw 0 62, fld 2 4 .rw 0 62, fld 6 4 .rw 0 62, fld 10 1 .rw 0 62, fld 11 1 .rw 0 62]⟩,
   ⟨0x101, 1, 0, 0, [fld 0 1 .ro 0 72, fld 1 1 .w1c 0 8, fld 2 1 .w1c 0 8]⟩,
   ⟨0x102, 1, 0, 0, [fld 0 1 .w1s 0 0, fld 1 1 .rw 0 62, fld 2 4 .rw 0 62]⟩,
   ⟨0x104, 3, 3, 0, [fld 0 16 .ro 0 8]⟩,
   ⟨0x108, 3, 3, 0, [fld 0 16 .ro 0 8]⟩,
   ⟨0x200, 52, 4, 0, [fld 0 16 .ro 0 8]⟩,
   ⟨0x2F0, 1, 0, 0, [fld 0 16 .w1c 0 8]⟩]

/-- Every register of block Hn and Tn. -/
def laneRegs : List RegDef := laneRegs0

/-- The registers of block HGRP: 07_host_lanes_and_retimer.md R264, 16_counters.md R509. -/
def hgrpRegs0 : List RegDef :=
  [⟨0x0, 1, 0, 0, [fldR 0 3 .rw 0 62 0 4, fld 4 3 .ro 0 126, fld 7 1 .ro 0 126]⟩,
   ⟨0x1, 1, 0, 0, [fld 0 8 .ro 0 72, fld 8 1 .ro 0 72, fld 9 1 .ro 0 72]⟩,
   ⟨0x10, 1, 0, 0, [fldR 0 8 .rw 20 62 1 255, fldR 8 4 .rw 1 62 1 15]⟩,
   ⟨0x11, 1, 0, 0, [fldR 0 10 .rw 100 62 1 1023]⟩,
   ⟨0x12, 1, 0, 0, [fld 0 8 .ro 0 72, fld 8 1 .ro 0 72]⟩,
   ⟨0x20, 1, 0, 0, [fld 0 1 .w1c 0 8, fld 1 1 .w1c 0 8, fld 2 1 .w1c 0 8, fld 3 1 .w1c 0 8, fld 4 1 .w1c 0 8, fld 5 1 .w1c 0 8, fld 6 1 .w1c 0 8]⟩,
   ⟨0x21, 1, 0, 0, [fld 0 7 .rw 46 62]⟩,
   ⟨0x200, 40, 4, 0, [fld 0 16 .ro 0 8]⟩,
   ⟨0x2F0, 1, 0, 0, [fld 0 16 .w1c 0 8]⟩]

/-- Every register of block HGRP. -/
def hgrpRegs : List RegDef := hgrpRegs0

/-- The registers of block MMD 30 (MDIO_WIN): 10_register_fabric.md R348. -/
def mmdRegs0 : List RegDef :=
  [⟨0x0, 1, 0, 0, [fld 0 16 .rw 0 62]⟩,
   ⟨0x1, 1, 0, 0, [fld 0 3 .rw 0 62, fld 15 1 .rw 1 62]⟩,
   ⟨0x2, 1, 0, 0, [fld 0 16 .rw 0 72]⟩,
   ⟨0x3, 1, 0, 0, [fld 0 16 .rw 65535 62]⟩,
   ⟨0x4, 1, 0, 0, [fld 0 8 .ro 80 72]⟩]

/-- Every register of block MMD 30 (MDIO_WIN). -/
def mmdRegs : List RegDef := mmdRegs0

/-! The fields by name. A field of the replicated blocks LPn, Hn and Tn, MBn and of the two Spine faces has one name. -/

abbrev GLB_ID_PART : Fld := ⟨0x0, 0, 8⟩
abbrev GLB_ID_FAMILY : Fld := ⟨0x0, 8, 8⟩
abbrev GLB_STEP_STEP : Fld := ⟨0x1, 0, 8⟩
abbrev GLB_ROM_MINOR : Fld := ⟨0x2, 0, 8⟩
abbrev GLB_ROM_MAJOR : Fld := ⟨0x2, 8, 8⟩
abbrev GLB_SERIAL_SERIAL : Fld := ⟨0x3, 0, 16⟩
abbrev GLB_SWRST_SWRST : Fld := ⟨0x10, 0, 1⟩
abbrev GLB_RST_CAUSE_POR : Fld := ⟨0x11, 0, 1⟩
abbrev GLB_RST_CAUSE_PIN : Fld := ⟨0x11, 1, 1⟩
abbrev GLB_RST_CAUSE_GLB : Fld := ⟨0x11, 2, 1⟩
abbrev GLB_RST_CAUSE_STACK_GLB : Fld := ⟨0x11, 3, 1⟩
abbrev GLB_RST_CAUSE_STACK_PIN : Fld := ⟨0x11, 4, 1⟩
abbrev GLB_RST_CAUSE_WAKE : Fld := ⟨0x11, 5, 1⟩
abbrev GLB_STRAP_POS : Fld := ⟨0x20, 0, 2⟩
abbrev GLB_STRAP_MDIO : Fld := ⟨0x20, 2, 3⟩
abbrev GLB_STRAP_TWM : Fld := ⟨0x20, 5, 2⟩
abbrev GLB_STRAP_XB : Fld := ⟨0x20, 7, 1⟩
abbrev GLB_ALERT_SRC : Fld := ⟨0x30, 0, 16⟩
abbrev GLB_ALERT_MASK_EN : Fld := ⟨0x32, 0, 16⟩
abbrev GLB_NME_NME_CLK : Fld := ⟨0x34, 0, 1⟩
abbrev GLB_NME_NME_THERM : Fld := ⟨0x34, 1, 1⟩
abbrev CLK_EN0_LP : Fld := ⟨0x0, 0, 8⟩
abbrev CLK_EN0_HGRP : Fld := ⟨0x0, 8, 1⟩
abbrev CLK_EN0_QUIRE : Fld := ⟨0x0, 9, 1⟩
abbrev CLK_EN0_FOLIO : Fld := ⟨0x0, 10, 1⟩
abbrev CLK_EN0_SPINE : Fld := ⟨0x0, 11, 1⟩
abbrev CLK_EN0_ROLL : Fld := ⟨0x0, 12, 1⟩
abbrev CLK_EN1_H : Fld := ⟨0x1, 0, 8⟩
abbrev CLK_EN1_T : Fld := ⟨0x1, 8, 8⟩
abbrev CLK_STAT_XA_OK : Fld := ⟨0x2, 0, 1⟩
abbrev CLK_STAT_XB_OK : Fld := ⟨0x2, 1, 1⟩
abbrev CLK_STAT_FOSC_OK : Fld := ⟨0x2, 2, 1⟩
abbrev CLK_STAT_CTRL_SRC : Fld := ⟨0x2, 3, 2⟩
abbrev CLK_STAT_AON_SRC : Fld := ⟨0x2, 5, 1⟩
abbrev CLK_STAT_DATA_HALT : Fld := ⟨0x2, 6, 1⟩
abbrev CLK_LOOP_STAT_LOCK : Fld := ⟨0x3, 0, 6⟩
abbrev CLK_LOOP_STAT_READY : Fld := ⟨0x3, 8, 6⟩
abbrev CLK_LOOP_STAT_CPLL_HOLD : Fld := ⟨0x3, 14, 1⟩
abbrev CLK_LOOP_STAT_TPLL_HOLD : Fld := ⟨0x3, 15, 1⟩
abbrev CLK_MON_CTL_XA_EN : Fld := ⟨0x10, 0, 1⟩
abbrev CLK_MON_CTL_XB_EN : Fld := ⟨0x10, 1, 1⟩
abbrev CLK_MON_CTL_TOL : Fld := ⟨0x10, 2, 4⟩
abbrev CLK_MON_CTL_AUTO_RESUME : Fld := ⟨0x10, 6, 1⟩
abbrev CLK_MON_STAT_XA_FAIL : Fld := ⟨0x11, 0, 1⟩
abbrev CLK_MON_STAT_XB_FAIL : Fld := ⟨0x11, 1, 1⟩
abbrev CLK_MON_STAT_VS_XB : Fld := ⟨0x11, 2, 1⟩
abbrev CLK_MON_XA_COUNT : Fld := ⟨0x12, 0, 10⟩
abbrev CLK_MON_XB_COUNT : Fld := ⟨0x13, 0, 10⟩
abbrev CLK_MON_REF_REF : Fld := ⟨0x14, 0, 10⟩
abbrev CLK_CMD_RESUME : Fld := ⟨0x20, 0, 1⟩
abbrev CLK_EVT_NME_CLK : Fld := ⟨0x30, 0, 1⟩
abbrev CLK_EVT_XA_FAIL : Fld := ⟨0x30, 1, 1⟩
abbrev CLK_EVT_XB_FAIL : Fld := ⟨0x30, 2, 1⟩
abbrev CLK_EVT_SWITCH_FORCED : Fld := ⟨0x30, 3, 1⟩
abbrev CLK_EVT_LOOP_UNLOCK : Fld := ⟨0x30, 4, 1⟩
abbrev CLK_EVT_LEVEL_DONE : Fld := ⟨0x30, 5, 1⟩
abbrev CLK_EVT_PGOOD_FAIL : Fld := ⟨0x30, 6, 1⟩
abbrev CLK_EVT_CLR_CLR : Fld := ⟨0x31, 0, 7⟩
abbrev CLK_EVT_MASK_EN : Fld := ⟨0x32, 0, 7⟩
abbrev CLK_LEVEL_TARGET : Fld := ⟨0x40, 0, 2⟩
abbrev CLK_LEVEL_ACTUAL : Fld := ⟨0x40, 4, 2⟩
abbrev CLK_LEVEL_BUSY : Fld := ⟨0x40, 6, 1⟩
abbrev CLK_LEVEL_VHIGH : Fld := ⟨0x40, 7, 1⟩
abbrev PWR_CTL_REQ : Fld := ⟨0x0, 0, 2⟩
abbrev PWR_DELAY_DELAY : Fld := ⟨0x1, 0, 16⟩
abbrev PWR_STAT_STATE : Fld := ⟨0x2, 0, 2⟩
abbrev PWR_STAT_LAST : Fld := ⟨0x2, 2, 2⟩
abbrev PWR_WAKE_SRC_PIP : Fld := ⟨0x3, 0, 1⟩
abbrev PWR_WAKE_SRC_TWM : Fld := ⟨0x3, 1, 1⟩
abbrev PWR_WAKE_SRC_CAP : Fld := ⟨0x3, 2, 4⟩
abbrev PWR_WAKE_SRC_THR : Fld := ⟨0x3, 6, 1⟩
abbrev PWR_WAKE_SRC_SPINE : Fld := ⟨0x3, 7, 1⟩
abbrev PWR_WAKE_SRC_CAP_EDGE : Fld := ⟨0x3, 8, 4⟩
abbrev PWR_WAKE_CAUSE_SRC : Fld := ⟨0x4, 0, 4⟩
abbrev PWR_WAKE_CAUSE_INDEX : Fld := ⟨0x4, 4, 4⟩
abbrev PWR_WAKE_CAUSE_DURING_ENTRY : Fld := ⟨0x4, 8, 1⟩
abbrev PWR_WAKE_SEEN_SEEN : Fld := ⟨0x5, 1, 10⟩
abbrev PWR_WAKE_STEP_REG : Fld := ⟨0x6, 0, 1⟩
abbrev PWR_WAKE_STEP_OSC : Fld := ⟨0x6, 1, 1⟩
abbrev PWR_WAKE_STEP_MEM : Fld := ⟨0x6, 2, 1⟩
abbrev PWR_WAKE_STEP_LOGIC : Fld := ⟨0x6, 3, 1⟩
abbrev PWR_WAKE_TIME_TIME : Fld := ⟨0x7, 0, 16⟩
abbrev PWR_KEEP_KEEP : Fld := ⟨0x8, 0, 4⟩
abbrev PWR_KEEP_LOST_LOST : Fld := ⟨0x9, 0, 4⟩
abbrev PWR_KEEP_LOST_CORR : Fld := ⟨0x9, 4, 4⟩
abbrev PWR_WATCH_PERIOD : Fld := ⟨0xA, 0, 10⟩
abbrev PWR_WATCH_WIN_WINDOW : Fld := ⟨0xB, 0, 10⟩
abbrev PWR_WATCH_PAIRS_LISTEN : Fld := ⟨0xC, 0, 8⟩
abbrev PWR_WATCH_PAIRS_SENSE : Fld := ⟨0xC, 8, 1⟩
abbrev PWR_THR_SEL_SEL : Fld := ⟨0x10, 0, 4⟩
abbrev PWR_THR_LO_LOW : Fld := ⟨0x11, 0, 16⟩
abbrev PWR_THR_HI_HIGH : Fld := ⟨0x12, 0, 16⟩
abbrev PWR_PARTNER_SLEEP_EN_EN : Fld := ⟨0x14, 0, 1⟩
abbrev PWR_RUN_GATE_GATE : Fld := ⟨0x15, 0, 5⟩
abbrev PWR_ISLANDS_ON : Fld := ⟨0x16, 0, 8⟩
abbrev CAL_CTL_BG_PORT_EN : Fld := ⟨0x0, 0, 1⟩
abbrev CAL_CTL_BG_LANE_EN : Fld := ⟨0x0, 1, 1⟩
abbrev CAL_CTL_TEMP_TRIG : Fld := ⟨0x0, 2, 1⟩
abbrev CAL_BG_LIMIT_LSB : Fld := ⟨0x1, 0, 8⟩
abbrev CAL_FG_CTL_TARGET : Fld := ⟨0x10, 0, 5⟩
abbrev CAL_FG_CTL_START : Fld := ⟨0x10, 5, 1⟩
abbrev CAL_FG_CTL_SAVE : Fld := ⟨0x10, 6, 1⟩
abbrev CAL_FG_STAT_BUSY : Fld := ⟨0x11, 0, 1⟩
abbrev CAL_FG_STAT_RESULT : Fld := ⟨0x11, 1, 3⟩
abbrev CAL_FG_STAT_TARGET : Fld := ⟨0x11, 4, 5⟩
abbrev CAL_FG_STAT_SAVE_BUSY : Fld := ⟨0x11, 9, 1⟩
abbrev CAL_FG_TIME_TIME : Fld := ⟨0x12, 0, 16⟩
abbrev CAL_SCHED_PORT_VALUE : Fld := ⟨0x20, 0, 8⟩
abbrev CAL_SCHED_LANE_VALUE : Fld := ⟨0x21, 0, 16⟩
abbrev CAL_SCHED_INT_VALUE : Fld := ⟨0x22, 0, 16⟩
abbrev CAL_TEMP_DELTA : Fld := ⟨0x23, 0, 8⟩
abbrev CAL_NVM_STAT_OTP_FALLBACK : Fld := ⟨0x30, 0, 1⟩
abbrev CAL_NVM_STAT_MTP_FALLBACK : Fld := ⟨0x30, 1, 1⟩
abbrev CAL_NVM_SEL_SPACE : Fld := ⟨0x31, 0, 1⟩
abbrev CAL_NVM_SEL_RECORD : Fld := ⟨0x31, 1, 8⟩
abbrev CAL_NVM_REC_SOURCE : Fld := ⟨0x32, 0, 2⟩
abbrev CAL_NVM_REC_CHECK_OK : Fld := ⟨0x32, 2, 1⟩
abbrev CAL_NVM_WR_COUNT : Fld := ⟨0x33, 0, 16⟩
abbrev CAL_EVT_FG_DONE : Fld := ⟨0x40, 0, 1⟩
abbrev CAL_EVT_FG_REFUSED : Fld := ⟨0x40, 1, 1⟩
abbrev CAL_EVT_BG_LIMIT : Fld := ⟨0x40, 2, 1⟩
abbrev CAL_EVT_NVM_FAIL : Fld := ⟨0x40, 3, 1⟩
abbrev CAL_EVT_NVM_FALLBACK : Fld := ⟨0x40, 4, 1⟩
abbrev CAL_EVT_MASK_FG_DONE : Fld := ⟨0x41, 0, 1⟩
abbrev CAL_EVT_MASK_FG_REFUSED : Fld := ⟨0x41, 1, 1⟩
abbrev CAL_EVT_MASK_BG_LIMIT : Fld := ⟨0x41, 2, 1⟩
abbrev CAL_EVT_MASK_NVM_FAIL : Fld := ⟨0x41, 3, 1⟩
abbrev CAL_EVT_MASK_NVM_FALLBACK : Fld := ⟨0x41, 4, 1⟩
abbrev CAL_BG_DUE_P_DUE : Fld := ⟨0x43, 0, 8⟩
abbrev CAL_BG_DUE_L_DUE : Fld := ⟨0x44, 0, 16⟩
abbrev AGE_CTL_HORIZON : Fld := ⟨0x0, 0, 16⟩
abbrev AGE_LANE_LIM_LIM : Fld := ⟨0x1, 0, 8⟩
abbrev AGE_POLICY_VGUARD : Fld := ⟨0x2, 0, 1⟩
abbrev AGE_POLICY_OCT : Fld := ⟨0x2, 1, 1⟩
abbrev AGE_POLICY_LANE : Fld := ⟨0x2, 2, 1⟩
abbrev AGE_POLICY_APPROVE : Fld := ⟨0x2, 3, 1⟩
abbrev AGE_POLICY_NOTICE : Fld := ⟨0x2, 4, 10⟩
abbrev AGE_STAT_ENTRIES : Fld := ⟨0x3, 0, 8⟩
abbrev AGE_STAT_GUARD : Fld := ⟨0x3, 8, 3⟩
abbrev AGE_STAT_PENDING : Fld := ⟨0x3, 11, 3⟩
abbrev AGE_STAT_RATE_EST : Fld := ⟨0x3, 14, 1⟩
abbrev AGE_HOURS_HOURS : Fld := ⟨0x4, 0, 16⟩
abbrev AGE_L2H_HOURS : Fld := ⟨0x6, 0, 16⟩
abbrev AGE_SEL_TARGET : Fld := ⟨0x10, 0, 5⟩
abbrev AGE_YTL_VALUE : Fld := ⟨0x11, 0, 16⟩
abbrev AGE_TREND_VALUE : Fld := ⟨0x12, 0, 16⟩
abbrev AGE_NOW_VALUE : Fld := ⟨0x13, 0, 16⟩
abbrev AGE_PROP_SEL_SLOT : Fld := ⟨0x20, 0, 2⟩
abbrev AGE_PROP_VALUE : Fld := ⟨0x21, 0, 16⟩
abbrev AGE_PROP_DUE_VALUE : Fld := ⟨0x23, 0, 16⟩
abbrev AGE_PROP_ANS_APPROVE : Fld := ⟨0x24, 0, 1⟩
abbrev AGE_PROP_ANS_VETO : Fld := ⟨0x24, 1, 1⟩
abbrev AGE_EVT_ENTRY : Fld := ⟨0x30, 0, 1⟩
abbrev AGE_EVT_PROPOSED : Fld := ⟨0x30, 1, 1⟩
abbrev AGE_EVT_TAKEN : Fld := ⟨0x30, 2, 1⟩
abbrev AGE_EVT_VETOED : Fld := ⟨0x30, 3, 1⟩
abbrev AGE_EVT_FAILED : Fld := ⟨0x30, 4, 1⟩
abbrev AGE_EVT_GUARD_FAIL : Fld := ⟨0x30, 5, 1⟩
abbrev AGE_EVT_MASK_ENTRY : Fld := ⟨0x31, 0, 1⟩
abbrev AGE_EVT_MASK_PROPOSED : Fld := ⟨0x31, 1, 1⟩
abbrev AGE_EVT_MASK_TAKEN : Fld := ⟨0x31, 2, 1⟩
abbrev AGE_EVT_MASK_VETOED : Fld := ⟨0x31, 3, 1⟩
abbrev AGE_EVT_MASK_FAILED : Fld := ⟨0x31, 4, 1⟩
abbrev AGE_EVT_MASK_GUARD_FAIL : Fld := ⟨0x31, 5, 1⟩
abbrev BIST_CTL_TARGET : Fld := ⟨0x0, 0, 6⟩
abbrev BIST_CTL_FORCE : Fld := ⟨0x0, 6, 1⟩
abbrev BIST_CTL_START : Fld := ⟨0x0, 7, 1⟩
abbrev BIST_STAT_BUSY : Fld := ⟨0x1, 0, 1⟩
abbrev BIST_STAT_RESULT : Fld := ⟨0x1, 1, 3⟩
abbrev BIST_STAT_TARGET : Fld := ⟨0x1, 4, 6⟩
abbrev BIST_STAT_PHASE : Fld := ⟨0x1, 10, 3⟩
abbrev BIST_RES_RESULT : Fld := ⟨0x2, 0, 2⟩
abbrev BIST_RES_ROWS : Fld := ⟨0x2, 2, 4⟩
abbrev BIST_RES_COLS : Fld := ⟨0x2, 6, 2⟩
abbrev BIST_RES_UNUSABLE : Fld := ⟨0x2, 8, 1⟩
abbrev BIST_ADDR_VALUE : Fld := ⟨0x3, 0, 16⟩
abbrev BIST_BIT_VALUE : Fld := ⟨0x5, 0, 16⟩
abbrev BIST_COUNT_VALUE : Fld := ⟨0x6, 0, 16⟩
abbrev BIST_EXP_VALUE : Fld := ⟨0x8, 0, 16⟩
abbrev BIST_SIG_VALUE : Fld := ⟨0xA, 0, 16⟩
abbrev BIST_UNUSABLE_MAP : Fld := ⟨0x10, 0, 16⟩
abbrev BIST_MAN_BANK : Fld := ⟨0x18, 0, 5⟩
abbrev BIST_MAN_ROW : Fld := ⟨0x18, 5, 10⟩
abbrev BIST_MAN_VALID : Fld := ⟨0x18, 15, 1⟩
abbrev BIST_EVT_DONE : Fld := ⟨0x20, 0, 1⟩
abbrev BIST_EVT_FAIL : Fld := ⟨0x20, 1, 1⟩
abbrev BIST_EVT_K0_FAIL : Fld := ⟨0x20, 2, 1⟩
abbrev BIST_EVT_MAN_DROP : Fld := ⟨0x20, 3, 1⟩
abbrev BIST_EVT_MASK_DONE : Fld := ⟨0x21, 0, 1⟩
abbrev BIST_EVT_MASK_FAIL : Fld := ⟨0x21, 1, 1⟩
abbrev BIST_EVT_MASK_K0_FAIL : Fld := ⟨0x21, 2, 1⟩
abbrev BIST_EVT_MASK_MAN_DROP : Fld := ⟨0x21, 3, 1⟩
abbrev TAP_ID_VALUE : Fld := ⟨0x0, 0, 16⟩
abbrev TAP_STAT_INSTR : Fld := ⟨0x2, 0, 8⟩
abbrev TAP_STAT_CORE_OFF : Fld := ⟨0x2, 8, 1⟩
abbrev TAP_STAT_TLR : Fld := ⟨0x2, 9, 1⟩
abbrev SNS_TEMP_TEMP : Fld := ⟨0x0, 0, 16⟩
abbrev SNS_RAIL_MV : Fld := ⟨0x8, 0, 16⟩
abbrev SNS_TEMP_HI_HI : Fld := ⟨0x10, 0, 16⟩
abbrev SNS_STAT_TEMP_HI : Fld := ⟨0x11, 0, 8⟩
abbrev SNS_STAT_RAIL_OUT : Fld := ⟨0x11, 8, 6⟩
abbrev SNS_STAT_THERM : Fld := ⟨0x11, 14, 1⟩
abbrev SNS_EVT_TEMP_HI : Fld := ⟨0x12, 0, 1⟩
abbrev SNS_EVT_RAIL_OUT : Fld := ⟨0x12, 1, 1⟩
abbrev SNS_EVT_NME_THERM : Fld := ⟨0x12, 2, 1⟩
abbrev SNS_EVT_CLR_CLR : Fld := ⟨0x13, 0, 3⟩
abbrev SNS_EVT_MASK_EN : Fld := ⟨0x14, 0, 3⟩
abbrev MBN_CMD_ID : Fld := ⟨0x0, 0, 16⟩
abbrev MBN_REQ_TAG : Fld := ⟨0x1, 0, 8⟩
abbrev MBN_REQ_NPARAM : Fld := ⟨0x1, 8, 6⟩
abbrev MBN_CTL_DOORBELL : Fld := ⟨0x2, 0, 1⟩
abbrev MBN_STAT_STATE : Fld := ⟨0x3, 0, 2⟩
abbrev MBN_STAT_DUPLICATE : Fld := ⟨0x3, 2, 1⟩
abbrev MBN_STAT_PENDING : Fld := ⟨0x3, 3, 1⟩
abbrev MBN_STAT_RESULT : Fld := ⟨0x3, 8, 8⟩
abbrev MBN_RTAG_RTAG : Fld := ⟨0x4, 0, 8⟩
abbrev MBN_RTAG_NRESULT : Fld := ⟨0x4, 8, 6⟩
abbrev MBN_RCMD_ID : Fld := ⟨0x5, 0, 16⟩
abbrev MBN_PARAM_DATA : Fld := ⟨0x40, 0, 16⟩
abbrev MBN_RES_DATA : Fld := ⟨0x80, 0, 16⟩
abbrev MBX_EVT_DONE : Fld := ⟨0x400, 0, 4⟩
abbrev MBX_EVT_JOB_DONE : Fld := ⟨0x400, 4, 1⟩
abbrev MBX_EVT_WDOG : Fld := ⟨0x400, 5, 1⟩
abbrev MBX_EVT_TAG_REUSE : Fld := ⟨0x400, 6, 1⟩
abbrev MBX_EVT_MASK_EN : Fld := ⟨0x401, 0, 7⟩
abbrev MBX_WDOG_CNT : Fld := ⟨0x402, 0, 8⟩
abbrev MBX_JOB_SEL_SLOT : Fld := ⟨0x410, 0, 3⟩
abbrev MBX_JOB_STAT_STATE : Fld := ⟨0x411, 0, 2⟩
abbrev MBX_JOB_STAT_MAILBOX : Fld := ⟨0x411, 2, 2⟩
abbrev MBX_JOB_STAT_RESULT : Fld := ⟨0x411, 8, 8⟩
abbrev MBX_JOB_CMD_ID : Fld := ⟨0x412, 0, 16⟩
abbrev MBX_JOB_CTL_TAG : Fld := ⟨0x413, 0, 8⟩
abbrev MBX_JOB_CTL_RELEASE : Fld := ⟨0x413, 8, 1⟩
abbrev MBX_JOB_RES_DATA : Fld := ⟨0x440, 0, 16⟩
abbrev PMC_CTL_EN : Fld := ⟨0x0, 0, 8⟩
abbrev PMC_CTL_CHAIN : Fld := ⟨0x0, 8, 4⟩
abbrev PMC_CTL_CYC_CLR : Fld := ⟨0x0, 12, 1⟩
abbrev PMC_IRQ_IRQ_EN : Fld := ⟨0x1, 0, 8⟩
abbrev PMC_IRQ_RELOAD : Fld := ⟨0x1, 8, 8⟩
abbrev PMC_OVF_OVF : Fld := ⟨0x2, 0, 8⟩
abbrev PMC_CYC_CYC : Fld := ⟨0x4, 0, 16⟩
abbrev PMC_CNT_COUNT : Fld := ⟨0x10, 0, 16⟩
abbrev PMC_SEL_EVENT : Fld := ⟨0x20, 0, 5⟩
abbrev PMC_THR_THR : Fld := ⟨0x28, 0, 16⟩
abbrev PMC_SAMPLE_SAMPLE : Fld := ⟨0x30, 0, 16⟩
abbrev PMC_SAMPLE_SRC_CTR : Fld := ⟨0x32, 0, 3⟩
abbrev PMC_SAMPLE_SRC_VALID : Fld := ⟨0x32, 15, 1⟩
abbrev QUIRE_CTL_SCRUB_EN : Fld := ⟨0x0, 0, 1⟩
abbrev QUIRE_CTL_FLUSH_ON_DOWN : Fld := ⟨0x0, 1, 1⟩
abbrev QUIRE_CTL_SRST : Fld := ⟨0x0, 2, 1⟩
abbrev QUIRE_STAT_BANKS : Fld := ⟨0x1, 0, 6⟩
abbrev QUIRE_STAT_CFG_ERR : Fld := ⟨0x1, 6, 1⟩
abbrev QUIRE_STAT_REBUILD : Fld := ⟨0x1, 7, 1⟩
abbrev QUIRE_BANK_OK_OK : Fld := ⟨0x2, 0, 16⟩
abbrev QUIRE_POOL_XOFF_XOFF : Fld := ⟨0x10, 0, 12⟩
abbrev QUIRE_POOL_XON_XON : Fld := ⟨0x11, 0, 12⟩
abbrev QUIRE_POOL_FREE_FREE : Fld := ⟨0x12, 0, 16⟩
abbrev QUIRE_POOL_SIZE_SIZE : Fld := ⟨0x14, 0, 16⟩
abbrev QUIRE_Q_SEL_CLASS : Fld := ⟨0x20, 0, 3⟩
abbrev QUIRE_Q_SEL_PORT : Fld := ⟨0x20, 3, 3⟩
abbrev QUIRE_Q_SEL_DIR : Fld := ⟨0x20, 6, 1⟩
abbrev QUIRE_Q_RSV_RSV : Fld := ⟨0x21, 0, 10⟩
abbrev QUIRE_Q_HOLD_HOLD : Fld := ⟨0x22, 0, 12⟩
abbrev QUIRE_Q_HOLD_HYST : Fld := ⟨0x22, 12, 4⟩
abbrev QUIRE_Q_DROP_DROP : Fld := ⟨0x23, 0, 12⟩
abbrev QUIRE_Q_OCC_OCC : Fld := ⟨0x24, 0, 16⟩
abbrev QUIRE_Q_STAT_HELD : Fld := ⟨0x26, 0, 1⟩
abbrev QUIRE_Q_STAT_SPILLING : Fld := ⟨0x26, 1, 1⟩
abbrev QUIRE_Q_STAT_SPILLED : Fld := ⟨0x26, 2, 1⟩
abbrev QUIRE_P_HDRM_HDRM : Fld := ⟨0x28, 0, 12⟩
abbrev QUIRE_P_HDRM_USE_USE : Fld := ⟨0x29, 0, 12⟩
abbrev QUIRE_P_WT_WT : Fld := ⟨0x2A, 0, 4⟩
abbrev QUIRE_CRD_CTL_STEP : Fld := ⟨0x30, 0, 8⟩
abbrev QUIRE_CRD_CTL_REFRESH : Fld := ⟨0x30, 8, 8⟩
abbrev QUIRE_CRD_LIM_LIMIT : Fld := ⟨0x31, 0, 16⟩
abbrev QUIRE_CRD_CNT_COUNT : Fld := ⟨0x33, 0, 16⟩
abbrev QUIRE_SPILL_CTL_EN : Fld := ⟨0x40, 0, 1⟩
abbrev QUIRE_SPILL_CTL_FACE : Fld := ⟨0x40, 1, 1⟩
abbrev QUIRE_SPILL_ON_VALUE : Fld := ⟨0x41, 0, 12⟩
abbrev QUIRE_SPILL_OFF_VALUE : Fld := ⟨0x42, 0, 12⟩
abbrev QUIRE_SPILL_LEND_VALUE : Fld := ⟨0x43, 0, 12⟩
abbrev QUIRE_SPILL_STAT_ACTIVE : Fld := ⟨0x44, 0, 1⟩
abbrev QUIRE_SPILL_STAT_RECALL : Fld := ⟨0x44, 1, 1⟩
abbrev QUIRE_SPILL_STAT_PEER_LEND : Fld := ⟨0x44, 2, 1⟩
abbrev QUIRE_ECC_ADDR_ADDR : Fld := ⟨0x50, 0, 16⟩
abbrev QUIRE_ECC_KIND_STORE : Fld := ⟨0x52, 0, 2⟩
abbrev QUIRE_ECC_KIND_SOURCE : Fld := ⟨0x52, 2, 1⟩
abbrev QUIRE_EVT_UNC : Fld := ⟨0x60, 0, 1⟩
abbrev QUIRE_EVT_HDRM_OVF : Fld := ⟨0x60, 1, 1⟩
abbrev QUIRE_EVT_POOL_XOFF : Fld := ⟨0x60, 2, 1⟩
abbrev QUIRE_EVT_SPILL_LOST : Fld := ⟨0x60, 3, 1⟩
abbrev QUIRE_EVT_REBUILD_DONE : Fld := ⟨0x60, 4, 1⟩
abbrev QUIRE_EVT_CRD_VIOL : Fld := ⟨0x60, 5, 1⟩
abbrev QUIRE_EVT_CFG_ERR : Fld := ⟨0x60, 6, 1⟩
abbrev QUIRE_EVT_MASK_EN : Fld := ⟨0x61, 0, 7⟩
abbrev FOLIO_CTL_SRC : Fld := ⟨0x0, 0, 3⟩
abbrev FOLIO_CTL_SRC_IDX : Fld := ⟨0x0, 3, 3⟩
abbrev FOLIO_CTL_TC : Fld := ⟨0x0, 6, 1⟩
abbrev FOLIO_CTL_FREQ_ASSIST : Fld := ⟨0x0, 7, 1⟩
abbrev FOLIO_CTL_BEACON_EN : Fld := ⟨0x0, 8, 1⟩
abbrev FOLIO_CTL_FORCE_HOLD : Fld := ⟨0x0, 9, 1⟩
abbrev FOLIO_CMD_SET : Fld := ⟨0x1, 0, 1⟩
abbrev FOLIO_CMD_ADD : Fld := ⟨0x1, 1, 1⟩
abbrev FOLIO_CMD_FINE : Fld := ⟨0x1, 2, 1⟩
abbrev FOLIO_CMD_SRST : Fld := ⟨0x1, 3, 1⟩
abbrev FOLIO_STAT_STATE : Fld := ⟨0x2, 0, 3⟩
abbrev FOLIO_STAT_COARSE : Fld := ⟨0x2, 3, 1⟩
abbrev FOLIO_STAT_XB_LOST : Fld := ⟨0x2, 4, 1⟩
abbrev FOLIO_STAT_SRC_OK : Fld := ⟨0x2, 5, 1⟩
abbrev FOLIO_TIME_TIME : Fld := ⟨0x10, 0, 16⟩
abbrev FOLIO_SET_VALUE : Fld := ⟨0x18, 0, 16⟩
abbrev FOLIO_ADD_VALUE : Fld := ⟨0x20, 0, 16⟩
abbrev FOLIO_RATE_RATE : Fld := ⟨0x28, 0, 16⟩
abbrev FOLIO_SERVO_CTL_FREEZE : Fld := ⟨0x30, 0, 1⟩
abbrev FOLIO_SERVO_CTL_BW : Fld := ⟨0x30, 1, 3⟩
abbrev FOLIO_SERVO_CTL_STEP_EN : Fld := ⟨0x30, 4, 1⟩
abbrev FOLIO_SERVO_CTL_LOCK_THR : Fld := ⟨0x30, 8, 8⟩
abbrev FOLIO_OFFSET_OFFSET : Fld := ⟨0x32, 0, 16⟩
abbrev FOLIO_HOLD_CTL_AVG : Fld := ⟨0x38, 0, 8⟩
abbrev FOLIO_HOLD_CTL_SYNC_TIMEOUT : Fld := ⟨0x38, 8, 4⟩
abbrev FOLIO_FINE_TIME : Fld := ⟨0x40, 0, 16⟩
abbrev FOLIO_PTP_CTL_DOMAIN : Fld := ⟨0x48, 0, 8⟩
abbrev FOLIO_PTP_CTL_PROFILE : Fld := ⟨0x48, 8, 1⟩
abbrev FOLIO_ANN_PRIORITY1 : Fld := ⟨0x49, 0, 8⟩
abbrev FOLIO_ANN_CLOCK_CLASS : Fld := ⟨0x49, 8, 8⟩
abbrev FOLIO_HP_CTL_EN : Fld := ⟨0x50, 0, 8⟩
abbrev FOLIO_HP_CTL_LOG_SYNC : Fld := ⟨0x50, 8, 4⟩
abbrev FOLIO_HP_CTL_LOG_PDELAY : Fld := ⟨0x50, 12, 4⟩
abbrev FOLIO_EVT_LOCKED : Fld := ⟨0x60, 0, 1⟩
abbrev FOLIO_EVT_HOLDOVER : Fld := ⟨0x60, 1, 1⟩
abbrev FOLIO_EVT_FINE : Fld := ⟨0x60, 2, 1⟩
abbrev FOLIO_EVT_STEP : Fld := ⟨0x60, 3, 1⟩
abbrev FOLIO_EVT_RATE_LIMIT : Fld := ⟨0x60, 4, 1⟩
abbrev FOLIO_EVT_CAP_OVF : Fld := ⟨0x60, 5, 1⟩
abbrev FOLIO_EVT_OUT_LATE : Fld := ⟨0x60, 6, 1⟩
abbrev FOLIO_EVT_UNSET : Fld := ⟨0x60, 7, 1⟩
abbrev FOLIO_EVT_MASK_EN : Fld := ⟨0x61, 0, 8⟩
abbrev FOLIO_CAP_CTL_EDGE : Fld := ⟨0x70, 0, 8⟩
abbrev FOLIO_CAP_STAT_SEL : Fld := ⟨0x72, 0, 2⟩
abbrev FOLIO_CAP_STAT_LEVEL : Fld := ⟨0x72, 2, 4⟩
abbrev FOLIO_CAP_STAT_EDGE : Fld := ⟨0x72, 6, 1⟩
abbrev FOLIO_CAP_STAT_OVF : Fld := ⟨0x72, 7, 1⟩
abbrev FOLIO_CAP_TIME_TIME : Fld := ⟨0x74, 0, 16⟩
abbrev FOLIO_OUT_CTL_SEL : Fld := ⟨0x81, 0, 2⟩
abbrev FOLIO_OUT_CTL_PERIODIC : Fld := ⟨0x81, 2, 1⟩
abbrev FOLIO_OUT_CTL_POL : Fld := ⟨0x81, 3, 1⟩
abbrev FOLIO_OUT_CTL_ARM : Fld := ⟨0x81, 4, 1⟩
abbrev FOLIO_OUT_CTL_STOP : Fld := ⟨0x81, 5, 1⟩
abbrev FOLIO_OUT_CTL_ACTIVE : Fld := ⟨0x81, 6, 1⟩
abbrev FOLIO_OUT_START_TIME : Fld := ⟨0x82, 0, 16⟩
abbrev FOLIO_OUT_PER_PERIOD : Fld := ⟨0x88, 0, 16⟩
abbrev FOLIO_OUT_WIDTH_WIDTH : Fld := ⟨0x8B, 0, 16⟩
abbrev SPINE_CTL_NORTH_EN : Fld := ⟨0x0, 0, 1⟩
abbrev SPINE_CTL_SOUTH_EN : Fld := ⟨0x0, 1, 1⟩
abbrev SPINE_CTL_STACK_PROMOTE : Fld := ⟨0x0, 2, 1⟩
abbrev SPINE_CTL_ALERT_FWD : Fld := ⟨0x0, 3, 1⟩
abbrev SPINE_CTL_SRST : Fld := ⟨0x0, 4, 1⟩
abbrev SPINE_CMD_STACK_RST : Fld := ⟨0x1, 0, 1⟩
abbrev SPINE_CMD_RST_KIND : Fld := ⟨0x1, 1, 2⟩
abbrev SPINE_CMD_RST_DEST : Fld := ⟨0x1, 3, 2⟩
abbrev SPINE_CMD_DEMOTE : Fld := ⟨0x1, 5, 1⟩
abbrev SPINE_CMD_WAKE_SOUTH : Fld := ⟨0x1, 6, 1⟩
abbrev SPINE_STAT_POS : Fld := ⟨0x2, 0, 2⟩
abbrev SPINE_STAT_ROLE : Fld := ⟨0x2, 2, 2⟩
abbrev SPINE_STAT_STACK_SIZE : Fld := ⟨0x2, 4, 3⟩
abbrev SPINE_STAT_UP_COARSE : Fld := ⟨0x2, 7, 1⟩
abbrev SPINE_STAT_UP_HOLD : Fld := ⟨0x2, 8, 1⟩
abbrev SPINE_TAIL_ALERT_ALERT : Fld := ⟨0x3, 1, 3⟩
abbrev SPF_CTL_RETRAIN : Fld := ⟨0x0, 0, 1⟩
abbrev SPF_CTL_FALLBACK_EN : Fld := ⟨0x0, 1, 1⟩
abbrev SPF_STAT_STATE : Fld := ⟨0x1, 0, 3⟩
abbrev SPF_STAT_CLK_OK : Fld := ⟨0x1, 3, 1⟩
abbrev SPF_STAT_TX_LANES : Fld := ⟨0x1, 4, 2⟩
abbrev SPF_STAT_RX_LANES : Fld := ⟨0x1, 6, 2⟩
abbrev SPF_STAT_PEER_POS : Fld := ⟨0x1, 8, 2⟩
abbrev SPF_STAT_PEER_ACTING : Fld := ⟨0x1, 10, 1⟩
abbrev SPF_STAT_DLY_VALID : Fld := ⟨0x1, 11, 1⟩
abbrev SPF_DLY_D : Fld := ⟨0x2, 0, 16⟩
abbrev SPF_EVT_UP : Fld := ⟨0x10, 0, 1⟩
abbrev SPF_EVT_CLK_LOST : Fld := ⟨0x10, 1, 1⟩
abbrev SPF_EVT_MARK_LOSS : Fld := ⟨0x10, 2, 1⟩
abbrev SPF_EVT_FALLBACK : Fld := ⟨0x10, 3, 1⟩
abbrev SPF_EVT_POS_ERR : Fld := ⟨0x10, 4, 1⟩
abbrev SPF_EVT_DLY_RANGE : Fld := ⟨0x10, 5, 1⟩
abbrev SPF_EVT_MSG_FAIL : Fld := ⟨0x10, 6, 1⟩
abbrev SPF_EVT_PROMOTE : Fld := ⟨0x10, 7, 1⟩
abbrev SPF_EVT_MASK_EN : Fld := ⟨0x11, 0, 8⟩
abbrev ROLL_SEL_ENGINE : Fld := ⟨0x0, 0, 5⟩
abbrev ROLL_CTL_EN : Fld := ⟨0x1, 0, 1⟩
abbrev ROLL_CTL_OP : Fld := ⟨0x1, 1, 4⟩
abbrev ROLL_CTL_MODE : Fld := ⟨0x1, 5, 1⟩
abbrev ROLL_CTL_DIR : Fld := ⟨0x1, 6, 1⟩
abbrev ROLL_CTL_FCS_FIX : Fld := ⟨0x1, 7, 1⟩
abbrev ROLL_CLASS_MASK : Fld := ⟨0x2, 0, 8⟩
abbrev ROLL_PARAM_PARAM : Fld := ⟨0x3, 0, 10⟩
abbrev ROLL_N_LO_VALUE : Fld := ⟨0x4, 0, 16⟩
abbrev ROLL_N_HI_VALUE : Fld := ⟨0x5, 0, 16⟩
abbrev ROLL_SEED_LO_VALUE : Fld := ⟨0x6, 0, 16⟩
abbrev ROLL_SEED_HI_VALUE : Fld := ⟨0x7, 0, 16⟩
abbrev ROLL_STAT_ACTIVE : Fld := ⟨0x8, 0, 1⟩
abbrev ROLL_STAT_HELD : Fld := ⟨0x8, 1, 3⟩
abbrev ROLL_HITS_COUNT : Fld := ⟨0x10, 0, 16⟩
abbrev ROLL_SKIP_COUNT : Fld := ⟨0x14, 0, 16⟩
abbrev ROLL_ACTIVE_VALUE : Fld := ⟨0x20, 0, 16⟩
abbrev ROLL_CMD_STOP_ALL : Fld := ⟨0x22, 0, 1⟩
abbrev REG_POSTED_CLK : Fld := ⟨0x0, 0, 1⟩
abbrev REG_POSTED_PWR : Fld := ⟨0x0, 1, 1⟩
abbrev REG_POSTED_SNS : Fld := ⟨0x0, 2, 1⟩
abbrev REG_ERRLOG_CAUSE_CAUSE : Fld := ⟨0x10, 0, 3⟩
abbrev REG_ERRLOG_CAUSE_SOURCE : Fld := ⟨0x10, 3, 3⟩
abbrev REG_ERRLOG_CAUSE_WRITE : Fld := ⟨0x10, 6, 1⟩
abbrev REG_ERRLOG_CAUSE_VALID : Fld := ⟨0x10, 15, 1⟩
abbrev REG_ERRLOG_ADDR_ADDR : Fld := ⟨0x11, 0, 16⟩
abbrev REG_ERRLOG_CNT_CNT : Fld := ⟨0x13, 0, 16⟩
abbrev REG_OBSERVE_EN_COUNTERS : Fld := ⟨0x20, 0, 1⟩
abbrev REG_OBSERVE_EN_STATUS : Fld := ⟨0x20, 1, 1⟩
abbrev REG_OBSERVE_EN_EVENTS : Fld := ⟨0x20, 2, 1⟩
abbrev REG_OBSERVE_EN_PERF : Fld := ⟨0x20, 3, 1⟩
abbrev REG_OBSERVE_EN_TIME : Fld := ⟨0x20, 4, 1⟩
abbrev REG_LOCK_OBSERVE : Fld := ⟨0x30, 0, 1⟩
abbrev REG_LOCK_MODE : Fld := ⟨0x30, 1, 1⟩
abbrev REG_LOCK_TIME : Fld := ⟨0x30, 2, 1⟩
abbrev REG_LOCK_STACK : Fld := ⟨0x30, 3, 1⟩
abbrev REG_LOCK_CAL : Fld := ⟨0x30, 4, 1⟩
abbrev REG_LOCK_ROLL : Fld := ⟨0x30, 5, 1⟩
abbrev REG_LOCK_BIST : Fld := ⟨0x30, 6, 1⟩
abbrev REG_SPI_CTL_GAP : Fld := ⟨0x40, 0, 5⟩
abbrev PMA_CTL_ENABLE : Fld := ⟨0x0, 0, 1⟩
abbrev PMA_CTL_SRST : Fld := ⟨0x0, 1, 1⟩
abbrev PMA_CTL_LPBK : Fld := ⟨0x0, 2, 2⟩
abbrev PMA_CTL_PRECODE : Fld := ⟨0x0, 4, 2⟩
abbrev PMA_STAT_SIGNAL_DET : Fld := ⟨0x1, 0, 1⟩
abbrev PMA_STAT_LPLL_LOCK : Fld := ⟨0x1, 1, 1⟩
abbrev PMA_STAT_TX_ON : Fld := ⟨0x1, 2, 1⟩
abbrev PMA_STAT_PIP_ONLY : Fld := ⟨0x1, 3, 1⟩
abbrev PMA_STAT_ADC_CAL_VALID : Fld := ⟨0x1, 4, 1⟩
abbrev AFE_CTL_TX_ATTEN : Fld := ⟨0x2, 0, 4⟩
abbrev AFE_HYB_HYB_TRIM : Fld := ⟨0x3, 0, 8⟩
abbrev ADC_TRIM_SEL_SUBADC : Fld := ⟨0x4, 0, 6⟩
abbrev ADC_TRIM_SEL_KIND : Fld := ⟨0x4, 6, 2⟩
abbrev ADC_TRIM_DATA_VALUE : Fld := ⟨0x5, 0, 12⟩
abbrev DSP_CTL_FREEZE_AGC : Fld := ⟨0x200, 0, 1⟩
abbrev DSP_CTL_FREEZE_CTLE : Fld := ⟨0x200, 1, 1⟩
abbrev DSP_CTL_FREEZE_FFE : Fld := ⟨0x200, 2, 1⟩
abbrev DSP_CTL_FREEZE_DFE : Fld := ⟨0x200, 3, 1⟩
abbrev DSP_CTL_FREEZE_EC : Fld := ⟨0x200, 4, 1⟩
abbrev DSP_CTL_FREEZE_CAL : Fld := ⟨0x200, 5, 1⟩
abbrev DSP_CTL_REFRESH_EN : Fld := ⟨0x200, 8, 1⟩
abbrev DSP_CTL_REFRESH_REQ : Fld := ⟨0x200, 9, 1⟩
abbrev DSP_TAP_SEL_INDEX : Fld := ⟨0x201, 0, 12⟩
abbrev DSP_TAP_SEL_GROUP : Fld := ⟨0x201, 12, 3⟩
abbrev DSP_TAP_SEL_AUTOINC : Fld := ⟨0x201, 15, 1⟩
abbrev DSP_TAP_DATA_VALUE : Fld := ⟨0x202, 0, 16⟩
abbrev DSP_TAP_CTR_CENTRE : Fld := ⟨0x203, 0, 16⟩
abbrev DSP_DRIFT_FFE_LIMIT : Fld := ⟨0x204, 0, 10⟩
abbrev DSP_DRIFT_DFE_LIMIT : Fld := ⟨0x205, 0, 10⟩
abbrev DSP_DRIFT_EC_LIMIT : Fld := ⟨0x206, 0, 11⟩
abbrev DSP_DRIFT_AGC_AGC : Fld := ⟨0x207, 0, 6⟩
abbrev DSP_DRIFT_AGC_CTLE : Fld := ⟨0x207, 8, 6⟩
abbrev DSP_STAT_REFRESH_ACTIVE : Fld := ⟨0x208, 0, 1⟩
abbrev DSP_STAT_DRIFT_FROZEN : Fld := ⟨0x208, 1, 1⟩
abbrev DSP_STAT_SNAP_VALID : Fld := ⟨0x208, 2, 1⟩
abbrev DSP_STAT_DRIFT_GROUP : Fld := ⟨0x208, 4, 3⟩
abbrev DSP_STAT_REFRESH_FAILS : Fld := ⟨0x208, 8, 2⟩
abbrev DSP_SNR_SNR : Fld := ⟨0x209, 0, 10⟩
abbrev PCS_STAT_BLOCK_LOCK : Fld := ⟨0x400, 0, 1⟩
abbrev PCS_STAT_HI_RFER : Fld := ⟨0x400, 1, 1⟩
abbrev PCS_STAT_LINK_STATUS : Fld := ⟨0x400, 2, 1⟩
abbrev PCS_STAT_FEC_ALIGN : Fld := ⟨0x400, 3, 1⟩
abbrev PCS_STAT_RX_LPI : Fld := ⟨0x400, 4, 1⟩
abbrev PCS_STAT_TX_LPI : Fld := ⟨0x400, 5, 1⟩
abbrev MAC_MAXLEN_MAXLEN : Fld := ⟨0x402, 0, 14⟩
abbrev PFC_CTL_TX_EN : Fld := ⟨0x410, 0, 8⟩
abbrev PFC_CTL_RX_EN : Fld := ⟨0x410, 8, 8⟩
abbrev PFC_TIME_QUANTA : Fld := ⟨0x411, 0, 16⟩
abbrev PFC_REFRESH_PERIOD : Fld := ⟨0x412, 0, 12⟩
abbrev PFC_STAT_RX_PAUSED : Fld := ⟨0x413, 0, 8⟩
abbrev PFC_STAT_TX_HOLD : Fld := ⟨0x413, 8, 8⟩
abbrev PFC_SA_ADDR : Fld := ⟨0x414, 0, 16⟩
abbrev LINK_CTL_MODE_SEL : Fld := ⟨0x600, 0, 4⟩
abbrev LINK_CTL_FAST_RELINK_EN : Fld := ⟨0x600, 4, 1⟩
abbrev LINK_CTL_PIP_PRE_EN : Fld := ⟨0x600, 5, 1⟩
abbrev LINK_CTL_RELINK_EN : Fld := ⟨0x600, 6, 1⟩
abbrev LINK_CTL_RESTART : Fld := ⟨0x600, 7, 1⟩
abbrev LINK_CTL_RELINK_MAX : Fld := ⟨0x600, 8, 4⟩
abbrev AN_ADV_ADV_2G5 : Fld := ⟨0x601, 0, 1⟩
abbrev AN_ADV_ADV_5G : Fld := ⟨0x601, 1, 1⟩
abbrev AN_ADV_ADV_10G : Fld := ⟨0x601, 2, 1⟩
abbrev AN_ADV_ADV_25G : Fld := ⟨0x601, 3, 1⟩
abbrev AN_ADV_ADV_OCTAVO : Fld := ⟨0x601, 4, 1⟩
abbrev AN_ADV_ADV_EEE : Fld := ⟨0x601, 8, 4⟩
abbrev AN_ADV_MS_FORCE : Fld := ⟨0x601, 12, 1⟩
abbrev AN_ADV_MS_MASTER : Fld := ⟨0x601, 13, 1⟩
abbrev AN_LP_ABILITY : Fld := ⟨0x602, 0, 14⟩
abbrev AN_LP_PARTNER_CARESTYR : Fld := ⟨0x602, 14, 1⟩
abbrev AN_LP_VALID : Fld := ⟨0x602, 15, 1⟩
abbrev AN_STAT_RESOLVED : Fld := ⟨0x603, 0, 4⟩
abbrev AN_STAT_MS_RESULT : Fld := ⟨0x603, 4, 1⟩
abbrev AN_STAT_MS_FAULT : Fld := ⟨0x603, 5, 1⟩
abbrev AN_STAT_AN_DONE : Fld := ⟨0x603, 6, 1⟩
abbrev AN_STAT_VIA : Fld := ⟨0x603, 7, 2⟩
abbrev LINK_STAT_STATE : Fld := ⟨0x604, 0, 4⟩
abbrev LINK_STAT_LINK_UP : Fld := ⟨0x604, 4, 1⟩
abbrev LINK_STAT_FAIL_CAUSE : Fld := ⟨0x604, 8, 3⟩
abbrev LINK_STAT_ATTEMPTS : Fld := ⟨0x604, 12, 4⟩
abbrev LM_CTL_SNR_MIN : Fld := ⟨0x605, 0, 8⟩
abbrev LM_CTL_WIN : Fld := ⟨0x605, 8, 4⟩
abbrev LM_UNC_UNC_MAX : Fld := ⟨0x606, 0, 16⟩
abbrev LM_STAT_SNR_MARGIN : Fld := ⟨0x607, 0, 12⟩
abbrev LINK_EVT_LINK_UP : Fld := ⟨0x608, 0, 1⟩
abbrev LINK_EVT_LINK_DOWN : Fld := ⟨0x608, 1, 1⟩
abbrev LINK_EVT_DRIFT : Fld := ⟨0x608, 2, 1⟩
abbrev LINK_EVT_REFRESH_FAIL : Fld := ⟨0x608, 3, 1⟩
abbrev LINK_EVT_MS_FAULT : Fld := ⟨0x608, 4, 1⟩
abbrev LINK_EVT_HALT : Fld := ⟨0x608, 5, 1⟩
abbrev LINK_EVT_FAST_MISS : Fld := ⟨0x608, 6, 1⟩
abbrev LINK_EVT_MASK_EN : Fld := ⟨0x609, 0, 7⟩
abbrev OCT_CTL_DUPLEX : Fld := ⟨0x700, 0, 1⟩
abbrev OCT_CTL_GRADE : Fld := ⟨0x700, 1, 3⟩
abbrev OCT_CTL_ACCEPT_PART : Fld := ⟨0x700, 4, 1⟩
abbrev OCT_CTL_SWAP_EN : Fld := ⟨0x700, 5, 1⟩
abbrev OCT_CTL_K2_EN : Fld := ⟨0x700, 6, 1⟩
abbrev OCT_CTL_RELOAD : Fld := ⟨0x700, 8, 1⟩
abbrev OCT_PART_TX_RATE : Fld := ⟨0x701, 0, 8⟩
abbrev OCT_PART_RX_RATE : Fld := ⟨0x701, 8, 8⟩
abbrev OCT_MARGIN_TARGET : Fld := ⟨0x702, 0, 8⟩
abbrev OCT_MARGIN_MIN : Fld := ⟨0x702, 8, 8⟩
abbrev OCT_SWAP_TRIG : Fld := ⟨0x703, 0, 8⟩
abbrev OCT_STAT_PHASE : Fld := ⟨0x704, 0, 4⟩
abbrev OCT_STAT_DOWN_CAUSE : Fld := ⟨0x704, 4, 3⟩
abbrev OCT_STAT_GRADE_ACT : Fld := ⟨0x704, 7, 3⟩
abbrev OCT_STAT_DUPLEX_ACT : Fld := ⟨0x704, 10, 1⟩
abbrev OCT_STAT_FAST : Fld := ⟨0x704, 11, 1⟩
abbrev OCT_STAT_SWAP_PENDING : Fld := ⟨0x704, 12, 1⟩
abbrev OCT_STAT_RELOAD_PENDING : Fld := ⟨0x704, 13, 1⟩
abbrev OCT_STAT_PAUSED : Fld := ⟨0x704, 14, 1⟩
abbrev OCT_BTX_B : Fld := ⟨0x705, 0, 14⟩
abbrev OCT_BRX_B : Fld := ⟨0x706, 0, 14⟩
abbrev OCT_NCW_N_TX : Fld := ⟨0x707, 0, 8⟩
abbrev OCT_NCW_N_RX : Fld := ⟨0x707, 8, 8⟩
abbrev OCT_SPLIT_S : Fld := ⟨0x708, 0, 11⟩
abbrev OCT_SF_TX_SF : Fld := ⟨0x709, 0, 8⟩
abbrev OCT_SF_RX_SF : Fld := ⟨0x709, 8, 8⟩
abbrev OCT_TONE_SEL_TONE : Fld := ⟨0x710, 0, 11⟩
abbrev OCT_TONE_SEL_AUTOINC : Fld := ⟨0x710, 15, 1⟩
abbrev OCT_TONE_BITS_RX_BITS : Fld := ⟨0x711, 0, 4⟩
abbrev OCT_TONE_BITS_TX_BITS : Fld := ⟨0x711, 4, 4⟩
abbrev OCT_TONE_BITS_CAP : Fld := ⟨0x711, 8, 4⟩
abbrev OCT_TONE_SNR_SNR : Fld := ⟨0x712, 0, 10⟩
abbrev OCT_GRP_SEL_GROUP : Fld := ⟨0x718, 0, 5⟩
abbrev OCT_GRP_MARGIN_MARGIN : Fld := ⟨0x719, 0, 12⟩
abbrev OCT_EVT_SHOWTIME : Fld := ⟨0x720, 0, 1⟩
abbrev OCT_EVT_SWAP_DONE : Fld := ⟨0x720, 1, 1⟩
abbrev OCT_EVT_SWAP_NAK : Fld := ⟨0x720, 2, 1⟩
abbrev OCT_EVT_RELOAD_DONE : Fld := ⟨0x720, 3, 1⟩
abbrev OCT_EVT_RELOAD_FAIL : Fld := ⟨0x720, 4, 1⟩
abbrev OCT_EVT_STRAY_FLAG : Fld := ⟨0x720, 5, 1⟩
abbrev OCT_EVT_PAUSE_BEGIN : Fld := ⟨0x720, 6, 1⟩
abbrev OCT_EVT_PAUSE_END : Fld := ⟨0x720, 7, 1⟩
abbrev OCT_EVT_TONE_DRIFT : Fld := ⟨0x720, 8, 1⟩
abbrev OCT_EVT_MASK_EN : Fld := ⟨0x721, 0, 9⟩
abbrev OCT_UNC_UNC_MAX : Fld := ⟨0x722, 0, 16⟩
abbrev PIP_CTL_EN : Fld := ⟨0x900, 0, 1⟩
abbrev PIP_CTL_LINK_RATE : Fld := ⟨0x900, 1, 1⟩
abbrev PIP_CTL_MSG_RATE : Fld := ⟨0x900, 2, 2⟩
abbrev PIP_CTL_BEACON_PER : Fld := ⟨0x900, 4, 8⟩
abbrev PIP_CTL_WAKE_REQ : Fld := ⟨0x900, 12, 1⟩
abbrev PIP_CTL_SLEEP_REQ : Fld := ⟨0x900, 13, 1⟩
abbrev PIP_CTL_DIAG_REQ : Fld := ⟨0x900, 14, 1⟩
abbrev PIP_RX_CTL_CAPTURE_DB : Fld := ⟨0x901, 0, 6⟩
abbrev PIP_RX_CTL_DET_THR : Fld := ⟨0x901, 8, 6⟩
abbrev PIP_WAKE_BURST : Fld := ⟨0x902, 0, 10⟩
abbrev PIP_SLEEP_STATE : Fld := ⟨0x903, 0, 2⟩
abbrev PIP_SLEEP_DELAY : Fld := ⟨0x903, 4, 12⟩
abbrev PIP_STAT_RX_BUSY : Fld := ⟨0x904, 0, 1⟩
abbrev PIP_STAT_TX_BUSY : Fld := ⟨0x904, 1, 1⟩
abbrev PIP_STAT_PEER_VALID : Fld := ⟨0x904, 2, 1⟩
abbrev PIP_STAT_OUTSTANDING : Fld := ⟨0x904, 3, 1⟩
abbrev PIP_STAT_LAST_RATE : Fld := ⟨0x904, 4, 2⟩
abbrev PIP_RX_LQ_LQ : Fld := ⟨0x905, 0, 8⟩
abbrev PIP_RX_LQ_TYPE : Fld := ⟨0x905, 8, 8⟩
abbrev PIP_PEER_ID_ID : Fld := ⟨0x906, 0, 16⟩
abbrev PIP_DIAG_CTL_CODE : Fld := ⟨0x90A, 0, 8⟩
abbrev PIP_DIAG_CTL_LEN : Fld := ⟨0x90A, 8, 6⟩
abbrev PIP_DIAG_CTL_BUF : Fld := ⟨0x90A, 14, 1⟩
abbrev PIP_DIAG_DATA_DATA : Fld := ⟨0x90B, 0, 16⟩
abbrev PIP_DIAG_RX_CODE : Fld := ⟨0x90C, 0, 8⟩
abbrev PIP_DIAG_RX_LEN : Fld := ⟨0x90C, 8, 6⟩
abbrev PIP_DIAG_RX_FULL : Fld := ⟨0x90C, 15, 1⟩
abbrev PIP_EVT_PEER_SEEN : Fld := ⟨0x910, 0, 1⟩
abbrev PIP_EVT_NO_ANS : Fld := ⟨0x910, 1, 1⟩
abbrev PIP_EVT_DIAG_RX : Fld := ⟨0x910, 2, 1⟩
abbrev PIP_EVT_DIAG_RPT : Fld := ⟨0x910, 3, 1⟩
abbrev PIP_EVT_SLEEP_RX : Fld := ⟨0x910, 4, 1⟩
abbrev PIP_EVT_WAKE_DONE : Fld := ⟨0x910, 5, 1⟩
abbrev PIP_EVT_CAPTURE : Fld := ⟨0x910, 6, 1⟩
abbrev PIP_EVT_MASK_EN : Fld := ⟨0x911, 0, 7⟩
abbrev DIAG_CTL_TDR_START : Fld := ⟨0xA00, 0, 1⟩
abbrev DIAG_CTL_E_CLR : Fld := ⟨0xA00, 1, 1⟩
abbrev DIAG_CTL_L_EN : Fld := ⟨0xA00, 2, 1⟩
abbrev DIAG_CTL_E_APPLY : Fld := ⟨0xA00, 3, 1⟩
abbrev DIAG_VP_VP : Fld := ⟨0xA01, 0, 10⟩
abbrev DIAG_THR_THR : Fld := ⟨0xA02, 0, 7⟩
abbrev DIAG_THR_BLANK : Fld := ⟨0xA02, 8, 7⟩
abbrev DIAG_STAT_BUSY : Fld := ⟨0xA03, 0, 1⟩
abbrev DIAG_STAT_RESULT : Fld := ⟨0xA03, 1, 3⟩
abbrev DIAG_STAT_COUNT : Fld := ⟨0xA03, 4, 3⟩
abbrev DIAG_STAT_FAR_END : Fld := ⟨0xA03, 7, 1⟩
abbrev DIAG_SEL_ENTRY : Fld := ⟨0xA04, 0, 2⟩
abbrev DIAG_REFL_CLASS : Fld := ⟨0xA05, 0, 3⟩
abbrev DIAG_REFL_GAMMA : Fld := ⟨0xA05, 8, 8⟩
abbrev DIAG_DIST_DIST : Fld := ⟨0xA06, 0, 12⟩
abbrev DIAG_TIME_TIME : Fld := ⟨0xA07, 0, 16⟩
abbrev DLY_STAT_L_VALID : Fld := ⟨0xA10, 0, 1⟩
abbrev DLY_STAT_E_VALID : Fld := ⟨0xA10, 1, 1⟩
abbrev DLY_STAT_USED : Fld := ⟨0xA10, 2, 2⟩
abbrev DLY_STAT_L_MODE : Fld := ⟨0xA10, 4, 4⟩
abbrev DLY_RTT_RTT : Fld := ⟨0xA11, 0, 16⟩
abbrev DLY_TX_TX : Fld := ⟨0xA13, 0, 16⟩
abbrev DLY_RX_RX : Fld := ⟨0xA15, 0, 16⟩
abbrev DLY_GD_SEL_GROUP : Fld := ⟨0xA17, 0, 5⟩
abbrev DLY_GD_DELTA : Fld := ⟨0xA18, 0, 16⟩
abbrev DIAG_EVT_TDR_DONE : Fld := ⟨0xA20, 0, 1⟩
abbrev DIAG_EVT_DLY_VALID : Fld := ⟨0xA20, 1, 1⟩
abbrev DIAG_EVT_DLY_LOST : Fld := ⟨0xA20, 2, 1⟩
abbrev DIAG_EVT_DLY_JUMP : Fld := ⟨0xA20, 3, 1⟩
abbrev DIAG_EVT_MASK_EN : Fld := ⟨0xA21, 0, 4⟩
abbrev LPI_CTL_TX_EN : Fld := ⟨0xB00, 0, 1⟩
abbrev LPI_CTL_OCT_TX_EN : Fld := ⟨0xB00, 1, 1⟩
abbrev LPI_CTL_IDLE : Fld := ⟨0xB00, 4, 8⟩
abbrev LPI_OCT_QUIET : Fld := ⟨0xB01, 0, 8⟩
abbrev LPI_STAT_TX_QUIET : Fld := ⟨0xB02, 0, 1⟩
abbrev LPI_STAT_RX_QUIET : Fld := ⟨0xB02, 1, 1⟩
abbrev LPI_STAT_REFRESH_DEFERRED : Fld := ⟨0xB02, 2, 1⟩
abbrev TS_CTL_ROLE : Fld := ⟨0xE00, 0, 2⟩
abbrev TS_CTL_LOG_SYNC : Fld := ⟨0xE00, 2, 4⟩
abbrev TS_CTL_LOG_PDELAY : Fld := ⟨0xE00, 6, 4⟩
abbrev TS_STAT_AS_CAPABLE : Fld := ⟨0xE01, 0, 1⟩
abbrev TS_STAT_DEGRADED : Fld := ⟨0xE01, 1, 1⟩
abbrev TS_STAT_DLY_MISMATCH : Fld := ⟨0xE01, 2, 1⟩
abbrev TS_STAT_SLAVE : Fld := ⟨0xE01, 3, 1⟩
abbrev TS_PDLY_PDLY : Fld := ⟨0xE02, 0, 16⟩
abbrev TS_NRR_NRR : Fld := ⟨0xE04, 0, 16⟩
abbrev TS_LAT_RX_LAT : Fld := ⟨0xE08, 0, 16⟩
abbrev TS_LAT_TX_LAT : Fld := ⟨0xE0A, 0, 16⟩
abbrev TS_EVT_SYNC_LOSS : Fld := ⟨0xE10, 0, 1⟩
abbrev TS_EVT_DLY_MISMATCH : Fld := ⟨0xE10, 1, 1⟩
abbrev TS_EVT_DEGRADED : Fld := ⟨0xE10, 2, 1⟩
abbrev TS_EVT_AS_LOST : Fld := ⟨0xE10, 3, 1⟩
abbrev TS_EVT_MASK_EN : Fld := ⟨0xE11, 0, 4⟩
abbrev XN_CTL_ENABLE : Fld := ⟨0x0, 0, 1⟩
abbrev XN_CTL_RATE : Fld := ⟨0x0, 1, 2⟩
abbrev XN_CTL_TRAIN : Fld := ⟨0x0, 3, 1⟩
abbrev XN_CTL_FEC528 : Fld := ⟨0x0, 4, 1⟩
abbrev XN_CTL_SRST : Fld := ⟨0x0, 5, 1⟩
abbrev XN_CTL_LPBK : Fld := ⟨0x0, 6, 2⟩
abbrev XN_CTL_TX_SQUELCH : Fld := ⟨0x0, 8, 1⟩
abbrev XN_CTL_POL_TX : Fld := ⟨0x0, 9, 1⟩
abbrev XN_CTL_POL_RX : Fld := ⟨0x0, 10, 1⟩
abbrev XN_STAT_SIGNAL_DET : Fld := ⟨0x1, 0, 1⟩
abbrev XN_STAT_CDR_LOCK : Fld := ⟨0x1, 1, 1⟩
abbrev XN_STAT_BLOCK_LOCK : Fld := ⟨0x1, 2, 1⟩
abbrev XN_STAT_FEC_ALIGN : Fld := ⟨0x1, 3, 1⟩
abbrev XN_STAT_UP : Fld := ⟨0x1, 4, 1⟩
abbrev XN_STAT_LIVE : Fld := ⟨0x1, 5, 1⟩
abbrev XN_STAT_RF_RX : Fld := ⟨0x1, 6, 1⟩
abbrev XN_STAT_TX_IDLE : Fld := ⟨0x1, 7, 1⟩
abbrev XN_EVT_UP : Fld := ⟨0x2, 0, 1⟩
abbrev XN_EVT_DOWN : Fld := ⟨0x2, 1, 1⟩
abbrev XN_EVT_SHED : Fld := ⟨0x2, 2, 1⟩
abbrev XN_EVT_REJOIN : Fld := ⟨0x2, 3, 1⟩
abbrev XN_EVT_TRAIN_DONE : Fld := ⟨0x2, 4, 1⟩
abbrev XN_EVT_TRAIN_FAIL : Fld := ⟨0x2, 5, 1⟩
abbrev XN_EVT_PAT_UNLOCK : Fld := ⟨0x2, 6, 1⟩
abbrev XN_EVT_CFG_ERR : Fld := ⟨0x2, 7, 1⟩
abbrev XN_EVT_MASK_EN : Fld := ⟨0x3, 0, 8⟩
abbrev XN_TXEQ0_PRE1 : Fld := ⟨0x40, 0, 8⟩
abbrev XN_TXEQ0_PRE2 : Fld := ⟨0x40, 8, 8⟩
abbrev XN_TXEQ1_POST1 : Fld := ⟨0x41, 0, 8⟩
abbrev XN_TXEQ1_MAIN : Fld := ⟨0x41, 8, 8⟩
abbrev XN_EQ_CTL_FREEZE_TX : Fld := ⟨0x80, 0, 1⟩
abbrev XN_EQ_CTL_FREEZE_CTLE : Fld := ⟨0x80, 1, 1⟩
abbrev XN_EQ_CTL_FREEZE_VGA : Fld := ⟨0x80, 2, 1⟩
abbrev XN_EQ_CTL_FREEZE_FFE : Fld := ⟨0x80, 3, 1⟩
abbrev XN_EQ_CTL_FREEZE_DFE : Fld := ⟨0x80, 4, 1⟩
abbrev XN_EQ_CTL_FREEZE_CAL : Fld := ⟨0x80, 5, 1⟩
abbrev XN_RX_TAP_SEL_INDEX : Fld := ⟨0x81, 0, 4⟩
abbrev XN_RX_TAP_SEL_GROUP : Fld := ⟨0x81, 4, 3⟩
abbrev XN_RX_TAP_SEL_AUTOINC : Fld := ⟨0x81, 15, 1⟩
abbrev XN_RX_TAP_DATA_VALUE : Fld := ⟨0x82, 0, 16⟩
abbrev XN_EYE_HEIGHT : Fld := ⟨0x83, 0, 8⟩
abbrev XN_EYE_WIDTH : Fld := ⟨0x83, 8, 8⟩
abbrev XN_TRN_CTL_RESTART : Fld := ⟨0xC0, 0, 1⟩
abbrev XN_TRN_CTL_HELD_START : Fld := ⟨0xC0, 1, 1⟩
abbrev XN_TRN_STAT_STATE : Fld := ⟨0xC1, 0, 4⟩
abbrev XN_TRN_STAT_LOCAL_READY : Fld := ⟨0xC1, 4, 1⟩
abbrev XN_TRN_STAT_REMOTE_READY : Fld := ⟨0xC1, 5, 1⟩
abbrev XN_TRN_STAT_READY_SENT : Fld := ⟨0xC1, 6, 1⟩
abbrev XN_TRN_STAT_HELD_VALID : Fld := ⟨0xC1, 7, 1⟩
abbrev XN_PAT_CTL_GEN_EN : Fld := ⟨0x100, 0, 1⟩
abbrev XN_PAT_CTL_CHK_EN : Fld := ⟨0x100, 1, 1⟩
abbrev XN_PAT_CTL_GEN_PAT : Fld := ⟨0x100, 2, 4⟩
abbrev XN_PAT_CTL_CHK_PAT : Fld := ⟨0x100, 6, 4⟩
abbrev XN_PAT_CTL_GEN_INV : Fld := ⟨0x100, 10, 1⟩
abbrev XN_PAT_CTL_CHK_INV : Fld := ⟨0x100, 11, 1⟩
abbrev XN_PAT_STAT_LOCK : Fld := ⟨0x101, 0, 1⟩
abbrev XN_PAT_STAT_BITS_WRAP : Fld := ⟨0x101, 1, 1⟩
abbrev XN_PAT_STAT_ERR_WRAP : Fld := ⟨0x101, 2, 1⟩
abbrev XN_PAT_INJ_ONE : Fld := ⟨0x102, 0, 1⟩
abbrev XN_PAT_INJ_PERIODIC : Fld := ⟨0x102, 1, 1⟩
abbrev XN_PAT_INJ_EXP : Fld := ⟨0x102, 2, 4⟩
abbrev XN_PAT_BITS_COUNT : Fld := ⟨0x104, 0, 16⟩
abbrev XN_PAT_ERR_COUNT : Fld := ⟨0x108, 0, 16⟩
abbrev HGRP_MODE_MODE : Fld := ⟨0x0, 0, 3⟩
abbrev HGRP_MODE_ACTIVE : Fld := ⟨0x0, 4, 3⟩
abbrev HGRP_MODE_PENDING : Fld := ⟨0x0, 7, 1⟩
abbrev HGRP_STAT_UP : Fld := ⟨0x1, 0, 8⟩
abbrev HGRP_STAT_GATHER_UP : Fld := ⟨0x1, 8, 1⟩
abbrev HGRP_STAT_RF_TX : Fld := ⟨0x1, 9, 1⟩
abbrev HGRP_BOND_CTL_REPLAY : Fld := ⟨0x10, 0, 8⟩
abbrev HGRP_BOND_CTL_REJOIN : Fld := ⟨0x10, 8, 4⟩
abbrev HGRP_BOND_RX_REORDER_TO : Fld := ⟨0x11, 0, 10⟩
abbrev HGRP_BOND_STAT_SHED : Fld := ⟨0x12, 0, 8⟩
abbrev HGRP_BOND_STAT_REPLAYING : Fld := ⟨0x12, 8, 1⟩
abbrev HGRP_EVT_MODE_APPLIED : Fld := ⟨0x20, 0, 1⟩
abbrev HGRP_EVT_GATHER_DOWN : Fld := ⟨0x20, 1, 1⟩
abbrev HGRP_EVT_SHED : Fld := ⟨0x20, 2, 1⟩
abbrev HGRP_EVT_ALL_SHED : Fld := ⟨0x20, 3, 1⟩
abbrev HGRP_EVT_TAG_ERR : Fld := ⟨0x20, 4, 1⟩
abbrev HGRP_EVT_SEQ_GAP : Fld := ⟨0x20, 5, 1⟩
abbrev HGRP_EVT_SEQ_RESYNC : Fld := ⟨0x20, 6, 1⟩
abbrev HGRP_EVT_MASK_EN : Fld := ⟨0x21, 0, 7⟩
abbrev MDIO_WIN_ADDR_LO_ADDR : Fld := ⟨0x0, 0, 16⟩
abbrev MDIO_WIN_ADDR_HI_ADDR : Fld := ⟨0x1, 0, 3⟩
abbrev MDIO_WIN_ADDR_HI_INC : Fld := ⟨0x1, 15, 1⟩
abbrev MDIO_WIN_DATA_DATA : Fld := ⟨0x2, 0, 16⟩
abbrev MDIO_WIN_MASK_MASK : Fld := ⟨0x3, 0, 16⟩
abbrev MDIO_WIN_STAT_STATUS : Fld := ⟨0x4, 0, 8⟩

end Sys2Proof.Machine
end

