-- ==== Sys2Proof/Machine/State.lean ====
section
/-! DEFINITION. The state of the C9480 as plain data: the register store, the hidden state of every unit, the queue of
waiting commands; the faults and refusals; the state after reset. -/

namespace Sys2Proof.Machine

/-- Faults: the C9480 has no stop, so no meaning of this model ends in one; the type keeps one name for the interface. -/
inductive Fault where
  /-- No meaning raises it (safe): every error of the C9480 is an event bit or a refused access. -/
  | none
deriving DecidableEq, Repr

/-- Refusals. -/
inductive Refusal where
  /-- Raised only by exec's arms of commands that have no meaning yet (safe). -/
  | notModelled (mnemonic : String)
deriving DecidableEq, Repr

/-- Sparse values: the listed keys rise strictly, no listed value is 0, an unlisted key holds 0. -/
abbrev Sparse := List (Nat × Int)

/-- The register store: register addresses (block × 0x1000 + offset, plus 0x80000 × bank for registers behind a selector)
in strictly rising order, none listed with its reset value. -/
abbrev Regs := List (Nat × BitVec 16)

/-- The flag symbol that opened the superframe in progress toward the partner (03_octavo.md R81, R82, 05_cable_and_idle.md R184). -/
inductive FlagSym where
  /-- nothing is sent on the data tones -/
  | silent
  /-- the plain flag; R81 -/
  | plain
  /-- every point negated; R82 -/
  | inverted
  /-- the imaginary part of every point negated; R184 -/
  | conj
deriving DecidableEq, Repr

/-- A snapshot in keep bank K1 (02_line_port.md R67, 03_octavo.md R123). -/
structure Snapshot where
  /-- mode in the encoding of MODE_SEL 1 to 5; R67 -/
  mode : Nat := 0
  /-- the partner's 64-bit Pip identity; R67 -/
  peer : Nat := 0
  /-- adapted values of the five groups; R67 -/
  taps : Sparse := []
  /-- Octavo per-tone equalisers from tone 8; R123 -/
  tones : List Equaliser := []
  /-- Octavo split S and duplex that the snapshot was trained with; R98 -/
  split : Nat := 0
  /-- 1: partitioned; R98 -/
  part : Bool := false
deriving DecidableEq, Repr

/-- A frame the part itself sends at the next frame boundary: PFC frames and PTP event frames (R73, R211). -/
structure Ctl where
  /-- 0 sent as it stands; 1 own Sync; 2 forwarded Sync; 3 Pdelay_Req; 4 Pdelay_Resp; R208, R212 -/
  kind : Nat := 0
  /-- the frame without its check sequence for kinds 1 to 4, whole for kind 0 -/
  bytes : Bytes := []
  /-- for kind 2, D − T_in in 2^-16 ns, to which T_out is added; R212 -/
  base : Int := 0
deriving DecidableEq, Repr

/-- A change of an adapted value (02_line_port.md R60). -/
structure TapMove where
  /-- TPLL count -/
  at_ : Nat := 0
  /-- group × 4096 + index -/
  key : Nat := 0
  /-- the value before -/
  old : Int := 0
  /-- the value after -/
  new : Int := 0
deriving DecidableEq, Repr

/-- The link state machine and receiver of a line port beyond its registers (02_line_port.md). -/
structure LinkSt where
  /-- MODE_SEL as applied at the last entry to PIP_PRE, AN or TRAIN; 4 bit; R53; -/
  appliedMode : Nat := 0
  /-- LPn_AN_ADV as applied; 14 bit; R53 -/
  appliedAdv : Nat := 0x301F
  /-- PRECODE as applied; 2 bit; R53 -/
  appliedPrecode : Nat := 3
  /-- the state CAL returns to; 4 bit; R49 -/
  calReturn : Nat := 0
  /-- Clause 98 resolved EEE for the present mode; R182 -/
  eee : Bool := false
  /-- adapted values, key group × 4096 + index; R57 -/
  taps : Sparse := []
  /-- envelope centres; R58 -/
  centres : Sparse := []
  /-- values held when the first refresh of the chain began; R60, R62 -/
  frozen : Sparse := []
  /-- changes of adapted values in the last 100 µs, the newest first; R60 -/
  moves : List TapMove := []
  /-- TPLL counts of the failed refreshes; R61 -/
  failTimes : List Nat := []
  /-- a refresh is due 10 ms after a failed one; R61 -/
  retryDue : Bool := false
  /-- the K1 snapshot of the port; R67 -/
  snap : Option Snapshot := none
  /-- consecutive windows with SNR_MARGIN below SNR_MIN; R68 -/
  snrBad : Nat := 0
  /-- consecutive windows with too many uncorrectable codewords; R68 -/
  uncBad : Nat := 0
  /-- pause time in quanta last received for each class; R76 -/
  pauseQuanta : List Nat := [0, 0, 0, 0, 0, 0, 0, 0]
  /-- MAC control and PTP event frames waiting for the next frame boundary toward the line; R73, R211 -/
  ctlq : List Ctl := []
  /-- bytes of the frame last started onto the pair; R290 -/
  wire : Bytes := []
  /-- the frame being sent onto the pair is of this class; R76 -/
  wireCls : Nat := 0
  /-- the frame last sent onto the pair ended with the PCS error block; R275 -/
  errored : Bool := false
deriving DecidableEq, Repr

/-- A Pip message: payload byte 0 is `typ`, byte 1 `seq`, then `body` (04_pip_channel.md R130). -/
structure PipMsg where
  /-- TYPE; R141 -/
  typ : Nat := 0
  /-- SEQ, taken at the first send; R142 -/
  seq : Option Nat := none
  /-- body bytes from payload byte 2 -/
  body : Bytes := []
  /-- rate: 0 P1, 1 P4, 2 P16; R127 -/
  rate : Nat := 0
  /-- sent as the answer to a received frame, 8 µs after it; R139 -/
  answer : Bool := false
deriving DecidableEq, Repr

/-- A frame on the pair (R129, R159). -/
structure PipTx where
  /-- the message it carries -/
  msg : PipMsg := {}
  /-- TPLL count at the end of its last chip -/
  ends : Nat := 0
deriving DecidableEq, Repr

/-- A message that awaits its answer (R143). -/
structure PipOut where
  /-- the message -/
  msg : PipMsg := {}
  /-- sends so far, at most 4; R143 -/
  sends : Nat := 0
deriving DecidableEq, Repr

/-- The last message of a type acted on, with its answer (R144). -/
structure PipStored where
  /-- TYPE -/
  typ : Nat := 0
  /-- SEQ -/
  seq : Nat := 0
  /-- the stored answer -/
  ans : PipMsg := {}
deriving DecidableEq, Repr

/-- What the partner's CAP said (R141, R147). -/
structure PeerCap where
  /-- identity, 64 bit -/
  ident : Nat := 0
  /-- LPn_AN_ADV of the partner, 14 bit -/
  adv : Nat := 0
  /-- FAST_RELINK_EN of the partner -/
  fast : Bool := false
  /-- the partner's K2 table is valid for this port -/
  k2 : Bool := false
  /-- mode of the partner's K1 snapshot for this port, 0 to 5 -/
  snapMode : Nat := 0
  /-- ACCEPT_PART of the partner -/
  acceptPart : Bool := false
deriving DecidableEq, Repr

/-- The Pip channel of a port beyond its registers (04_pip_channel.md). -/
structure PipSt where
  /-- die-roll LFSR, 16 bit; R138; 0: not drawn from since block reset, so that the next draw begins at the seed, a free
  value (log entry 11) -/
  lfsr : Nat := 0
  /-- next SEQ, 8 bit; R142 -/
  seq : Nat := 0
  /-- messages waiting to be sent; R140 -/
  waiting : List PipMsg := []
  /-- messages awaiting an answer; R143 -/
  outstanding : List PipOut := []
  /-- stored SEQ and answer per type; R144 -/
  stored : List PipStored := []
  /-- the partner's CAP of this exchange; R147 -/
  peerCap : Option PeerCap := none
  /-- an ACK for this port's CAP has arrived; R148 -/
  capAcked : Bool := false
  /-- the OFFER sent or accepted, its body bytes; R148, R149 -/
  offer : Bytes := []
  /-- die roll of the backoff or HELLO spacing in progress; R137, R146 -/
  die : Nat := 0
  /-- a wake burst is running; its SEQ is `burstSeq`; R150 -/
  burst : Bool := false
  /-- SEQ of the wake burst; R150 -/
  burstSeq : Nat := 0
  /-- TPLL count at the first chip of the wake burst; R150 -/
  burstAt : Nat := 0
  /-- its BURST in ms; R150 -/
  burstLen : Nat := 0
  /-- the frame being sent, a burst's apart; R129, R130 -/
  sending : Option PipTx := none
  /-- TPLL count until which the receiver is blanked, 2 µs after the last chip sent; R129 -/
  deafTo : Nat := 0
  /-- receiver gain against what its loop last settled to, 0.5 dB steps; R132, R135 -/
  gain : Int := 0
  /-- bits of the frame last sent, its preamble first; R130 -/
  wire : List Bool := []
  /-- diagnostics transmit buffer, 64 bytes; R159 -/
  diagTx : Bytes := List.replicate 64 0
  /-- diagnostics receive buffer, 64 bytes; R159 -/
  diagRx : Bytes := List.replicate 64 0
  /-- buffer pointer p; R159 -/
  diagPtr : Nat := 0
  /-- TYPE, code or result, and data of the answer to the last DIAG_REQ; R158 -/
  rpt : Bytes := []
deriving DecidableEq, Repr

/-- One reported reflection (05_cable_and_idle.md R167). -/
structure Refl where
  /-- class 0 to 4; R167 -/
  cls : Nat := 0
  /-- Γ in 1/128; R167 -/
  gamma : Int := 0
  /-- distance in cm; R168 -/
  dist : Nat := 0
  /-- round trip in 2^-16 ns; R168 -/
  time : Nat := 0
deriving DecidableEq, Repr

/-- Reflectometry, cable delay and LPI of a port beyond its registers (05_cable_and_idle.md). -/
structure DiagSt where
  /-- failed tries of the run; R164 -/
  tries : Nat := 0
  /-- the probe shots of a try are running; R164 -/
  shooting : Bool := false
  /-- the timer of LINK_FAIL or BACKOFF expired during the run; R162 -/
  timerDue : Bool := false
  /-- reported reflections, nearest first; R167 -/
  refls : List Refl := []
  /-- coarse round trip of PIP_CAP, 2^-16 ns; R172 -/
  coarse : Option Nat := none
  /-- RTT of the previous window of the series; R178 -/
  prevRtt : Option Nat := none
  /-- Method E delay, 2^-16 ns; R179 -/
  eDelay : Nat := 0
  /-- last valid one-way delay from the partner since the last block soft reset; R157 -/
  lastRx : Nat := 0
  /-- time at which the marker last turned around was sent, 2^-16 ns; R170 -/
  markTx : Option Nat := none
  /-- TPLL cycles of transmit quiet not yet a whole µs; R500 -/
  quietCyc : Nat := 0
  /-- refreshes sent in the present transmit LPI; R182, R185 -/
  lpiRefreshes : Nat := 0
  /-- relative group delay of each tone group, 2^-16 ns; R173 -/
  gd : List Int := List.replicate 32 0
  /-- superframes since Octavo LPI entry; R185 -/
  lpiSf : Nat := 0
deriving DecidableEq, Repr

/-- A K2 loading table (03_octavo.md R123). -/
structure K2Table where
  /-- partner identity -/
  peer : Nat := 0
  /-- partitioned duplex -/
  part : Bool := false
  /-- grade in use, 0 in partitioned duplex -/
  grade : Nat := 0
  /-- rate toward the SLAVE, 0.5 Gbit/s -/
  txRate : Nat := 0
  /-- rate toward the MASTER, 0.5 Gbit/s -/
  rxRate : Nat := 0
  /-- split S -/
  split : Nat := 0
  /-- bits sent per tone from tone 8 -/
  txBits : List Nat := []
  /-- bits received per tone from tone 8 -/
  rxBits : List Nat := []
deriving DecidableEq, Repr

/-- A bit swap or reload in progress (R111 to R117). -/
structure SwapSt where
  /-- SEQ of the request -/
  seq : Nat := 0
  /-- tones and their new bits -/
  list : List (Nat × Nat) := []
  /-- sends so far -/
  sends : Nat := 0
  /-- target SF_COUNT once acknowledged -/
  target : Option Nat := none
deriving DecidableEq, Repr

/-- A reload in progress (R116). -/
structure ReloadSt where
  /-- SEQ of the request -/
  seq : Nat := 0
  /-- the MASTER's GRADE, TARGET, MIN, TX_RATE and RX_RATE for this reload; empty at a SLAVE that waits for them -/
  vals : List Nat := []
  /-- TABLE fragments received: number and bytes -/
  frags : List (Nat × Bytes) := []
  /-- number of the fragment received last -/
  last : Option Nat := none
  /-- the fragments received belong to the second copy -/
  second : Bool := false
  /-- this end's new receive table, bits per tone from tone 8 -/
  rxBits : List Nat := []
  /-- this end has sent its table twice -/
  sent : Bool := false
  /-- target SF_COUNT once acknowledged -/
  target : Option Nat := none
deriving DecidableEq, Repr

/-- A calibration pause (R118, R119). -/
structure PauseSt where
  /-- start superframe X -/
  x : Nat := 0
  /-- this port calibrates; else it holds for its partner -/
  own : Bool := false
  /-- the partner has acknowledged -/
  acked : Bool := false
  /-- the calibration within the pause is complete -/
  calDone : Bool := false
  /-- superframe X + 54 has begun: the MASTER sends flag symbols -/
  flags : Bool := false
deriving DecidableEq, Repr

/-- Octavo beyond its registers (03_octavo.md). Lists of tones start at tone 8. -/
structure OctSt where
  /-- this port is MASTER; R92 -/
  master : Bool := true
  /-- OFFER: partitioned duplex; R93 -/
  part : Bool := false
  /-- OFFER: fast lengths; R98 -/
  fast : Bool := false
  /-- OFFER: K2 LOAD; R98 -/
  k2Load : Bool := false
  /-- OFFER: GRADE; R93 -/
  grade : Nat := 0
  /-- OFFER: TX_RATE, toward the SLAVE; R93 -/
  txRate : Nat := 0
  /-- OFFER: RX_RATE, toward the MASTER; R93 -/
  rxRate : Nat := 0
  /-- OFFER: TARGET, 0.1 dB; R93 -/
  target : Nat := 0
  /-- OFFER: MIN, 0.1 dB; R93, R106 -/
  min : Nat := 0
  /-- measured SNR per tone, 0.1 dB; R101 -/
  snr : List Nat := []
  /-- bits sent per tone; R83 -/
  txBits : List Nat := []
  /-- bits received per tone; R83 -/
  rxBits : List Nat := []
  /-- equaliser magnitude per tone at CHANNEL and per-tone equaliser state outside ±3 dB: tones in drift; R108 -/
  drift : List Nat := []
  /-- the SLAVE's report as accepted: five margins, then 32 group SNRs; R102 -/
  report : List Nat := []
  /-- the decision as made or accepted: grade and S; R102 -/
  decision : Option (Nat × Nat) := none
  /-- achieved margin, 0.1 dB; R105 -/
  margin : Nat := 0
  /-- a partner's table with a good CRC-32 was taken; R103 -/
  tableTaken : Bool := false
  /-- EXCHANGE has ended with its result; SHOWTIME is due; R103 -/
  showDue : Bool := false
  /-- the K2 table; R123 -/
  k2 : Option K2Table := none
  /-- next OMC SEQ, 8 bit; R110 -/
  omcSeq : Nat := 0
  /-- OMC messages that the last step which sent any handed to the management channel; R109 -/
  omcOut : List Bytes := []
  /-- slices of OMC messages that wait to be sent; R109 -/
  omcTx : List Bytes := []
  /-- slices of the codewords of the superframe in progress toward the partner; R84, R109 -/
  omcNow : List Bytes := []
  /-- the flag symbol that opened the superframe in progress toward the partner; R81, R82, R184 -/
  flag : FlagSym := .silent
  /-- its data symbols carry codewords; R83, R185 -/
  fill : Bool := false
  /-- the superframe in progress from the partner brought this receiver a new loading; R113 -/
  rxChanged : Option Nat := none
  /-- per-tone equalisers from tone 8 as CHANNEL set them; R100 -/
  weq0 : List Equaliser := []
  /-- per-tone equalisers from tone 8; R100, R108 -/
  weq : List Equaliser := []
  /-- for the last codewords received, the latest first: it was uncorrectable; R90 -/
  cwBad : List Bool := []
  /-- the report, decision or loading table being sent; R102, R103 -/
  block : Bytes := []
  /-- part of a superframe that has passed, in fifths of a sample; R80 -/
  sfAcc : Nat := 0
  /-- OMC message being received, the bytes so far; R109 -/
  omcIn : Bytes := []
  /-- the swap this receiver has requested; R111 -/
  swap : Option SwapSt := none
  /-- the swap this transmitter has acknowledged; R112 -/
  swapTx : Option SwapSt := none
  /-- the last request answered, TYPE × 256 + SEQ, and its answer; R114 -/
  answered : Option (Nat × List Bytes) := none
  /-- the reload in progress; R116 -/
  reload : Option ReloadSt := none
  /-- the last reload came to nothing; R117 -/
  reloadBad : Bool := false
  /-- the calibration pause announced or running; R118 -/
  pause : Option PauseSt := none
  /-- notices cancelled so far; R119 -/
  cancels : Nat := 0
  /-- windows with too many uncorrectable codewords; R121 -/
  uncBad : Nat := 0
  /-- windows below SNR_MIN; R121 -/
  snrBad : Nat := 0
deriving DecidableEq, Repr

/-- A frame in Quire (08_quire_buffer.md R266). -/
structure QFrame where
  /-- bytes from destination address to frame check sequence, without Folio tag -/
  bytes : Bytes := []
  /-- 96-bit ingress time -/
  time : Nat := 0
  /-- marked poisoned by the scrubber; R274 -/
  poisoned : Bool := false
  /-- spilled to the neighbour under this spill sequence number; R302 -/
  spilled : Option Nat := none
  /-- it lies with the south neighbour, else the north one, while spilled; R302, R305 -/
  south : Bool := false
  /-- cells it takes at the neighbour while spilled; R302 -/
  lentCells : Nat := 0
deriving DecidableEq, Repr

/-- One of the 128 queues. -/
structure QSt where
  /-- frames in order, the head first; R267 -/
  frames : List QFrame := []
  /-- cells charged to the reserve; R278 -/
  rsv : Nat := 0
  /-- cells charged to the shared pool; R278 -/
  shared : Nat := 0
  /-- cells charged to the headroom; R278 -/
  hdrm : Nat := 0
  /-- the queue is held; R281 -/
  held : Bool := false
  /-- LIMIT: direction 0 as received from the host, direction 1 as advertised, 32 bit; R292, R294 -/
  limit : Nat := 0
  /-- direction 0 the charge C, direction 1 F, 32 bit; R292, R294 -/
  count : Nat := 0
  /-- direction 0: the host's set has arrived since the restart; R296 -/
  limitSeen : Bool := false
  /-- direction 1: LIMIT of the last set sent; R295 -/
  lastSent : Nat := 0
  /-- direction 1: cumulative cost of the frames the host has sent; R299 -/
  hostCharge : Nat := 0
  /-- next spill sequence number toward the north neighbour, 16 bit; R333 -/
  spillSeq : Nat := 0
  /-- next spill sequence number toward the south neighbour, 16 bit; R333 -/
  spillSeqS : Nat := 0
  /-- HOLD and HYST in force until the next cell allocation, while they differ from the written ones; R280 -/
  oldThr : Option (Nat × Nat) := none
  /-- the bank of each stored cell, the head's first; R265 -/
  cells : List Nat := []
  /-- the bank at which the rotation goes on; R265 -/
  rot : Nat := 0
deriving DecidableEq, Repr

/-- The frame in progress or last sent on an output (08_quire_buffer.md R290). -/
structure OutSt where
  /-- the frame in progress, with its stack-wide port and sequence number; R300 -/
  cur : Option (QFrame × Nat × Nat) := none
  /-- a cut frame kept to be sent first when the interface returns; R300 -/
  cut : Option (QFrame × Nat × Nat) := none
  /-- the kept frame must be charged once against the restarted counts; R298 -/
  recharge : Bool := false
  /-- bytes last started on the output, with Folio tag and frame check sequence -/
  wire : Bytes := []
  /-- an output's last frame was ended with an error block; R275 -/
  errored : Bool := false
  /-- bytes of the frame in progress that have not left yet; R300 -/
  left : Nat := 0
  /-- deficit of each port, bytes; R290 -/
  deficits : List Nat := [0, 0, 0, 0, 0, 0, 0, 0]
  /-- port next in the round; R290 -/
  ptr : Nat := 0
  /-- that port has had its quantum of this turn; R290 -/
  given : Bool := false
deriving DecidableEq, Repr

/-- A spilled frame stored here for the neighbour (R301, 09_spine_cascade.md R333). -/
structure Lent where
  /-- queue of the neighbour -/
  queue : Nat := 0
  /-- the south neighbour's, else the north one's -/
  south : Bool := false
  /-- spill sequence number -/
  seq : Nat := 0
  /-- the frame's bytes -/
  bytes : Bytes := []
  /-- its ingress time -/
  time : Nat := 0
  /-- marked poisoned by the scrubber; R274 -/
  poisoned : Bool := false
  /-- the banks of its lent cells; R265 -/
  cells : List Nat := []
deriving DecidableEq, Repr

/-- Quire beyond its registers. -/
structure QuireSt where
  /-- the 128 queues, in the layout of QUIRE_Q_SEL; R266 -/
  queues : Vector QSt 128 := Vector.replicate 128 {}
  /-- the outputs toward H0 to H7 (BONDED, PAIRED), the last one the gathered interface; R290 -/
  outs : Vector OutSt 9 := Vector.replicate 9 {}
  /-- next sequence number of each line port toward the host, 16 bit; R32 -/
  seqs : List Nat := [0, 0, 0, 0, 0, 0, 0, 0]
  /-- next queue in the credit rotation, 0 to 63; R295 -/
  crdNext : Nat := 0
  /-- fields of the last credit ordered set sent: class, port, LIMIT; R291 -/
  crdTx : Option (Nat × Nat × Nat) := none
  /-- that set as sent, from its block type on; R291 -/
  crdWire : Bytes := []
  /-- the queue being spilled; R302 -/
  spill : Option Nat := none
  /-- frames held for the neighbour; R301 -/
  lent : List Lent := []
  /-- the bank at which the rotation of the lent cells goes on; R265 -/
  lentRot : Nat := 0
  /-- next spill sequence number to return to a neighbour for each of its queues, key queue, + 65536 for the south one; R333 -/
  lentNext : Sparse := []
  /-- the word that the scrubber reads next, in the layout of QUIRE_ECC_ADDR; R272 -/
  scrubAt : Nat := 0
  /-- Hn_TX idle hold of R297 in force -/
  idleHold : Bool := false
  /-- shared cells that no queue reaches until the sweep ends; R276 -/
  unreached : Nat := 0
  /-- XOFF, XON, SPILL_ON and SPILL_OFF in force until the next cell allocation, while they differ from the written ones;
  R280 -/
  oldThr : Option (Nat × Nat × Nat × Nat) := none
  /-- the pool's free cells are at XOFF or below; R281 -/
  low : Bool := false
deriving DecidableEq, Repr

/-- A two-step Sync that waits for its Follow_Up (06_folio_time.md R210, R212). -/
structure SyncSt where
  /-- sequenceId -/
  seq : Nat := 0
  /-- T_in in 2^-16 ns -/
  tIn : Int := 0
  /-- correctionField in 2^-16 ns -/
  corr : Int := 0
deriving DecidableEq, Repr

/-- Announce values stored for forwarding (R212). -/
structure AnnSt where
  /-- the received Announce body, from the PTP header on -/
  bytes : Bytes := []
  /-- stepsRemoved as received -/
  steps : Nat := 0
deriving DecidableEq, Repr

/-- One PTP port: 0 to 7 line ports, 8 to 15 host lanes H0 to H7 (R208). -/
structure PtpSt where
  /-- mean link delay of a host-lane port, 2^-16 ns (a line port shows it in LPn_TS_PDLY) -/
  pdly : Nat := 0
  /-- peer delay has given a result; R210 -/
  pdOk : Bool := false
  /-- asCapable of a host-lane port; R208 -/
  asCap : Bool := false
  /-- outstanding Pdelay_Req: sequenceId and T1 in 2^-16 ns; R208 -/
  req : Option (Nat × Int) := none
  /-- Pdelay_Resp received: T2 and T4 in 2^-16 ns -/
  resp : Option (Int × Int) := none
  /-- previous exchange's T3 and T4, for the neighbour rate ratio -/
  prev : Option (Int × Int) := none
  /-- consecutive requests without an answer; asCapable goes after 9 -/
  lost : Nat := 0
  /-- two-step Sync waiting for its Follow_Up -/
  sync : Option SyncSt := none
  /-- next sequenceIds of Sync, Announce, Pdelay_Req and Signaling, 16 bit -/
  seqSync : Nat := 0
  /-- Announce -/
  seqAnn : Nat := 0
  /-- Pdelay_Req -/
  seqPd : Nat := 0
  /-- Signaling -/
  seqSig : Nat := 0
  /-- a line or lane Sync has been delivered as a measurement since the source was chosen or last lost; R200 -/
  delivering : Bool := false
deriving DecidableEq, Repr

/-- One capture input (R223). -/
structure CapSt where
  /-- stamps in 2^-16 ns with their edge (true: rising), the oldest first, at most 8 -/
  queue : List (Nat × Bool) := []
  /-- edge of the stamp last removed or copied -/
  edge : Bool := false
deriving DecidableEq, Repr

/-- One event output (R224, R225): times in 2^-16 ns. -/
structure EvtOut where
  /-- armed -/
  armed : Bool := false
  /-- periodic as taken at ARM -/
  periodic : Bool := false
  /-- start time taken at ARM -/
  start : Nat := 0
  /-- period taken at ARM -/
  per : Nat := 0
  /-- width in ns taken at ARM -/
  width : Nat := 0
  /-- time of the next edge -/
  next : Nat := 0
  /-- a pulse is in progress: the ball is at the active level -/
  pulse : Bool := false
deriving DecidableEq, Repr

/-- Time recorded at entry to Nap or Watch (R218). -/
structure SleepRec where
  /-- the time word in 2^-16 ns -/
  time : Nat := 0
  /-- RATE -/
  rate : Int := 0
  /-- Folio was UNSET at entry -/
  unset : Bool := false
  /-- TPLL count of the model's clock at entry, from which the sleep count is taken -/
  since : Nat := 0
deriving DecidableEq, Repr

/-- What a servo step found, to discard it when a SET or an ADD takes effect in the same TPLL cycle (06_folio_time.md R196). -/
structure StepRec where
  /-- TPLL count of the step -/
  at_ : Nat := 0
  /-- the time before it, in the unit of FolioSt.time -/
  time : Nat := 0
  /-- the event outputs before it -/
  outs : Vector EvtOut 4 := Vector.replicate 4 {}
  /-- FOLIO_EVT before it -/
  evt : Nat := 0
deriving DecidableEq, Repr

/-- Folio beyond its registers (06_folio_time.md). -/
structure FolioSt where
  /-- the time in units of 2^-56 / 5 ns, so that a TPLL cycle adds 4 × (2^56 + RATE) exactly; R192, R193 -/
  time : Nat := 0
  /-- consecutive measurements within LOCK_THR; R200 -/
  good : Nat := 0
  /-- consecutive measurements beyond 4 × LOCK_THR; R200 -/
  bad : Nat := 0
  /-- the next measurement is the first after UNSET; R201 -/
  first : Bool := true
  /-- FOLIO_FINE has latched since the pin or power-on reset; R221 -/
  fined : Bool := false
  /-- TPLL count at entry to the present LOCKED or FOLLOW visit; R214 -/
  since : Nat := 0
  /-- RATE values of the visit with the TPLL count at which each began, the newest first; R214 -/
  hist : List (Nat × Int) := []
  /-- the servo is slewing a large offset; R201 -/
  slewing : Bool := false
  /-- RATE from which it slews by at most 100 ppm; R201 -/
  base : Int := 0
  /-- TPLL count of the last SET or ADD; R196 -/
  cmdAt : Option Nat := none
  /-- the last servo step; R196 -/
  step : Option StepRec := none
  /-- TPLL count of the servo's last update of RATE; R197 -/
  rateAt : Option Nat := none
  /-- PTP ports -/
  ptp : Vector PtpSt 16 := Vector.replicate 16 {}
  /-- stored Announce values; R212 -/
  ann : Option AnnSt := none
  /-- capture inputs CAP0 to CAP3 -/
  caps : Vector CapSt 4 := Vector.replicate 4 {}
  /-- event outputs EVT0 to EVT3 -/
  outs : Vector EvtOut 4 := Vector.replicate 4 {}
  /-- the record of the last sleep entry -/
  sleep : Option SleepRec := none
  /-- remaining beacon correction being slewed out, in the unit of `time`; R217 -/
  beacon : Int := 0
deriving DecidableEq, Repr

/-- A lane beyond its registers (07_host_lanes_and_retimer.md). -/
structure LaneSt where
  /-- RATE as applied; R230 -/
  rate : Nat := 0
  /-- TRAIN as applied; R230 -/
  train : Bool := false
  /-- FEC528 as applied; R230 -/
  fec528 : Bool := false
  /-- POL_TX as applied; R230 -/
  polTx : Bool := false
  /-- POL_RX as applied; R230 -/
  polRx : Bool := false
  /-- the enabled lane failed the checks of R231 and stays in IDLE -/
  cfgErr : Bool := false
  /-- a receiver lock as the rate and mode use them is lost; R236 -/
  rxLost : Bool := true
  /-- remote fault is received; R236 -/
  rf : Bool := false
  /-- a foreground calibration of the lane runs; R236 -/
  fgCal : Bool := false
  /-- adapted receive values, key group × 16 + index; R234 -/
  taps : Sparse := []
  /-- held receive values; R255 -/
  held : Sparse := []
  /-- held transmit coefficients PRE1, PRE2, POST1, MAIN; R255 -/
  heldTx : List Nat := []
  /-- frames sent and still kept for replay: frame, stack-wide port, sequence number, charged; R246 -/
  replay : List (QFrame × Nat × Nat) := []
  /-- transmit queue left, bytes, for the choice of R244 -/
  txLeft : Nat := 0
  /-- MAC control and PTP event frames waiting for the next frame boundary of Hn; R238, R211 -/
  ctlq : List Ctl := []
  /-- pause quanta last received for each class; R238 -/
  pauseQuanta : List Nat := [0, 0, 0, 0, 0, 0, 0, 0]
  /-- classes of LPn paused toward the host; R238 -/
  paused : Nat := 0
  /-- the transmitter of a retimed lane is idle in HOLD; R255 -/
  holdIdle : Bool := false
  /-- bytes of the frame last sent on by the retimer, or by far-end loopback, on this lane's transmitter; R29, R252, R264 -/
  wire : Bytes := []
  /-- bits inverted in the pattern being generated, ONE or PERIODIC; R263 -/
  injected : Nat := 0
  /-- eighths of a compared bit not yet counted; R262 -/
  patAcc : Nat := 0
  /-- the Clause 73 page last relayed onto this lane's transmitter; R252 -/
  page : Nat := 0
deriving DecidableEq, Repr

/-- A frame from the host held behind a missing number (R250). -/
structure HeldRx where
  /-- sequence number -/
  seq : Nat := 0
  /-- the frame without its tag -/
  frame : QFrame := {}
  /-- its class -/
  cls : Nat := 0
deriving DecidableEq, Repr

/-- The host group beyond its registers. -/
structure HgrpSt where
  /-- the Clause 119 PCS has deskewed the eight lanes; R239 -/
  deskewed : Bool := false
  /-- expected number E of each port, none before the first frame; R250 -/
  expect : List (Option Nat) := [none, none, none, none, none, none, none, none]
  /-- held frames of each port; R250 -/
  heldRx : List (List HeldRx) := [[], [], [], [], [], [], [], []]
  /-- frames to be sent again ahead of new ones; R246 -/
  replayq : List (QFrame × Nat × Nat) := []
  /-- replayed frames whose charge a restart discarded; R298 -/
  recharge : List (Nat × Nat) := []
deriving DecidableEq, Repr

/-- A control message of the Spine (09_spine_cascade.md R323). -/
structure SpMsg where
  /-- TYPE -/
  typ : Nat := 0
  /-- SEQ -/
  seq : Nat := 0
  /-- source position -/
  src : Nat := 0
  /-- destination: 0 to 3, or 15 for every device -/
  dst : Nat := 0
  /-- payload -/
  body : Bytes := []
deriving DecidableEq, Repr

/-- One Spine face beyond its registers. -/
structure FaceSt where
  /-- the transmit clock lane runs; R313, R332 -/
  clkTx : Bool := false
  /-- messages waiting to be sent; R324 -/
  queue : List SpMsg := []
  /-- the message outstanding and its sends; R324 -/
  out : Option (SpMsg × Nat) := none
  /-- SEQ of the next message, 8 bit; R324 -/
  seq : Nat := 0
  /-- SEQ of the last message acted on; R324 -/
  lastRx : Option Nat := none
  /-- acknowledgement last sent: its SEQ; R324 -/
  ackTx : Option Nat := none
  /-- COUNT of the last HELLO received; R327 -/
  peerCount : Nat := 0
  /-- COUNT last sent; R327 -/
  sentCount : Nat := 0
  /-- the expected HELLO has been received; R313 -/
  helloOk : Bool := false
  /-- own HELLO acknowledged; R313 -/
  helloAcked : Bool := false
  /-- D history, 2^-16 ns, the newest first, at most 64 values; R319 -/
  dHist : List Int := []
  /-- the width the outstanding FALLBACK names; R314 -/
  fallback : Option Nat := none
  /-- the neighbour announced that its clock will stop; R315 -/
  announced : Bool := false
  /-- the transmit clock stopped toward a sleeping tail, until WAKE_SOUTH; R332 -/
  stopped : Bool := false
  /-- cells that the neighbour lends; R301 -/
  lend : Nat := 0
  /-- frames asked back from the neighbour and not yet returned; R303 -/
  recalls : Nat := 0
  /-- the /C/ last sent, an acknowledgement too, from TYPE to its CRC-32; R323 -/
  wire : Bytes := []
  /-- the last /T/ sent, 32 bytes; R316 -/
  markTx : Bytes := []
  /-- the /S/ sets last sent, header, frame and check; R333 -/
  spillTx : List Bytes := []
  /-- mark count of the next forward mark, 8 bit; R316 -/
  markCount : Nat := 0
  /-- time of the last forward mark sent, 2^-16 ns; R319 -/
  markTime : Nat := 0
  /-- the mark to be answered by an echo: its count and receive time; R317 -/
  echoDue : Option (Nat × Nat) := none
deriving DecidableEq, Repr

/-- The Spine beyond its registers. -/
structure SpineSt where
  /-- north face -/
  north : FaceSt := {}
  /-- south face -/
  south : FaceSt := {}
  /-- a reset of this kind is due 10 µs after the acknowledgement; R331 -/
  resetDue : Option Nat := none
  /-- the south clock stops 10 µs after the acknowledgement of a sleep announcement; R332 -/
  stopDue : Bool := false
  /-- position of the acting head as last announced, 0: the head; R330 -/
  acting : Nat := 0
  /-- last ALERT_N state sent to the head; R328 -/
  alertSent : Bool := false
  /-- the sender's RATE of the last forward mark; R320 -/
  upRate : Int := 0
  /-- r − 1 as last measured, 2^-56 per step: r is the ratio of the north clock's frequency to TPLL's; R320 -/
  ratio : Int := 0
deriving DecidableEq, Repr

/-- The read latch of an interface: address of the latched value's lowest register and its words (10_register_fabric.md
R336). -/
structure Latch where
  /-- address of the lowest register -/
  base : Nat := 0
  /-- the words, lowest first -/
  words : List Nat := []
deriving DecidableEq, Repr

/-- The write staging buffer of an interface (R337). -/
structure Stage where
  /-- address of the lowest register of the value -/
  base : Nat := 0
  /-- staged words: place in the value, mask, data -/
  words : List (Nat × Nat × Nat) := []
deriving DecidableEq, Repr

/-- One interface of the fabric: 0 SPI_CS0_N, 1 SPI_CS1_N, 2 MDIO, 3 TWM, 4 Binder (R363). -/
structure IfcSt where
  /-- its latch -/
  latch : Latch := {}
  /-- its staging buffer -/
  stage : Option Stage := none
  /-- bytes returned by its last frame or transaction -/
  resp : Bytes := []
deriving DecidableEq, Repr

/-- A posted write on its way into the AON island (R357). -/
structure Posted where
  /-- register address -/
  addr : Nat := 0
  /-- mask -/
  mask : Nat := 0
  /-- data -/
  data : Nat := 0
deriving DecidableEq, Repr

/-- The register fabric and management interfaces beyond the registers. -/
structure FabSt where
  /-- the five interfaces -/
  ifcs : Vector IfcSt 5 := Vector.replicate 5 {}
  /-- posted writes in progress of CLK, PWR and SNS; R357 -/
  posted : Vector (Option Posted) 3 := Vector.replicate 3 none
  /-- TWM word address of the next access; R351 -/
  twmAddr : Nat := 0
  /-- OR of the status bytes of the last TWM write transaction; none when it carried no group; R351 -/
  twmStatus : Option Nat := none
  /-- TWM: the acknowledge of each byte of the last transaction, the address byte first; R350, R353 -/
  twmAcks : List Bool := []
  /-- MDIO: the register address that the last address frame of a PHY and MMD set, key port × 32 + MMD; R345 -/
  mdioAddr : Sparse := []
  /-- standard MMD fields without a counterpart register: key port × 0x200000 + MMD × 0x10000 + register; R347 -/
  mmd : Sparse := []
deriving DecidableEq, Repr

/-- The stored result of a mailbox's last completed command (11_binder_mailboxes.md R372). -/
structure MbRecord where
  /-- tag -/
  tag : Nat := 0
  /-- request checksum; R371 -/
  sum : Nat := 0
  /-- command ID -/
  cmd : Nat := 0
  /-- result code -/
  code : Nat := 0
  /-- result words -/
  res : List Nat := []
deriving DecidableEq, Repr

/-- A request as copied by the Binder (R368). -/
structure MbReq where
  /-- command ID -/
  cmd : Nat := 0
  /-- tag -/
  tag : Nat := 0
  /-- parameter words -/
  par : List Nat := []
  /-- MB2: position that sent it; R387 -/
  src : Nat := 0
deriving DecidableEq, Repr

/-- A mailbox beyond its registers. -/
structure MbSt where
  /-- the request being executed; R365 -/
  running : Option MbReq := none
  /-- a doorbell waits; R368, R369 -/
  waiting : Bool := false
  /-- the record; R372 -/
  record : Option MbRecord := none
  /-- MB2: position that sent the request in its registers; R387 -/
  source : Nat := 0
deriving DecidableEq, Repr

/-- A job slot beyond MBX_JOB_STAT (R374 to R376). -/
structure JobSt where
  /-- the request the job runs -/
  req : MbReq := {}
  /-- mailbox it came from -/
  mb : Nat := 0
  /-- result words, at most 30 -/
  res : List Nat := []
  /-- values the job keeps: for TIME_SLEW the RATE to restore, for REMOTE the results gathered -/
  keep : List Int := []
deriving DecidableEq, Repr

/-- The Binder beyond its registers. -/
structure BinderSt where
  /-- mailboxes MB0 to MB3 -/
  mbs : Vector MbSt 4 := Vector.replicate 4 {}
  /-- the job slots -/
  jobs : Vector JobSt 8 := Vector.replicate 8 {}
  /-- mailbox next in the round; R365 -/
  rr : Nat := 0
  /-- requests of STACK_ALL for this device that wait for MB2's registers; R383 -/
  own : List MbReq := []
deriving DecidableEq, Repr

/-- Clocks beyond their registers (12_clocks.md). Sources are bits 0 XA, 1 XB, 2 FOSC, 3 SOSC; loops are bits in the order of
CLK_LOOP_STAT: CPLL, TPLL, LPLL0, LPLL1, HPLL, SPLL. -/
structure ClkSt where
  /-- sources that have passed their stability count; R394 -/
  stable : Nat := 0xF
  /-- loops whose detector reports lock; R395 -/
  lock : Nat := 3
  /-- loops that are ready; R395 -/
  ready : Nat := 3
  /-- loops that hold; R392 -/
  hold : Nat := 0
  /-- loops whose output runs: ready since they were last off, or holding; R392, R398 -/
  run : Nat := 3
  /-- consecutive failing XA windows; R407 -/
  xaFails : Nat := 0
  /-- consecutive failing XB windows; R406, R407 -/
  xbFails : Nat := 0
  /-- passing XA windows in a row, at most 16; R412 -/
  xaPasses : Nat := 0
  /-- passing XB windows in a row, at most 16; R412 -/
  xbPasses : Nat := 0
  /-- sum of the counts of passing XA windows since the last mean; R404 -/
  refSum : Nat := 0
  /-- windows in that sum; R404 -/
  refCnt : Nat := 0
  /-- REF has been learned; R404 -/
  learned : Bool := false
  /-- XA tripped in a window against XB; R405, R407 -/
  vsTrip : Bool := false
  /-- TPLL takes XA as its reference; R406 -/
  tpllXa : Bool := false
  /-- the level that a change in progress goes to; R416 -/
  levelTo : Option Nat := none
  /-- a level written during a change; R418 -/
  levelNext : Option Nat := none
  /-- the VSEL1 and VSEL0 pins; R414 -/
  vsel : Nat := 1
  /-- TPLL count at the last change of VSEL; R528 -/
  vselAt : Option Nat := none
  /-- the level whose divisions run; R414, R418 -/
  div : Nat := 1
deriving DecidableEq, Repr

/-- A pending power request (13_power_and_reset.md R424, R425). -/
structure PwrReqSt where
  /-- state asked for: 1 Doze, 2 Nap, 3 Watch -/
  target : Nat := 0
  /-- delay in ms -/
  delay : Nat := 0
  /-- 0 register, 1 mailbox, 2 partner, 3 Spine -/
  by_ : Nat := 0
deriving DecidableEq, Repr

/-- Power states and resets beyond their registers (13_power_and_reset.md). -/
structure PwrSt where
  /-- 0 Run, 1 Doze, 2 Nap, 3 Watch, 4 Off; R420 -/
  mode : Nat := 0
  /-- the request pending; R425 -/
  req : Option PwrReqSt := none
  /-- its delay is over and entry waits for an MTP write; R426 -/
  due : Bool := false
  /-- steps ready of the wake in progress, none: no wake; R434 -/
  wake : Option Nat := none
  /-- TPLL count at the start of the last wake; R434 -/
  wakeAt : Nat := 0
  /-- a pin reset in sleep follows the wake steps; R446 -/
  pinDue : Bool := false
  /-- Doze ends within 20 µs; R423 -/
  dozeDue : Bool := false
  /-- RST_N is low; R444 -/
  rstLow : Bool := false
  /-- the RDY pin; R434, R442 -/
  rdy : Bool := true
  /-- signatures of the kept banks K0 to K3 as the AON island holds them; R437 -/
  keepSig : List (Option (BitVec 32)) := [none, none, none, none]
deriving DecidableEq, Repr

/-- A slot of the non-volatile memory (14_calibration_and_ageing.md R450 to R452). -/
structure NvmSlot where
  /-- its words without header and CRC, 32 bit each -/
  words : List Nat := []
  /-- sequence number of the header, 16 bit -/
  seq : Nat := 0
  /-- its CRC-32 checks and its header names its record -/
  good : Bool := true
deriving DecidableEq, Repr

/-- A record as loaded (R452). -/
structure NvmUse where
  /-- source in use: 0 design default, 1 OTP, 2 newer MTP slot, 3 older MTP slot -/
  source : Nat := 0
  /-- every source tried before it was good or never written; R472 -/
  ok : Bool := true
  /-- its words -/
  words : List Nat := []
deriving DecidableEq, Repr

/-- An MTP write that waits, with what caused it (R454). -/
structure MtpWrite where
  /-- record number; 256 + n: ledger place n -/
  record : Nat := 0
  /-- its words without header and CRC -/
  words : List Nat := []
  /-- the calibration target of a CAL_FG_CTL.SAVE or NVM_SAVE_CAL, whose failure CAL_FG_STAT shows -/
  target : Option Nat := none
deriving DecidableEq, Repr

/-- Calibration and non-volatile memory beyond their registers (14_calibration_and_ageing.md). -/
structure CalSt where
  /-- OTP records by number; R451 -/
  otp : List (Nat × NvmSlot) := []
  /-- MTP slots, key record × 2 + slot; R451 -/
  mtp : List (Nat × NvmSlot) := []
  /-- writes of each MTP record; R454 -/
  writes : Sparse := []
  /-- records in use since the last load; R452 -/
  use : List (Nat × NvmUse) := []
  /-- MTP writes waiting, the first in progress; R454 -/
  mtpq : List MtpWrite := []
  /-- trim values, key target × 256 + index: 0 to 191 sub-ADC trims and 192 the hybrid trim of a port; R455 -/
  cur : Sparse := []
  /-- trim targets; R455 -/
  tgt : Sparse := []
  /-- trim values of the last foreground calibration; R456 -/
  fg : Sparse := []
  /-- highest die temperature at the last foreground calibration, 0.125 °C steps, key target; R461 -/
  temps : Sparse := []
  /-- foreground calibrations that run: target and TPLL count at the start; R457 to R460 -/
  running : List (Nat × Nat) := []
  /-- result of the last foreground calibration, key target; R460 -/
  ended : Sparse := []
  /-- TPLL cycles of Run; R461 -/
  runCyc : Nat := 0
  /-- their count at the last foreground calibration, key target; R461 -/
  lastFg : Sparse := []
  /-- target of the scheduler's calibration in progress; R461 -/
  sched : Option Nat := none
  /-- 1 + the state in which the scheduler was refused with REFUSED_STATE, key target; R461 -/
  held : Sparse := []
  /-- TPLL count from which a target refused with REFUSED_PARTNER is tried again, key target; R461 -/
  retryAt : Sparse := []
deriving DecidableEq, Repr

/-- A proposal of the planner (14_calibration_and_ageing.md R468, R469). -/
structure AgeProp where
  /-- action word -/
  word : Nat := 0
  /-- powered hour at which its notice ends -/
  dueAt : Nat := 0
  /-- approved -/
  approved : Bool := false
  /-- hourly tries made; R471 -/
  tries : Nat := 0
  /-- its register has been written by a try -/
  wrote : Bool := false
  /-- a reload for it runs; R468, R471 -/
  inReload : Bool := false
deriving DecidableEq, Repr

/-- The margins of one target over the ledger period (R464, R466). -/
structure AgeSum where
  /-- sum of the hourly values -/
  sum : Int := 0
  /-- hours measured -/
  n : Nat := 0
  /-- the target was up the whole hour so far; R464 -/
  whole : Bool := false
  /-- lowest value in this hour -/
  low : Option Int := none
deriving DecidableEq, Repr

/-- A ledger entry (R466): its 16 words, and whether its CRC checks. -/
structure AgeEntry where
  /-- words 0 to 15 -/
  words : List Nat := []
  /-- good; R453 -/
  good : Bool := true
deriving DecidableEq, Repr

/-- An hour-log record (R465). -/
structure HourRec where
  /-- powered hours -/
  hours : Nat := 0
  /-- hours at L2 -/
  l2 : Nat := 0
  /-- the running sums of the period then -/
  sums : Vector AgeSum 24 := Vector.replicate 24 {}
  /-- temperature sum, hours, highest -/
  temp : Int × Nat × Int := (0, 0, 0)
  /-- its place in the rotation of 16 -/
  slot : Nat := 0
  /-- good -/
  good : Bool := true
deriving DecidableEq, Repr

/-- Ageing beyond its registers (14_calibration_and_ageing.md). -/
structure AgeSt where
  /-- TPLL cycles of the powered hour in progress; R465 -/
  cyc : Nat := 0
  /-- TPLL cycles of the hour at L2 in progress; R465 -/
  cycL2 : Nat := 0
  /-- last island values d in ppm; R463 -/
  d : List Int := [0, 0, 0, 0, 0, 0, 0, 0]
  /-- margins of the ports in 0.1 dB and eye heights of the lanes in mV; R464 -/
  sums : Vector AgeSum 24 := Vector.replicate 24 {}
  /-- hourly highest die temperatures: sum, hours, highest, in 0.125 °C; R464, R466 -/
  tSum : Int := 0
  /-- hours in the sum -/
  tN : Nat := 0
  /-- highest -/
  tMax : Int := 0
  /-- highest die temperature of this hour -/
  tHour : Option Int := none
  /-- an action was taken in the period; R466 -/
  acted : Bool := false
  /-- ledger entries, newest first, at most 192; R466 -/
  ledger : List AgeEntry := []
  /-- sequence of the next entry, 16 bit -/
  seq : Nat := 0
  /-- VDD_CORE guard steps in force, 0 to 4; R468 -/
  guard : Nat := 0
  /-- pending proposals; R469 -/
  props : Vector (Option AgeProp) 4 := Vector.replicate 4 none
  /-- sequence of the next proposal, 8 bit; R468 -/
  propSeq : Nat := 0
  /-- last action word of each target, key its number; R469 -/
  last : Sparse := []
  /-- powered hour + 1 at which an action was last taken or failed, key target; R469 -/
  lastAt : Sparse := []
  /-- ledger entry sequence + 1 at the last action taken, key target; R467 -/
  sinceSeq : Sparse := []
  /-- entries written in all; R467 -/
  total : Nat := 0
  /-- fewer than two entries a year apart: R467 uses the assumed 3,000 h per year -/
  rateEst : Bool := true
  /-- the hour log, newest first, 16 records; R465 -/
  log : List HourRec := []
deriving DecidableEq, Repr

/-- A frame that a Roll engine holds (15_self_test_and_faults.md R491, R493). -/
structure RollHeld where
  /-- the frame -/
  bytes : Bytes := []
  /-- later frames still to pass, for REORDER -/
  left : Nat := 0
deriving DecidableEq, Repr

/-- A Roll engine beyond its registers (R490 to R494). -/
structure RollSt where
  /-- LFSR, 32 bit; R492 -/
  lfsr : Nat := 1
  /-- events since the write that enabled it; R492 -/
  count : Nat := 0
  /-- frames held, the oldest first; R493 -/
  held : List RollHeld := []
  /-- the held frames are a DELAY's, so that every later frame joins them; R491 -/
  delaying : Bool := false
  /-- frames that left the engine at its last event or release -/
  out : List Bytes := []
  /-- symbols, bits or chips altered at its last action; R491 -/
  altered : Nat := 0
deriving DecidableEq, Repr

/-- Self test and Roll beyond their registers (15_self_test_and_faults.md). -/
structure BistSt where
  /-- target of the running test; R476 -/
  run : Option Nat := none
  /-- the Quire bank out of the rotation for a test; R476, R482 -/
  bank : Option Nat := none
  /-- passes run -/
  passes : Nat := 0
  /-- a failure of pass 1 is not covered, or pass 2 has a miscompare; R477, R478 -/
  bad : Bool := false
  /-- the signature of a pass differs; R478 -/
  sigBad : Bool := false
  /-- first failing word and bit of pass 1; R479 -/
  first : Option (Nat × Nat) := none
  /-- spares of the Quire banks: key bank × 16 + 0 to 7 for rows, + 8, 9 for columns; value 1 + row or bit; R475, R484 -/
  spares : Sparse := []
  /-- the Roll engines; R490 -/
  engines : Vector RollSt 26 := Vector.replicate 26 {}
deriving DecidableEq, Repr

/-- One performance counter unit (16_counters.md R499). -/
structure PmcSt where
  /-- the value software last wrote to each programmable counter, 32 bit; R505 -/
  last : List Nat := [0, 0, 0, 0, 0, 0, 0, 0]
  /-- part of a root cycle not yet counted, in 1/1,250,000 of a cycle; R502 -/
  frac : Nat := 0
  /-- the command ID the Binder runs, 0 when idle; R509 -/
  cmd : Nat := 0
deriving DecidableEq, Repr

/-- A line port: its units beyond the registers. -/
structure PortSt where
  /-- link -/
  link : LinkSt := {}
  /-- Pip channel -/
  pip : PipSt := {}
  /-- Octavo -/
  oct : OctSt := {}
  /-- cable diagnostics, delay and idle -/
  diag : DiagSt := {}
deriving DecidableEq, Repr

/-- The part without its lock and its waiting commands. -/
structure Chip where
  /-- the register store -/
  regs : Regs := []
  /-- LP0 to LP7 -/
  ports : Vector PortSt 8 := Vector.replicate 8 {}
  /-- H0 to H7, T0 to T7 -/
  lanes : Vector LaneSt 16 := Vector.replicate 16 {}
  /-- the host group -/
  hgrp : HgrpSt := {}
  /-- Quire -/
  quire : QuireSt := {}
  /-- Folio -/
  folio : FolioSt := {}
  /-- Spine -/
  spine : SpineSt := {}
  /-- register fabric and interfaces -/
  fab : FabSt := {}
  /-- Binder -/
  binder : BinderSt := {}
  /-- clocks -/
  clk : ClkSt := {}
  /-- power -/
  pwr : PwrSt := {}
  /-- calibration -/
  cal : CalSt := {}
  /-- ageing -/
  age : AgeSt := {}
  /-- self test -/
  bist : BistSt := {}
  /-- performance counters: 0 the core's, 1 Quire's -/
  pmc : Vector PmcSt 2 := Vector.replicate 2 {}
  /-- TPLL cycles since power on, the model's clock; R43 -/
  tpll : Nat := 0
  /-- the model's own counter that free values are applied to (log entry 1) -/
  freeCtr : Nat := 0
deriving DecidableEq, Repr

/-- The register REG_LOCK, whose fields only a power-on reset clears (00_scope.md R14, 10_register_fabric.md R361). -/
structure LockSt where
  /-- the fields that hold 1, bit k for bit k -/
  bits : BitVec 16 := 0
  /-- the fields that have had their one write, bit k for bit k -/
  written : BitVec 16 := 0
deriving DecidableEq, Repr

/-- The machine. -/
structure State where
  /-- the part -/
  chip : Chip
  /-- REG_LOCK -/
  lock : LockSt
  /-- the commands waiting, first in, first out (the model's own field, the commands' queue) -/
  pending : List Instr
deriving DecidableEq, Repr

/-- The machine right after reset. -/
def State.reset : State := { chip := {}, lock := {}, pending := [] }

/-- What a meaning answers. -/
abbrev Res := Host.Outcome State Fault Refusal

/-- A command that changes the part alone. -/
abbrev State.act (s : State) (f : Chip → Chip) : Res := .next { s with chip := f s.chip }

end Sys2Proof.Machine
end

