-- ==== Sys2Proof/Machine/Operands.lean ====
section
/-! DEFINITION. The operand forms: addresses of registers (R12, R531 to R533), the register store with its reset values
(R19), the read and the hardware write of a field, of a wide value and of a signed field, and the fixed-key stores. -/

namespace Sys2Proof.Machine

/-- The registers of a block by its number (R531). -/
def blockRegs (b : Nat) : List RegDef :=
  match b with
  | 0x00 => glbRegs
  | 0x01 => clkRegs
  | 0x02 => pwrRegs
  | 0x03 => calRegs
  | 0x04 => ageRegs
  | 0x05 => bistRegs
  | 0x06 => tapRegs
  | 0x07 => snsRegs
  | 0x08 => mbxRegs
  | 0x09 => pmcRegs
  | 0x0A => quireRegs
  | 0x0B => folioRegs
  | 0x0C => spineRegs
  | 0x0D => rollRegs
  | 0x0E => regRegs
  | 0x30 => hgrpRegs
  | 0x7E => mmdRegs
  | _ => if 0x10 ≤ b ∧ b < 0x18 then lpRegs else if 0x20 ≤ b ∧ b < 0x30 then laneRegs else []

abbrev GLB : Nat := 0x0
abbrev CLK : Nat := 0x1000
abbrev PWR : Nat := 0x2000
abbrev CAL : Nat := 0x3000
abbrev AGE : Nat := 0x4000
abbrev BIST : Nat := 0x5000
abbrev TAP : Nat := 0x6000
abbrev SNS : Nat := 0x7000
abbrev MBX : Nat := 0x8000
abbrev PMC : Nat := 0x9000
abbrev QUIRE : Nat := 0xA000
abbrev FOLIO : Nat := 0xB000
abbrev SPINE : Nat := 0xC000
abbrev ROLL : Nat := 0xD000
abbrev REGB : Nat := 0xE000
abbrev HGRP : Nat := 0x30000
/-- Where the store keeps the window registers of MMD 30 (R348); the fabric maps no register there. -/
abbrev MMDW : Nat := 0x7E000
/-- Base of block LPn (R531). -/
abbrev lpB (p : Port) : Nat := 0x10000 + 0x1000 * p.val
/-- Base of block Hn or Tn (R531). -/
abbrev laneB (l : Lane) : Nat := 0x20000 + 0x1000 * l.val
/-- Base of the SPINE registers of a face (R334). -/
abbrev faceB (f : Face) : Nat := match f with | .n => 0xC100 | .s => 0xC180
/-- Base of the counters of a face (R499). -/
abbrev faceC (f : Face) : Nat := match f with | .n => 0xC200 | .s => 0xC280
/-- A register behind a selector: the copy of it that selector value n shows. -/
abbrev bk (n a : Nat) : Nat := a + 0x80000 * n

/-- The definition of the register at a key of the store. -/
def findReg (a : Nat) : Option RegDef :=
  (blockRegs (a / 0x1000 % 0x80)).find? fun d => decide (d.off ≤ a % 0x1000 ∧ a % 0x1000 < d.off + d.cnt)

/-- A register with every field at its Reset value (R19). -/
def resetWord (fs : List FieldDef) : Nat := fs.foldl (fun n f => n + f.rst * 2 ^ f.lo) 0

/-- What a register that the store does not list holds: its reset value; LPn_PFC_SA holds a free value (log entry 10). -/
def resetOf (a : Nat) : BitVec 16 :=
  match findReg a with
  | none => 0
  | some d =>
    if d.off = PFC_SA_ADDR.off ∧ 0x10 ≤ a / 0x1000 ∧ a / 0x1000 < 0x18 then
      ((Config.pfcSa 0 (a / 0x1000 % 8)) >>> (16 * (a % 0x1000 - d.off))).setWidth 16
    else BitVec.ofNat 16 (resetWord d.fields)

/-- The listed value of a key. -/
def Regs.find (r : Regs) (a : Nat) : Option (BitVec 16) :=
  match r with
  | [] => none
  | (k, v) :: t => if k = a then some v else Regs.find t a

/-- Lists a value under a key, in order. -/
def Regs.insert (r : Regs) (a : Nat) (v : BitVec 16) : Regs :=
  match r with
  | [] => [(a, v)]
  | (k, w) :: t => if a < k then (a, v) :: (k, w) :: t else if a = k then (a, v) :: t else (k, w) :: Regs.insert t a v

/-- Takes a key off the list. -/
def Regs.erase (r : Regs) (a : Nat) : Regs :=
  match r with
  | [] => []
  | (k, w) :: t => if k = a then Regs.erase t a else (k, w) :: Regs.erase t a

/-- The word a register holds. -/
def Chip.reg (c : Chip) (a : Nat) : BitVec 16 := (c.regs.find a).getD (resetOf a)

/-- Sets the word a register holds. -/
def Chip.setReg (c : Chip) (a : Nat) (v : BitVec 16) : Chip :=
  { c with regs := if v = resetOf a then c.regs.erase a else c.regs.insert a v }

/-- The bits of a word under a field of width w from bit lo. -/
def fieldMask (lo w : Nat) : BitVec 16 := BitVec.ofNat 16 ((2 ^ w - 1) * 2 ^ lo)

/-- A word with the field at lo, w replaced by v. -/
def splice (x : BitVec 16) (lo w v : Nat) : BitVec 16 :=
  (x &&& ~~~(fieldMask lo w)) ||| BitVec.ofNat 16 (v % 2 ^ w * 2 ^ lo)

/-- The value of a field of the block at base b. -/
def Chip.get (c : Chip) (b : Nat) (f : Fld) : Nat := (c.reg (b + f.off)).toNat / 2 ^ f.lo % 2 ^ f.w

/-- The hardware sets a field. -/
def Chip.put (c : Chip) (b : Nat) (f : Fld) (v : Nat) : Chip :=
  c.setReg (b + f.off) (splice (c.reg (b + f.off)) f.lo f.w v)

/-- Whether a one-bit field holds 1. -/
def Chip.on (c : Chip) (b : Nat) (f : Fld) : Bool := c.get b f == 1

/-- The hardware sets a one-bit field from a truth value. -/
def Chip.putB (c : Chip) (b : Nat) (f : Fld) (v : Bool) : Chip := c.put b f v.toNat

/-- Bit k of a field. -/
def Chip.bit (c : Chip) (b : Nat) (f : Fld) (k : Nat) : Bool := (c.get b f).testBit k

/-- Sets bit k of a field. -/
def Chip.putBit (c : Chip) (b : Nat) (f : Fld) (k : Nat) (v : Bool) : Chip :=
  c.put b ⟨f.off, f.lo + k, 1⟩ v.toNat

/-- The signed value of an n-bit pattern. -/
def signed (n v : Nat) : Int := if v % 2 ^ n < 2 ^ (n - 1) then (v % 2 ^ n : Nat) else (v % 2 ^ n : Nat) - (2 ^ n : Nat)

/-- The n-bit pattern of a signed value. -/
def unsigned (n : Nat) (v : Int) : Nat := (v % (2 ^ n : Nat)).toNat

/-- A value held within the range of n bits signed. -/
def satS (n : Nat) (v : Int) : Int := max (-(2 ^ (n - 1) : Nat)) (min ((2 ^ (n - 1) - 1 : Nat)) v)

/-- A value held within the range of n bits unsigned. -/
def satU (n v : Nat) : Nat := min v (2 ^ n - 1)

/-- The signed value of a field. -/
def Chip.getS (c : Chip) (b : Nat) (f : Fld) : Int := signed f.w (c.get b f)

/-- The hardware sets a signed field. -/
def Chip.putS (c : Chip) (b : Nat) (f : Fld) (v : Int) : Chip := c.put b f (unsigned f.w v)

/-- A wide value of n registers from key a, the lowest register least significant (R336). -/
def Chip.wide (c : Chip) (a n : Nat) : Nat :=
  match n with
  | 0 => 0
  | n + 1 => (c.reg a).toNat + 2 ^ 16 * Chip.wide c (a + 1) n

/-- The hardware sets a wide value of n registers from key a. -/
def Chip.putWide (c : Chip) (a n v : Nat) : Chip :=
  match n with
  | 0 => c
  | n + 1 => Chip.putWide (c.setReg a (BitVec.ofNat 16 v)) (a + 1) n (v / 2 ^ 16)

/-- The value a fixed-key store holds under a key. -/
def Sparse.get (l : Sparse) (k : Nat) : Int :=
  match l with
  | [] => 0
  | (a, v) :: t => if a = k then v else Sparse.get t k

/-- Takes a key off the list. -/
def Sparse.erase (l : Sparse) (k : Nat) : Sparse :=
  match l with
  | [] => []
  | (a, w) :: t => if a = k then Sparse.erase t k else (a, w) :: Sparse.erase t k

/-- Lists a value under a key, in order. -/
def Sparse.insert (l : Sparse) (k : Nat) (v : Int) : Sparse :=
  match l with
  | [] => [(k, v)]
  | (a, w) :: t => if k < a then (k, v) :: (a, w) :: t else if k = a then (k, v) :: t else (a, w) :: Sparse.insert t k v

/-- Sets the value under a key, keeping the keys in order and listing no 0. -/
def Sparse.set (l : Sparse) (k : Nat) (v : Int) : Sparse := if v = 0 then l.erase k else l.insert k v

end Sys2Proof.Machine
end

