-- ==== Sys2Proof/Machine/Flags.lean ====
section
/-! DEFINITION. Event bits, event counters with their wrap bits (R496 to R500), the privileged counter units (R502 to
R506) and the alert tree (R535). -/

namespace Sys2Proof.Machine

/-- An event sets its bit; an event field stays set until software clears it (R362). -/
def Chip.evt (c : Chip) (b : Nat) (f : Fld) : Chip := c.put b f 1

/-- Counter k of the area at key a with wrap registers at key w counts n (R496, R497, R499). -/
def Chip.bump (c : Chip) (a w k n : Nat) : Chip :=
  let v := c.wide (a + 4 * k) 3 + n
  let c := c.putWide (a + 4 * k) 3 (v % 2 ^ 48)
  if v < 2 ^ 48 then c else c.putBit (w + k / 16) ⟨0, 0, 16⟩ (k % 16) true

/-- A counter of line port p (R500). -/
def Chip.bumpLp (c : Chip) (p : Port) (k n : Nat) : Chip := c.bump (lpB p + 0xC00) (lpB p + 0xDF0) k n
/-- A counter of a lane. -/
def Chip.bumpLane (c : Chip) (l : Lane) (k n : Nat) : Chip := c.bump (laneB l + 0x200) (laneB l + 0x2F0) k n
/-- A counter of the host group. -/
def Chip.bumpHgrp (c : Chip) (k n : Nat) : Chip := c.bump (HGRP + 0x200) (HGRP + 0x2F0) k n
/-- A counter of a Spine face. -/
def Chip.bumpFace (c : Chip) (f : Face) (k n : Nat) : Chip := c.bump (faceC f) (faceC f + 0x70) k n

/-- The base of a privileged unit: 0 the Binder's, 1 Quire's (R502). -/
def pmcB (u : Fin 2) : Nat := if u = 0 then PMC else QUIRE + 0x300

/-- Takes a sample for counter k of unit u unless one is held (R505); what it holds is a free value (log entry 14). -/
def Chip.pmcSample (c : Chip) (u : Fin 2) (k : Nat) : Chip :=
  if c.on (pmcB u) PMC_SAMPLE_SRC_VALID then c
  else
    let c := c.putWide (pmcB u + PMC_SAMPLE_SAMPLE.off) 2
      (if u = 0 then (Config.pmcSample 0 c.freeCtr).toNat % 2 ^ 16 + 2 ^ 16 * c.pmc[0].cmd
       else (Config.pmcSample 1 c.freeCtr).toNat % 2 ^ 13 / 2 ^ 8 * 2 ^ 8 + (Config.pmcSample 1 c.freeCtr).toNat % 2 ^ 7)
    let c := (c.put (pmcB u) PMC_SAMPLE_SRC_CTR k).put (pmcB u) PMC_SAMPLE_SRC_VALID 1
    { c with freeCtr := c.freeCtr + 1 }

/-- What counter k of unit u does when it passes from 0xFFFF_FFFF to 0: its OVF bit, the value it goes on from, and the
sample (R505); x is what it counted beyond the overflow. -/
def Chip.pmcWrap (c : Chip) (u : Fin 2) (k x : Nat) : Chip :=
  let c := c.putBit (pmcB u) PMC_OVF_OVF k true
  let base := if c.bit (pmcB u) PMC_IRQ_RELOAD k then c.pmc[u].last.getD k 0 else 0
  let c := c.putWide (pmcB u + PMC_CNT_COUNT.off + 2 * k) 2 ((base + x) % 2 ^ 32)
  if c.bit (pmcB u) PMC_IRQ_IRQ_EN k then c.pmcSample u k else c

/-- Whether counter k is an odd counter that counts the overflows of counter k − 1 (R504). -/
def Chip.pmcChained (c : Chip) (u : Fin 2) (k : Nat) : Bool := k % 2 == 1 && c.bit (pmcB u) PMC_CTL_CHAIN (k / 2)

/-- Counter k alone counts n, n below 2^32. -/
def Chip.pmcAdd1 (c : Chip) (u : Fin 2) (k n : Nat) : Chip :=
  let v := c.wide (pmcB u + PMC_CNT_COUNT.off + 2 * k) 2 + n
  if v < 2 ^ 32 then c.putWide (pmcB u + PMC_CNT_COUNT.off + 2 * k) 2 v else c.pmcWrap u k (v - 2 ^ 32)

/-- Counter k counts n and carries an overflow into a counter chained to it (R504). -/
def Chip.pmcAdd (c : Chip) (u : Fin 2) (k n : Nat) : Chip :=
  let carry := 2 ^ 32 ≤ c.wide (pmcB u + PMC_CNT_COUNT.off + 2 * k) 2 + n
  let c := c.pmcAdd1 u k n
  if carry ∧ k % 2 = 0 ∧ c.pmcChained u (k + 1) ∧ c.bit (pmcB u) PMC_CTL_EN (k + 1) then c.pmcAdd1 u (k + 1) 1 else c

/-- An event of unit u (R507): every enabled counter whose SEL names it, and that is not chained, counts n (R503). -/
def Chip.pmcEvt (c : Chip) (u : Fin 2) (sel n : Nat) : Chip :=
  if c.get (pmcB u) PMC_CTL_EN = 0 then c
  else (List.range 8).foldl (fun c k =>
    if c.bit (pmcB u) PMC_CTL_EN k ∧ c.pmcChained u k = false ∧ c.get (pmcB u + k) PMC_SEL_EVENT = sel then c.pmcAdd u k n
    else c) c

/-- A counter of Quire; the discards also count as a Quire performance event (R500, R507). -/
def Chip.bumpQ (c : Chip) (k n : Nat) : Chip := c.bump (QUIRE + 0x200) (QUIRE + 0x2F0) k n

/-- An event register of the block at b and its mask register hold a set bit under a mask bit of 1. -/
def Chip.asserted (c : Chip) (b evtOff maskOff : Nat) : Bool := (c.reg (b + evtOff) &&& c.reg (b + maskOff)) != 0

/-- The performance alert source of unit u: a set OVF bit with a set IRQ_EN bit (R505). -/
def Chip.pmcAlert (c : Chip) (u : Fin 2) : Bool := (c.get (pmcB u) PMC_OVF_OVF &&& c.get (pmcB u) PMC_IRQ_IRQ_EN) != 0

/-- The island that source group k of GLB_ALERT lies in, in the order of PWR_ISLANDS (01_architecture.md R21). -/
def alertIsland (k : Nat) : Nat :=
  if k < 4 then 2 else if k < 8 then 3 else if k < 25 then 4
  else match k with | 25 => 5 | 26 => 6 | 27 => 7 | 29 => 0 | _ => 1

/-- Whether source group k of GLB_ALERT is asserted (R535); an island without power asserts nothing (R440). -/
def Chip.alert (c : Chip) (k : Nat) : Bool :=
  c.bit PWR PWR_ISLANDS_ON (alertIsland k) &&
  if k < 8 then
    [0x608, 0x720, 0x910, 0xA20, 0xE10].any fun o => c.asserted (0x10000 + 0x1000 * k) o (o + 1)
  else if k < 24 then c.asserted (0x20000 + 0x1000 * (k - 8)) 2 3
  else match k with
    | 24 => c.asserted HGRP 0x20 0x21
    | 25 => c.asserted QUIRE 0x60 0x61 || c.pmcAlert 1
    | 26 => c.asserted FOLIO 0x60 0x61
    | 27 => c.asserted (faceB .n) 0x10 0x11 || c.asserted (faceB .s) 0x10 0x11 || c.get SPINE SPINE_TAIL_ALERT_ALERT != 0
    | 28 => c.asserted MBX 0x400 0x401 || c.pmcAlert 0
    | 29 => c.asserted CLK 0x30 0x32
    | 30 => c.asserted CAL 0x40 0x41 || c.asserted AGE 0x30 0x31
    | 31 => c.asserted BIST 0x20 0x21 || c.asserted SNS 0x12 0x14
    | _ => false

/-- A number from its bits, bit 0 first. -/
def ofBits (l : List Bool) : Nat := l.foldr (fun b n => b.toNat + 2 * n) 0

/-- GLB_ALERT as one value of 32 bits. -/
def Chip.alertWord (c : Chip) : Nat := ofBits ((List.range 32).map c.alert)

/-- GLB_NME: the non-maskable events (R411, R528). -/
def Chip.nme (c : Chip) : Nat := (c.on CLK CLK_EVT_NME_CLK).toNat + 2 * (c.on SNS SNS_EVT_NME_THERM).toNat

/-- ALERT_N is driven low (R535); in Nap, Watch and Off, and while RST_N is low, the ball is released (R448). -/
def Chip.alertLow (c : Chip) : Bool :=
  decide (c.pwr.mode ≤ 1) && !c.pwr.rstLow && ((c.alertWord &&& c.wide (GLB + GLB_ALERT_MASK_EN.off) 2) != 0 || c.nme != 0)

end Sys2Proof.Machine
end

