-- ==== Sys2Proof/Machine/Ops.lean ====
section
/-! DEFINITION. The named operations over ports, lanes, queues and the register store that the families share. -/

namespace Sys2Proof.Machine

/-- Line port p. -/
abbrev Chip.port (c : Chip) (p : Port) : PortSt := c.ports[p]
/-- Changes line port p. -/
def Chip.modPort (c : Chip) (p : Port) (f : PortSt → PortSt) : Chip :=
  { c with ports := c.ports.set p.val (f c.ports[p]) }
/-- Changes the link state of port p beyond its registers. -/
def Chip.modLink (c : Chip) (p : Port) (f : LinkSt → LinkSt) : Chip := c.modPort p fun x => { x with link := f x.link }
/-- Changes the Pip state of port p. -/
def Chip.modPip (c : Chip) (p : Port) (f : PipSt → PipSt) : Chip := c.modPort p fun x => { x with pip := f x.pip }
/-- Changes the Octavo state of port p. -/
def Chip.modOct (c : Chip) (p : Port) (f : OctSt → OctSt) : Chip := c.modPort p fun x => { x with oct := f x.oct }
/-- Changes the diagnostics state of port p. -/
def Chip.modDiag (c : Chip) (p : Port) (f : DiagSt → DiagSt) : Chip := c.modPort p fun x => { x with diag := f x.diag }
/-- Changes a lane. -/
def Chip.modLane (c : Chip) (l : Lane) (f : LaneSt → LaneSt) : Chip :=
  { c with lanes := c.lanes.set l.val (f c.lanes[l]) }
/-- Changes a queue of Quire. -/
def Chip.modQ (c : Chip) (q : Queue) (f : QSt → QSt) : Chip :=
  { c with quire := { c.quire with queues := c.quire.queues.set q.val (f c.quire.queues[q]) } }
/-- Changes an output of Quire. -/
def Chip.modOut (c : Chip) (o : Fin 9) (f : OutSt → OutSt) : Chip :=
  { c with quire := { c.quire with outs := c.quire.outs.set o.val (f c.quire.outs[o]) } }
/-- Changes Quire beyond queues and outputs. -/
def Chip.modQuire (c : Chip) (f : QuireSt → QuireSt) : Chip := { c with quire := f c.quire }
/-- Changes Folio. -/
def Chip.modFolio (c : Chip) (f : FolioSt → FolioSt) : Chip := { c with folio := f c.folio }
/-- Changes a PTP port. -/
def Chip.modPtp (c : Chip) (i : Fin 16) (f : PtpSt → PtpSt) : Chip :=
  c.modFolio fun x => { x with ptp := x.ptp.set i.val (f x.ptp[i]) }
/-- Changes a capture input. -/
def Chip.modCap (c : Chip) (i : Fin 4) (f : CapSt → CapSt) : Chip :=
  c.modFolio fun x => { x with caps := x.caps.set i.val (f x.caps[i]) }
/-- Changes an event output. -/
def Chip.modEvo (c : Chip) (i : Fin 4) (f : EvtOut → EvtOut) : Chip :=
  c.modFolio fun x => { x with outs := x.outs.set i.val (f x.outs[i]) }
/-- A Spine face. -/
def Chip.face (c : Chip) (f : Face) : FaceSt := match f with | .n => c.spine.north | .s => c.spine.south
/-- Changes a Spine face. -/
def Chip.modFace (c : Chip) (f : Face) (g : FaceSt → FaceSt) : Chip :=
  match f with
  | .n => { c with spine := { c.spine with north := g c.spine.north } }
  | .s => { c with spine := { c.spine with south := g c.spine.south } }
/-- Changes the Spine beyond its faces. -/
def Chip.modSpine (c : Chip) (g : SpineSt → SpineSt) : Chip := { c with spine := g c.spine }
/-- The host group. -/
def Chip.modHgrp (c : Chip) (g : HgrpSt → HgrpSt) : Chip := { c with hgrp := g c.hgrp }
/-- The place of an interface in R363's numbering. -/
def ifcNum (i : Ifc) : Fin 5 := match i with | .spi0 => 0 | .spi1 => 1 | .mdio => 2 | .twm => 3 | .binder => 4
/-- Changes an interface. -/
def Chip.modIfc (c : Chip) (i : Ifc) (f : IfcSt → IfcSt) : Chip :=
  { c with fab := { c.fab with ifcs := c.fab.ifcs.set (ifcNum i).val (f c.fab.ifcs[ifcNum i]) } }
/-- Changes the fabric beyond its interfaces. -/
def Chip.modFab (c : Chip) (f : FabSt → FabSt) : Chip := { c with fab := f c.fab }
/-- Changes the Binder. -/
def Chip.modBinder (c : Chip) (f : BinderSt → BinderSt) : Chip := { c with binder := f c.binder }
/-- Changes a mailbox. -/
def Chip.modMb (c : Chip) (m : Fin 4) (f : MbSt → MbSt) : Chip :=
  c.modBinder fun b => { b with mbs := b.mbs.set m.val (f b.mbs[m]) }
/-- Changes a job slot. -/
def Chip.modJob (c : Chip) (j : Fin 8) (f : JobSt → JobSt) : Chip :=
  c.modBinder fun b => { b with jobs := b.jobs.set j.val (f b.jobs[j]) }
/-- Changes the clocks. -/
def Chip.modClk (c : Chip) (f : ClkSt → ClkSt) : Chip := { c with clk := f c.clk }
/-- Changes power and resets. -/
def Chip.modPwr (c : Chip) (f : PwrSt → PwrSt) : Chip := { c with pwr := f c.pwr }
/-- Changes calibration. -/
def Chip.modCal (c : Chip) (f : CalSt → CalSt) : Chip := { c with cal := f c.cal }
/-- Changes ageing. -/
def Chip.modAge (c : Chip) (f : AgeSt → AgeSt) : Chip := { c with age := f c.age }
/-- Changes self test. -/
def Chip.modBist (c : Chip) (f : BistSt → BistSt) : Chip := { c with bist := f c.bist }

/-- Uses up one free value. -/
def Chip.tickFree (c : Chip) : Chip := { c with freeCtr := c.freeCtr + 1 }

/-- All ports in order. -/
def allPorts : List Port := [0, 1, 2, 3, 4, 5, 6, 7]
/-- All lanes in order. -/
def allLanes : List Lane := [0, 1, 2, 3, 4, 5, 6, 7, 8, 9, 10, 11, 12, 13, 14, 15]
/-- The host lanes H0 to H7. -/
def hostLanes : List Lane := [0, 1, 2, 3, 4, 5, 6, 7]

/-- Applies a change for each member of a list, the first first. -/
def Chip.each (c : Chip) (l : List α) (f : Chip → α → Chip) : Chip :=
  match l with
  | [] => c
  | x :: t => Chip.each (f c x) t f

/-- A word v whose fields keep their value where `k` says so and else take that of the reset word r (R19, R20). -/
def keepWord (fs : List FieldDef) (k : FieldDef → Bool) (r v : BitVec 16) : BitVec 16 :=
  match fs with
  | [] => r
  | f :: t => if k f then splice (keepWord t k r v) f.lo f.w (v.toNat / 2 ^ f.lo) else keepWord t k r v

/-- The listed registers that `which` names, each field that `k` does not keep put back to its reset value. -/
def Regs.keep (r : Regs) (which : Nat → Bool) (k : FieldDef → Bool) : Regs :=
  match r with
  | [] => []
  | (a, v) :: t =>
    if which a then
      match findReg a with
      | none => Regs.keep t which k
      | some d =>
        let w := keepWord d.fields k (resetOf a) v
        if w = resetOf a then Regs.keep t which k else (a, w) :: Regs.keep t which k
    else (a, v) :: Regs.keep t which k

/-- Resets registers by their Kept by letters (R20). -/
def Chip.resetRegs (c : Chip) (which : Nat → Bool) (k : Nat) : Chip := { c with regs := c.regs.keep which fun f => f.kept &&& k != 0 }

/-- The output of a loop runs (R392, R398). -/
def Chip.loopRuns (c : Chip) (k : Nat) : Bool := c.clk.run.testBit k
/-- An island is powered, in the order of PWR_ISLANDS (13_power_and_reset.md R421). -/
def Chip.islandOn (c : Chip) (k : Nat) : Bool := c.bit PWR PWR_ISLANDS_ON k
/-- The data islands are halted (12_clocks.md R408). -/
def Chip.halted (c : Chip) : Bool := c.on CLK CLK_STAT_DATA_HALT
/-- The island and the loop of a line port. -/
def portIsland (p : Port) : Nat := if p.val < 4 then 2 else 3
/-- A BIST target's bit in BIST_UNUSABLE: 0 to 31 Quire banks, 32 to 35 keep banks, 36 to 43 DSP memories of the line ports,
44 the stores of Quire (15_self_test_and_faults.md R473, R480, R495). -/
def Chip.unusable (c : Chip) (t : Nat) : Bool := (c.wide (BIST + BIST_UNUSABLE_MAP.off) 3).testBit t
/-- LPn is clocked and may run (R391, R399, R408, R421, R422), its DSP memories usable and not under test (R480, R481). -/
def Chip.portClk (c : Chip) (p : Port) : Bool :=
  !c.unusable (36 + p.val) && c.bist.run != some (36 + p.val) &&
  c.bit CLK CLK_EN0_LP p.val && c.islandOn (portIsland p) && c.loopRuns (portIsland p) && !c.halted && c.pwr.mode == 0
/-- A lane is clocked and may run. -/
def Chip.laneClk (c : Chip) (l : Lane) : Bool :=
  (c.reg (CLK + CLK_EN1_H.off)).getLsbD l.val && c.islandOn 4 && c.loopRuns 4 && !c.halted && c.pwr.mode == 0
/-- The host group's logic is clocked. -/
def Chip.hgrpClk (c : Chip) : Bool := c.on CLK CLK_EN0_HGRP && c.islandOn 4 && c.loopRuns 4 && !c.halted && c.pwr.mode == 0
/-- Quire works: clocked, not halted, in Run. -/
def Chip.quireOn (c : Chip) : Bool := c.on CLK CLK_EN0_QUIRE && c.islandOn 5 && c.loopRuns 0 && !c.halted && c.pwr.mode == 0
/-- The Spine is clocked, in Run or Doze. -/
def Chip.spineOn (c : Chip) : Bool := c.on CLK CLK_EN0_SPINE && c.islandOn 7 && c.loopRuns 5 && decide (c.pwr.mode ≤ 1)
/-- FOLIO is clocked, in Run or Doze. -/
def Chip.folioClk (c : Chip) : Bool := c.on CLK CLK_EN0_FOLIO && c.loopRuns 1 && decide (c.pwr.mode ≤ 1)
/-- The message engine and the servo run: FOLIO clocked and not in Doze (R220, R422). -/
def Chip.folioOn (c : Chip) : Bool := c.folioClk && c.pwr.mode == 0
/-- The Roll engines are clocked. -/
def Chip.rollOn (c : Chip) : Bool := c.on CLK CLK_EN0_ROLL && decide (c.pwr.mode ≤ 1)

/-- The letters of the Kept by column (R20). -/
abbrev KP : Nat := 1
abbrev KG : Nat := 2
abbrev KB : Nat := 4
abbrev KD : Nat := 8
abbrev KN : Nat := 16
abbrev KW : Nat := 32

/-- The block number of a key, whatever its bank. -/
def blkOf (a : Nat) : Nat := a / 0x1000 % 0x80

/-- A 16-bit word as its two bytes, the more significant first (R11). -/
def be (n : Nat) (v : Nat) : Bytes :=
  match n with
  | 0 => []
  | n + 1 => be n (v / 256) ++ [BitVec.ofNat 8 v]

/-- The number that bytes spell, the most significant first (R11). -/
def ofBe (b : Bytes) : Nat := b.foldl (fun n x => n * 256 + x.toNat) 0

/-- n bytes from place i, read as one number. -/
def beAt (b : Bytes) (i n : Nat) : Nat := ofBe ((b.drop i).take n)

end Sys2Proof.Machine
end

