-- ==== Sys2Proof/Machine/Frames.lean ====
section
/-! DEFINITION. Ethernet frames as bytes: the frame check sequence, the class (R266), MAC control frames (R72), and the
Folio tag (R31, R33). -/

namespace Sys2Proof.Machine

/-- One bit of the CRC-32 of IEEE 802.3, least significant bit first. -/
def crcBit (r : BitVec 32) : BitVec 32 := if r.getLsbD 0 then (r >>> 1) ^^^ 0xEDB88320#32 else r >>> 1

/-- One byte of the CRC-32. -/
def crcByte (r : BitVec 32) (b : Byte) : BitVec 32 :=
  crcBit (crcBit (crcBit (crcBit (crcBit (crcBit (crcBit (crcBit (r ^^^ b.setWidth 32))))))))

/-- The CRC-32 of IEEE 802.3 over bytes (PRESUMED as that standard gives it, log entry 15). -/
def crc32 (b : Bytes) : BitVec 32 := ~~~(b.foldl crcByte 0xFFFFFFFF#32)

/-- The frame check sequence in the order it is sent, least significant byte of the CRC first. -/
def fcs (b : Bytes) : Bytes :=
  let r := crc32 b
  [r.setWidth 8, (r >>> 8).setWidth 8, (r >>> 16).setWidth 8, (r >>> 24).setWidth 8]

/-- A frame with its frame check sequence. -/
def withFcs (b : Bytes) : Bytes := b ++ fcs b

/-- A frame without its last four bytes. -/
def sansFcs (b : Bytes) : Bytes := b.take (b.length - 4)

/-- Whether a frame's check sequence holds. -/
def fcsOk (b : Bytes) : Bool := decide (4 ≤ b.length) && b.drop (b.length - 4) == fcs (sansFcs b)

/-- A CRC-32 as a field of four bytes, the most significant first (R11). -/
def crcField (b : Bytes) : Bytes := be 4 (crc32 b).toNat

/-- A frame's class: the priority code point of its 802.1Q tag, else 0 (R266). -/
def frameClass (b : Bytes) : Cls := if beAt b 12 2 = 0x8100 then Fin.ofNat 8 (beAt b 14 1 / 32) else 0

/-- A frame's EtherType after an 802.1Q tag, with the place of its payload. -/
def frameType (b : Bytes) : Nat × Nat := if beAt b 12 2 = 0x8100 then (beAt b 16 2, 18) else (beAt b 12 2, 14)

/-- A frame padded to the shortest length and closed with its check sequence. -/
def padded (b : Bytes) : Bytes := withFcs (b ++ List.replicate (60 - b.length) 0)

/-- LPn_PFC_SA as six bytes. -/
def Chip.pfcSa (c : Chip) (p : Port) : Bytes := be 6 (c.wide (lpB p + PFC_SA_ADDR.off) 3)

/-- A PFC frame of port p for the classes of `vec`, with LPn_PFC_TIME.QUANTA for the paused ones of `on` (R72). -/
def Chip.pfcFrame (c : Chip) (p : Port) (vec on : Nat) : Bytes :=
  let t := c.get (lpB p) PFC_TIME_QUANTA
  padded (be 6 0x0180C2000001 ++ c.pfcSa p ++ be 2 0x8808 ++ be 2 0x0101 ++ be 2 vec ++
    (List.range 8).flatMap fun k => be 2 (if vec.testBit k && on.testBit k then t else 0))

/-- A 96-bit time word from a time in 2^-16 ns: 48 bits of seconds, 32 of nanoseconds, 16 of fraction (R31, R192). -/
def timeWord (t : Nat) : Nat :=
  t / (65536 * 1000000000) % 2 ^ 48 * 2 ^ 48 + t / 65536 % 1000000000 * 2 ^ 16 + t % 65536

/-- A time in 2^-16 ns from a 96-bit time word. -/
def ofTimeWord (w : Nat) : Nat := (w / 2 ^ 48 * 1000000000 + w / 2 ^ 16 % 2 ^ 32) * 65536 + w % 2 ^ 16

/-- The device's stack position: STRAP_POS as sampled (R35). -/
def Chip.pos (c : Chip) : Nat := c.get SPINE SPINE_STAT_POS

/-- A frame with its ingress Folio tag and the check sequence over both (R30, R31). -/
def tagFrame (port seq : Nat) (f : QFrame) : Bytes :=
  withFcs (be 1 0xF1 ++ be 1 port ++ be 2 seq ++ be 12 (timeWord f.time) ++ sansFcs f.bytes)

end Sys2Proof.Machine
end

