-- ==== Sys2Proof/Machine/OctPhy.lean ====
section
/-! DEFINITION. What Octavo puts on the pair and takes from it (03_octavo.md R80 to R84, R86, R88 to R91, R100, R109): the
pseudo-random sequences, the flag symbol and its forms, constellations, symbols, the superframe with its codewords, the LDPC code
with its decoder, and the slices of the management channel. The bit orders that the spec leaves open are in log entry 127. -/

namespace Sys2Proof.Machine

/-- `k` bits of the sequence of x^n + x^m + 1 from register r: the register's oldest bit leaves. -/
def prbsFrom (n m : Nat) : Nat → Nat → List Bool
  | 0, _ => []
  | k + 1, r =>
    let o := r.testBit (n - 1)
    o :: prbsFrom n m k ((2 * r + (o ^^ r.testBit (m - 1)).toNat) % 2 ^ n)
/-- `k` bits of the sequence seeded all ones (R81, R86, R97). -/
def prbs (n m k : Nat) : List Bool := prbsFrom n m k (2 ^ n - 1)
/-- The bits of bytes, most significant first. -/
def byteBits (b : Bytes) : List Bool := b.flatMap fun x => (List.range 8).map fun i => x.getLsbD (7 - i)
/-- The bytes of bits, the first bit most significant. -/
def bitsByte (l : List Bool) : Nat := l.foldl (fun n b => 2 * n + b.toNat) 0
/-- The number at bits `i` to `i + n - 1`, the first most significant. -/
def bitsAt (l : List Bool) (i n : Nat) : Nat := bitsByte ((l.drop i).take n)

/-- The level of the bits of one axis: Gray labels on odd levels, all zeros highest (R80). -/
def pam (l : List Bool) : Int :=
  let g := l.foldl (fun (x : Nat × Bool) b => let v := x.2 ^^ b; (2 * x.1 + v.toNat, v)) (0, false)
  2 ^ l.length - 1 - 2 * (g.1 : Int)
/-- The point of a label, its first bit most significant (R80, R83): BPSK, square QAM with Gray labels, cross QAM. -/
def conPoint (l : List Bool) : Point :=
  let n := l.length
  if n = 0 then (0, 0) else if n = 1 then (pam l, 0)
  else if n % 2 = 0 then (pam (l.take (n / 2)), pam (l.drop (n / 2)))
  else Config.crossQam n (bitsByte l)
/-- The 4-QAM points that two bits each give. -/
def qam4 : List Bool → List Point
  | a :: b :: l => conPoint [a, b] :: qam4 l
  | _ => []
/-- The flag symbol's points on the data tones (R81). -/
def flagPoints : List Point := qam4 (prbs 11 9 4064)
/-- The points of a flag symbol: plain (R81), every point negated (R82), every imaginary part negated (R184). -/
def FlagSym.points : FlagSym → List Point
  | .silent => []
  | .plain => flagPoints
  | .inverted => flagPoints.map fun x => (-x.1, -x.2)
  | .conj => flagPoints.map fun x => (x.1, -x.2)
/-- The points of training symbol s of a phase on the data tones (R97). -/
def trainPoints (s : Nat) : List Point := qam4 ((prbs 23 18 (4064 * (s + 1))).drop (4064 * s))
/-- The points of a data symbol: b_k consecutive bits for each tone in ascending order (R83). -/
def dataPoints : List Nat → List Bool → List Point
  | [], _ => []
  | b :: l, d => conPoint (d.take b) :: dataPoints l (d.drop b)
/-- A symbol's samples: the tones from 0, data on 8 to 2,039, through the transform, and the last 256 of them in front as the
cyclic prefix (R80). -/
def symbolSamples (p : List Point) : List Int :=
  let t := Config.inverseTransform (List.replicate 8 (0, 0) ++ p ++ List.replicate 8 (0, 0))
  t.drop 3840 ++ t

/-- The circulants of row i of the base matrix: column and shift (R88). -/
def ldpcRow (i : Nat) : List (Nat × Nat) :=
  ((List.range 54).filterMap fun j =>
    if j % 6 = i ∨ (j + 2) % 6 = i ∨ (j + 4) % 6 = i then some (j, (i + 1) * (j + 7) * 13 % 320) else none) ++
  (if i = 0 then [] else [(53 + i, 0)]) ++ [(54 + i, 0)]
/-- The entries of a column that a circulant of shift s joins to its rows: row r meets entry r + s mod 320 (R88). -/
def turn {α : Type} (s : Nat) (l : List α) : List α := l.drop s ++ l.take s
/-- The columns of a word: pieces of 320. -/
def columns {α : Type} (n : Nat) (l : List α) : List (List α) := (List.range n).map fun j => (l.drop (320 * j)).take 320
/-- The sum of the columns that a row joins. -/
def rowSum (cols : List (List Bool)) (l : List (Nat × Nat)) : List Bool :=
  l.foldl (fun a x => List.zipWith (· ^^ ·) a (turn x.2 (cols.getD x.1 []))) (List.replicate 320 false)
/-- The codeword of 17,280 information bits: parity column i makes the checks of row i even (R88). -/
def ldpcEncode (info : List Bool) : List Bool :=
  let cols := columns 54 info
  let par := (List.range 6).foldl (fun (ps : List (List Bool)) i => ps ++ [rowSum (cols ++ ps) ((ldpcRow i).dropLast)]) []
  info ++ par.flatten
/-- Every parity check of a word holds (R88, R90). -/
def ldpcOk (w : List Bool) : Bool :=
  let cols := columns 60 w
  (List.range 6).all fun i => (rowSum cols (ldpcRow i)).all (!·)

/-- What one check tells each of its bits: the product of the other signs with the normalised least of the other magnitudes
(R89); a positive value stands for 0. -/
def checkOut (q : List Int) : List Int :=
  (List.range q.length).map fun k =>
    let o := q.eraseIdx k
    let m : Int := Config.minSum ((o.map Int.natAbs).min?.getD 0)
    if (o.countP fun x => decide (x < 0)) % 2 = 1 then -m else m
/-- One layer, a row of the base matrix: the columns and the messages of the layer after it (R89). -/
def ldpcLayer (cols : List (List Int)) (msg : List (List Int)) (i : Nat) : List (List Int) × List (List Int) :=
  let row := ldpcRow i
  let q := (row.zip msg).map fun x => List.zipWith (· - ·) (turn x.1.2 (cols.getD x.1.1 [])) x.2
  let out := (List.range 320).map fun r => checkOut (q.map fun l => l.getD r 0)
  let new := (List.range row.length).map fun k => out.map fun l => l.getD k 0
  (((row.zip q).zip new).foldl (fun cs x => cs.set x.1.1.1 (turn (320 - x.1.1.2) (List.zipWith (· + ·) x.1.2 x.2))) cols, new)
/-- One iteration over the six layers (R89). -/
def ldpcIter (x : List (List Int) × List (List (List Int))) : List (List Int) × List (List (List Int)) :=
  (List.range 6).foldl (fun y i => let r := ldpcLayer y.1 (y.2.getD i []) i; (r.1, y.2.set i r.2)) x
/-- The decoder's bits from 19,200 soft values after exactly 12 iterations (R89). -/
def ldpcDecode (llr : List Int) : List Bool :=
  let start := (columns 60 llr, (List.range 6).map fun i => (ldpcRow i).map fun _ => List.replicate 320 (0 : Int))
  ((List.range 12).foldl (fun x _ => ldpcIter x) start).1.flatten.map fun v => decide (v < 0)

/-- A slice of the management channel that carries nothing (R109). -/
def idleSlice : Bytes := List.replicate 12 0
/-- The slices of a message: kind, 11 bytes each, the last filled up with 0x00 (R109). -/
def slicesFrom : Nat → Byte → Bytes → List Bytes
  | 0, _, _ => []
  | n + 1, k, m => (k :: (m.take 11 ++ List.replicate (11 - m.length) 0)) :: slicesFrom n 0xC0 (m.drop 11)
/-- A message of L bytes as ceil(L / 11) slices (R109). -/
def omcSlices (m : Bytes) : List Bytes :=
  let n := (m.length + 10) / 11
  slicesFrom n (if n ≤ 1 then 0x40 else 0x80) m

/-- One bit of the CRC-8 of x^8 + x^2 + x + 1, most significant bit first (R84; 08_quire_buffer.md R291). -/
def crc8Bit (r : BitVec 8) : BitVec 8 := if r.getLsbD 7 then (r <<< 1) ^^^ 0x07#8 else r <<< 1
/-- The CRC-8 over bytes, initial value 0 (bit order PRESUMED, log entry 15). -/
def crc8 (b : Bytes) : BitVec 8 :=
  b.foldl (fun r x => crc8Bit (crc8Bit (crc8Bit (crc8Bit (crc8Bit (crc8Bit (crc8Bit (crc8Bit (r ^^^ x))))))))) 0
/-- Information bits 0 to 119 of a codeword: CW_INDEX, SF_COUNT, the management slice and their CRC-8 (R84). -/
def cwHead (idx sf : Nat) (slice : Bytes) : Bytes :=
  let h := be 1 idx ++ be 1 sf ++ slice
  h ++ [crc8 h]
/-- One bit through the scrambler x^58 + x^39 + 1 (R86). -/
def scrambleBit (r : BitVec 58) (d : Bool) : BitVec 58 × Bool :=
  let o := d ^^ r.getLsbD 38 ^^ r.getLsbD 57
  ((r <<< 1) ||| BitVec.ofNat 58 o.toNat, o)
/-- A 65-bit block with its 64-bit payload scrambled, and the scrambler after it (R84, R86). -/
def scrambleBlock (r : BitVec 58) (b : BitVec 65) : BitVec 58 × List Bool :=
  (List.range 64).foldl (fun (x : BitVec 58 × List Bool) i => let y := scrambleBit x.1 (b.getLsbD (63 - i)); (y.1, x.2 ++ [y.2])) (r, [b.getLsbD 64])
/-- The blocks of one codeword: those of the MAC, filled up with idle blocks (R86). -/
def cwBlocks (l : List (BitVec 65)) : List (BitVec 65) := (l ++ List.replicate 264 Config.idleBlock).take 264
/-- A codeword and the scrambler after it (R84, R86, R88). -/
def codeword (r : BitVec 58) (idx sf : Nat) (slice : Bytes) (blocks : List (BitVec 65)) : BitVec 58 × List Bool :=
  let p := (cwBlocks blocks).foldl (fun (x : BitVec 58 × List Bool) b => let y := scrambleBlock x.1 b; (y.1, x.2 ++ y.2)) (r, [])
  (p.1, ldpcEncode (byteBits (cwHead idx sf slice) ++ p.2))
/-- The coded bits of a superframe: N whole codewords, then pad bits from PRBS31 up to 255 B (R83, R86); `blocks` are those that
the MAC gives each codeword. -/
def frameBits (n b sf : Nat) (r : BitVec 58) (slices : List Bytes) (blocks : List (List (BitVec 65))) : List Bool :=
  let c := (List.range n).foldl (fun (x : BitVec 58 × List Bool) i =>
    let y := codeword x.1 i sf (slices.getD i idleSlice) (blocks.getD i [])
    (y.1, x.2 ++ y.2)) (r, [])
  c.2 ++ prbs 31 28 (255 * b - 19200 * n)
/-- The points of symbol k of a superframe on the data tones: its flag, or data symbol k with the loading, B bits each (R81 to
R83); nothing on the data symbols of a quiet superframe (R185). -/
def symbolPoints (flag : FlagSym) (fill : Bool) (load : List Nat) (b : Nat) (bits : List Bool) (k : Nat) : List Point :=
  if k = 0 then flag.points else if fill then dataPoints load ((bits.drop ((k - 1) * b)).take b) else []
/-- What the port sends on its data tones in symbol k of the superframe in progress, `r` being its scrambler at the superframe's
start and `blocks` what its MAC gives each codeword. -/
def Chip.octSymbol (c : Chip) (p : Port) (r : BitVec 58) (blocks : List (List (BitVec 65))) (k : Nat) : List Point :=
  let o := (c.port p).oct
  let b := lpB p
  symbolPoints o.flag o.fill o.txBits (c.get b OCT_BTX_B)
    (frameBits (c.get b OCT_NCW_N_TX) (c.get b OCT_BTX_B) (c.get b OCT_SF_TX_SF) r o.omcNow blocks) k

/-- k superframe boundaries pass toward the partner (R81, R83, R109, R185): in SHOWTIME the superframe opens with a plain flag
and, outside LPI, carries N codewords with the next slices of the management channel; in a pause its form stays. -/
def Chip.sfBegin (c : Chip) (p : Port) (k : Nat) : Chip :=
  let b := lpB p
  let quiet := c.on b PCS_STAT_TX_LPI
  let n := c.get b OCT_NCW_N_TX
  if k = 0 ∨ c.get b OCT_STAT_PHASE ≠ 11 then c
  else
    let c := if quiet then c.put b LPI_STAT_TX_QUIET 1 else c
    c.modOct p fun o =>
      let gone := if o.fill ∧ quiet = false then (k - 1) * n else 0
      let q := o.omcTx.drop gone
      { o with flag := .plain, fill := !quiet, rxChanged := none,
               omcNow := if quiet then [] else (q ++ List.replicate n idleSlice).take n,
               omcTx := if quiet then o.omcTx else q.drop n }
/-- The product of two points. -/
def Point.mul (a b : Point) : Point := (a.1 * b.1 - a.2 * b.2, a.1 * b.2 + a.2 * b.1)
/-- The one-tap equaliser of a tone from the values received in the CHANNEL symbols: Σ X Y* over Σ |Y|² (R100). -/
def equaliser (tone : Nat) (y : List Point) : Equaliser :=
  let x := (List.range y.length).map fun s => (trainPoints s).getD tone (0, 0)
  let n := (x.zip y).foldl (fun (a : Point) v => let m := Point.mul v.1 (v.2.1, -v.2.2); (a.1 + m.1, a.2 + m.2)) (0, 0)
  { re := n.1, im := n.2, den := (y.map fun v => (v.1 * v.1 + v.2 * v.2).toNat).sum }
/-- The squared magnitude of equaliser w over that of v, as a numerator and a denominator. -/
def eqRatio (w v : Equaliser) : Nat × Nat :=
  (((w.re * w.re + w.im * w.im).toNat) * v.den ^ 2, ((v.re * v.re + v.im * v.im).toNat) * w.den ^ 2)
/-- The magnitude of w lies outside ±3 dB of v's: the ratio of the squares outside 10^±0.3 (R108). -/
def eqOutside (w v : Equaliser) : Bool :=
  let r := eqRatio w v
  decide (1000 * r.2 ^ 10 < r.1 ^ 10 ∨ 1000 * r.1 ^ 10 < r.2 ^ 10)
/-- The magnitude of w lies inside ±1.5 dB of v's: the ratio of the squares inside 10^±0.15 (R108). -/
def eqInside (w v : Equaliser) : Bool :=
  let r := eqRatio w v
  decide (r.1 ^ 20 < 1000 * r.2 ^ 20 ∧ r.2 ^ 20 < 1000 * r.1 ^ 20)

/-- Part of a tone group's tones among 8 to 2,039 (R95). -/
abbrev groupTones (g : Nat) : Nat := if g = 31 then 48 else 64
/-- Group delays less their tone-weighted mean over tones 8 to 2,039, rounded down (R173). -/
def relativeGd (l : List Int) : List Int :=
  let m := ((List.range 32).map fun g => (groupTones g : Int) * l.getD g 0).sum
  (List.range 32).map fun g => (2032 * l.getD g 0 - m) / 2032

end Sys2Proof.Machine
end

