-- ==== Sys2Proof/Machine/WordCode.lean ====
section
/-! DEFINITION. The word code of the stores (08_quire_buffer.md R270, R271): 128 data bits as 145, with BCH check bits and a
parity bit; what the decoder makes of wrong bits. -/

namespace Sys2Proof.Machine

/-- The generator of R270 without its x^16: the product of the minimal polynomials x^8 + x^4 + x^3 + x^2 + 1 of α and
x^8 + x^6 + x^5 + x^4 + x^2 + x + 1 of α^3. -/
def bchPoly : BitVec 16 := 0x6F63#16
/-- A remainder times x, reduced by the generator. -/
def bchTimesX (r : BitVec 16) : BitVec 16 := if r.getLsbD 15 then (r <<< 1) ^^^ bchPoly else r <<< 1
/-- The remainders of x^d to x^(d + n − 1), from that of x^d. -/
def bchPowers : Nat → BitVec 16 → List (BitVec 16)
  | 0, _ => []
  | n + 1, r => r :: bchPowers n (bchTimesX r)
/-- What each bit of the 145 adds to remainder and parity, bit 0 first: data bit i is the coefficient of x^(16 + i), check bit
128 + j that of x^j, and bit 144 the parity alone (R270; log entry 112). -/
def bchColumns : List (BitVec 17) :=
  ((bchPowers 128 bchPoly) ++ (bchPowers 16 1)).map (fun r => r.setWidth 17 ^^^ 0x10000#17) ++ [0x10000#17]
/-- The syndrome of a word: 0 exactly for the words of the code. -/
def wordSynd (w : BitVec 145) : BitVec 17 :=
  ((List.range 145).zip bchColumns).foldl (fun s x => if w.getLsbD x.1 then s ^^^ x.2 else s) 0
/-- A 128-bit word as it is stored (R270). -/
def wordCode (d : BitVec 128) : BitVec 145 :=
  let chk := (wordSynd (d.setWidth 145)).setWidth 16
  let w : BitVec 145 := d.setWidth 145 ||| (chk.setWidth 145 <<< 128)
  if (wordSynd w).getLsbD 16 then w ||| (1#145 <<< 144) else w

/-- What the decoder finds in a word. -/
inductive Found where
  | clean | corrected | bad
deriving DecidableEq, Repr

/-- The bits that the decoder takes for wrong: none, one or two; no answer: uncorrectable (R271). -/
def wordFix (s : BitVec 17) : Option (BitVec 145) :=
  if s = 0 then some 0
  else
    let cols := bchColumns.zipIdx
    match cols.find? fun x => x.1 == s with
    | some x => some (1#145 <<< x.2)
    | none =>
      match cols.findSome? fun x => (cols.find? fun y => x.1 ^^^ y.1 == s).map fun y => (x.2, y.2) with
      | some (i, j) => some ((1#145 <<< i) ^^^ (1#145 <<< j))
      | none => none
/-- A stored word as read: the data the decoder gives, and what it found (R271). -/
def wordRead (w : BitVec 145) : Found × BitVec 128 :=
  match wordFix (wordSynd w) with
  | none => (.bad, w.setWidth 128)
  | some e => (if e = 0 then .clean else .corrected, (w ^^^ e).setWidth 128)
/-- What a read finds when the bits `err` of a stored word are wrong, and the data bits still wrong after it: the code is
linear, so neither depends on the word's data. -/
def wordErr (err : BitVec 145) : Found × BitVec 128 := if err = 0 then (.clean, 0) else wordRead err

end Sys2Proof.Machine
end

