-- ==== Sys2Proof/Machine/Quire.lean ====
section
/-! DEFINITION. Quire (08_quire_buffer.md): pool and thresholds, charging and releasing cells, hold and release, credit
limits, spill, and the order of service. -/

namespace Sys2Proof.Machine

/-- The host mode in effect (R25): 0 PAIRED, 1 GATHERED, 2 BONDED, 3 RETIMER, 4 SPLIT. -/
def Chip.hostMode (c : Chip) : Nat := c.get HGRP HGRP_MODE_ACTIVE
/-- GATHERED or BONDED. -/
def Chip.tagged (c : Chip) : Bool := c.hostMode == 1 || c.hostMode == 2
/-- The port has a data path in the active mode (R25, R28). -/
def Chip.carries (c : Chip) (p : Port) : Bool :=
  c.hostMode == 0 || c.hostMode == 1 || c.hostMode == 2 || (c.hostMode == 4 && decide (p.val < 4))
/-- The port's host side is its own lane Hn (R237). -/
def Chip.pairedPort (c : Chip) (p : Port) : Bool := c.hostMode == 0 || (c.hostMode == 4 && decide (p.val < 4))
/-- The main link is up: LINK_UP, or OCTAVO in SHOWTIME or a calibration pause (R54). -/
def Chip.linkUp (c : Chip) (p : Port) : Bool := c.on (lpB p) LINK_STAT_LINK_UP
/-- The link carries frames now: LINK_UP, or OCTAVO SHOWTIME outside a pause (R289). -/
def Chip.linkFlows (c : Chip) (p : Port) : Bool :=
  c.get (lpB p) LINK_STAT_STATE == 7 || (c.get (lpB p) LINK_STAT_STATE == 6 && c.get (lpB p) OCT_STAT_PHASE == 11)

/-- Queue of a direction (0 toward the host, 1 toward the line), port and class (R306). -/
def qOf (dir : Fin 2) (p : Port) (k : Cls) : Queue := ⟨dir.val * 64 + p.val * 8 + k.val, by omega⟩
/-- Its port. -/
def qPort (q : Queue) : Port := ⟨q.val / 8 % 8, by omega⟩
/-- Its class. -/
def qCls (q : Queue) : Cls := ⟨q.val % 8, by omega⟩
/-- Its direction is toward the line. -/
def qLine (q : Queue) : Bool := decide (64 ≤ q.val)
/-- All queues in order. -/
def allQueues : List Queue := List.finRange 128

/-- A per-queue field behind QUIRE_Q_SEL. -/
def Chip.qGet (c : Chip) (q : Queue) (f : Fld) : Nat := c.get (bk q.val QUIRE) f
/-- QUIRE_P_HDRM of the queue's port and direction. -/
def Chip.hdrmOf (c : Chip) (q : Queue) : Nat := c.get (bk (q.val / 8) QUIRE) QUIRE_P_HDRM_HDRM

/-- A bank is usable: not while the stores are unusable (R480) or the bank is under test (R482). -/
def Chip.bankOk (c : Chip) (b : Nat) : Bool := !c.unusable 44 && !c.unusable b && c.bist.bank != some b
/-- Usable banks U. -/
def Chip.banks (c : Chip) : Nat := (List.range 32).countP c.bankOk
/-- The first usable bank in rotation from bank b on (R265). -/
def Chip.nextBank (c : Chip) (b : Nat) : Nat := (((List.range 32).map fun k => (b + k) % 32).find? c.bankOk).getD (b % 32)
/-- The banks of n new cells in rotation from bank b on, and the bank at which the rotation goes on (R265; that it begins at
bank 0 is log entry 91). -/
def Chip.takeBanks (c : Chip) : Nat → Nat → List Nat × Nat
  | 0, b => ([], b)
  | n + 1, b =>
    let k := c.nextBank b
    let r := c.takeBanks n ((k + 1) % 32)
    (k :: r.1, r.2)
/-- Quire stores a cell in bank b. -/
def Chip.bankHolds (c : Chip) (b : Nat) : Bool :=
  c.quire.queues.toList.any (fun q => q.cells.contains b) || c.quire.lent.any fun x => x.cells.contains b
/-- A threshold in 64-cell steps, scaled to the usable banks and rounded down (R288). -/
def Chip.scaled (c : Chip) (v : Nat) : Nat := v * 64 * c.banks / 32

/-- The shared pool before it is held at 0 (R279). -/
def Chip.poolRaw (c : Chip) : Int :=
  let ps := allPorts.filter c.carries
  let rsv := (allQueues.filter fun q => c.carries (qPort q)).foldl (fun n q => n + c.qGet q QUIRE_Q_RSV_RSV) 0
  let h0 := ps.foldl (fun n p => n + c.hdrmOf (qOf 0 p 0)) 0
  let h1 := (ps.filter c.pairedPort).foldl (fun n p => n + c.hdrmOf (qOf 1 p 0)) 0
  let rep := if c.hostMode = 2 then (c.get HGRP HGRP_BOND_CTL_REPLAY * 50000 + 255) / 256 else 0
  (8192 * c.banks : Nat) - (rsv : Int) - h0 - h1 - rep - 64 * c.get QUIRE QUIRE_SPILL_LEND_VALUE
/-- QUIRE_POOL_SIZE (R279). -/
def Chip.poolSize (c : Chip) : Nat := c.poolRaw.toNat
/-- Free shared cells. -/
def Chip.poolFree (c : Chip) : Nat := c.poolSize - c.quire.queues.toList.foldl (fun n q => n + q.shared) 0 - c.quire.unreached
/-- Headroom in use of the queue's port and direction. -/
def Chip.hdrmUse (c : Chip) (q : Queue) : Nat :=
  ((c.quire.queues.toList.drop (q.val / 8 * 8)).take 8).foldl (fun n x => n + x.hdrm) 0

/-- An input of R279 has changed: the pool is computed again and a negative result sets CFG_ERR (R279, R280). -/
def Chip.poolChanged (c : Chip) : Chip :=
  if c.poolRaw < 0 then (c.put QUIRE QUIRE_STAT_CFG_ERR 1).evt QUIRE QUIRE_EVT_CFG_ERR else c.put QUIRE QUIRE_STAT_CFG_ERR 0

/-- Bytes stored here of a list of frames: spilled ones lie with the neighbour (R266, R302). -/
def storedBytes (l : List QFrame) : Nat := l.foldl (fun n f => n + if f.spilled.isSome then 0 else f.bytes.length) 0
/-- Cells of n stored bytes (R266). -/
def cellsOf (n : Nat) : Nat := (n + 255) / 256
/-- Occupancy in cells (R266). -/
def QSt.occ (q : QSt) : Nat := cellsOf (storedBytes q.frames)

/-- Credit units of a frame of L stored bytes with its Folio tag (R292). -/
def cost (len : Nat) : Nat := (len + 16 + 63) / 64
/-- Modulo 2^32. -/
def mod32 (n : Nat) : Nat := n % 2 ^ 32
/-- (a − b) mod 2^32. -/
def sub32 (a b : Nat) : Nat := (a + 2 ^ 32 - b % 2 ^ 32) % 2 ^ 32
/-- A sender with charge C may start a frame of cost k (R292). -/
def mayStart (limit charge k : Nat) : Bool := decide (k ≤ sub32 limit charge ∧ sub32 limit charge < 2 ^ 31)

/-- PFC may hold the queue's class: its TX_EN bit is 1 (R287). -/
def Chip.holdable (c : Chip) (q : Queue) : Bool := c.bit (lpB (qPort q)) PFC_CTL_TX_EN (qCls q)

/-- A frame of the part's own is a MAC control frame. -/
def Ctl.isMac (x : Ctl) : Bool := x.kind == 0 && beAt x.bytes 12 2 == 0x8808
/-- A PFC frame waits ahead of every other frame but the PFC frames before it (R73, R282). -/
def pfcQueued (b : Bytes) : List Ctl → List Ctl
  | [] => [{ bytes := b }]
  | x :: t => if x.isMac then x :: pfcQueued b t else { bytes := b } :: x :: t

/-- Signals that a hold of the queue begins or ends (R73, R238, R282, R283): a PFC frame toward the line in direction 0,
on Hn in direction 1 of a PAIRED port; nothing but the credit limit in tagged modes. -/
def Chip.signalHold (c : Chip) (q : Queue) (on : Bool) : Chip :=
  let p := qPort q
  let k := (qCls q).val
  let fr := c.pfcFrame p (2 ^ k) (if on then 2 ^ k else 0)
  if qLine q then
    if c.pairedPort p && c.holdable q then c.modLane ⟨p.val, by omega⟩ fun l => { l with ctlq := pfcQueued fr l.ctlq } else c
  else
    let c := c.putBit (lpB p) PFC_STAT_TX_HOLD k on
    if c.linkUp p && c.holdable q then c.modLink p fun l => { l with ctlq := pfcQueued fr l.ctlq } else c

/-- A queue stores a cell, charged to any of its three kinds of space (R278). -/
def QSt.stores (q : QSt) : Bool := decide (0 < q.rsv + q.shared + q.hdrm)
/-- Quire stores a cell. -/
def Chip.anyCell (c : Chip) : Bool := c.quire.queues.toList.any QSt.stores || !c.quire.lent.isEmpty

/-- HOLD and HYST of a queue in cells, as in force (R280, R288). -/
def Chip.holdThr (c : Chip) (q : Queue) : Nat × Nat :=
  match c.quire.queues[q].oldThr with
  | some x => (c.scaled x.1, c.scaled x.2)
  | none => (c.scaled (c.qGet q QUIRE_Q_HOLD_HOLD), c.scaled (c.qGet q QUIRE_Q_HOLD_HYST))
/-- XOFF, XON, SPILL_ON and SPILL_OFF as written. -/
def Chip.poolRegs (c : Chip) : Nat × Nat × Nat × Nat :=
  (c.get QUIRE QUIRE_POOL_XOFF_XOFF, c.get QUIRE QUIRE_POOL_XON_XON, c.get QUIRE QUIRE_SPILL_ON_VALUE, c.get QUIRE QUIRE_SPILL_OFF_VALUE)
/-- XOFF, XON, SPILL_ON and SPILL_OFF as in force (R280). -/
def Chip.poolThr (c : Chip) : Nat × Nat × Nat × Nat := c.quire.oldThr.getD c.poolRegs

/-- A pool threshold has been written over the values `old`: while cells are stored it waits for the next cell allocation
(R280). -/
def Chip.poolThrWritten (c : Chip) (old : Nat × Nat × Nat × Nat) : Chip :=
  if c.anyCell then c.modQuire fun x => { x with oldThr := some (x.oldThr.getD old) } else c
/-- HOLD or HYST of a queue has been written over the values `old` (R280). -/
def Chip.holdThrWritten (c : Chip) (q : Queue) (old : Nat × Nat) : Chip :=
  if c.quire.queues[q].stores then c.modQ q fun x => { x with oldThr := some (x.oldThr.getD old) } else c
/-- Queue q is about to be charged n new cells: the written thresholds are in force (R280). -/
def Chip.allocates (c : Chip) (q : Queue) (n : Nat) : Chip :=
  if n = 0 then c else (c.modQ q fun x => { x with oldThr := none }).modQuire fun x => { x with oldThr := none }

/-- The condition on which a hold of a queue with `shared` shared cells begins (R281). -/
def holdBegins (shared free xoff hold : Nat) : Bool := decide (hold ≤ shared ∨ (free ≤ xoff ∧ 0 < shared))
/-- The condition on which it ends (R281): HOLD − HYST below 0 is reached by no charge. -/
def holdEnds (shared free xon hold hyst : Nat) : Bool := decide (((shared : Int) ≤ (hold : Int) - hyst) ∧ (xon ≤ free ∨ shared = 0))
/-- One queue's hold against the thresholds (R281): where both conditions hold, the one that begins it prevails (log entry
113). -/
def Chip.holdStep (free xoff xon : Nat) (c : Chip) (q : Queue) : Chip :=
  let s := c.quire.queues[q]
  let t := c.holdThr q
  let begins := holdBegins s.shared free xoff t.1 && c.holdable q
  if s.held then
    if !begins && (holdEnds s.shared free xon t.1 t.2 || !c.holdable q) then
      (c.modQ q fun x => { x with held := false }).signalHold q false
    else c
  else if begins then (c.modQ q fun x => { x with held := true }).signalHold q true
  else c

/-- Every queue's hold against the thresholds, and the pool's event (R281). -/
def Chip.holds (c : Chip) : Chip :=
  let free := c.poolFree
  let xoff := c.scaled c.poolThr.1
  let low := decide (free ≤ xoff)
  let c := if low ∧ c.quire.low = false then c.evt QUIRE QUIRE_EVT_POOL_XOFF else c
  let c := c.modQuire fun x => { x with low := low }
  c.each allQueues (Chip.holdStep free xoff (c.scaled c.poolThr.2.1))

/-- Raises the advertised limit of a direction-1 queue (R294). -/
def Chip.limitStep (free : Nat) (c : Chip) (q : Queue) : Chip :=
  let s := c.quire.queues[q]
  let cap : Int := c.qGet q QUIRE_Q_RSV_RSV +
    min ((c.holdThr q).1 : Int) ((s.shared + free : Nat) - (c.scaled c.poolThr.1 : Nat))
  let new := unsigned 32 (s.count + 4 * cap)
  if sub32 new s.limit < 2 ^ 31 then c.modQ q fun x => { x with limit := new } else c

/-- Every advertised limit, in the tagged modes (R294). -/
def Chip.limits (c : Chip) : Chip :=
  if c.tagged then c.each (allQueues.drop 64) (Chip.limitStep c.poolFree) else c

/-- The face for lending and borrowing (R306). -/
def Chip.spillFace (c : Chip) : Face := if c.on QUIRE QUIRE_SPILL_CTL_FACE then .s else .n
/-- A frame lies with the neighbour on a face. -/
def QFrame.at_ (x : QFrame) (f : Face) : Bool := x.spilled.isSome && (x.south == (f == .s))
/-- Cells that the neighbour on FACE lends (R301, R302). -/
def Chip.peerLend (c : Chip) : Nat := (c.face c.spillFace).lend
/-- Cells in use at the neighbour on FACE. -/
def Chip.lentUsed (c : Chip) : Nat :=
  c.quire.queues.toList.foldl (fun n q => n + q.frames.foldl (fun m f => m + if f.at_ c.spillFace then f.lentCells else 0) 0) 0

/-- The direction-0 queue with the greatest occupancy, the lowest on a tie (R302). -/
def Chip.fullest (c : Chip) : Nat :=
  ((List.finRange 64).foldl (fun (best : Nat × Nat) (i : Fin 64) =>
    let o := (c.quire.queues[i.val]'(by omega)).occ
    if best.2 < o then (i.val, o) else best) (0, 0)).1

/-- Spilling stops (R302). -/
def Chip.spillStop (c : Chip) : Chip := (c.modQuire fun x => { x with spill := none }).put QUIRE QUIRE_SPILL_STAT_ACTIVE 0
/-- Spilling starts and stops by the pool's free cells and the lent cells (R302). -/
def Chip.spillCheck (c : Chip) : Chip :=
  let free := c.poolFree
  match c.quire.spill with
  | none =>
    if c.on QUIRE QUIRE_SPILL_CTL_EN ∧ 0 < c.peerLend ∧ c.lentUsed < c.peerLend ∧
        free ≤ c.scaled c.poolThr.2.2.1 then
      (c.modQuire fun x => { x with spill := some c.fullest }).put QUIRE QUIRE_SPILL_STAT_ACTIVE 1
    else c
  | some _ =>
    if c.scaled c.poolThr.2.2.2 ≤ free ∨ c.peerLend ≤ c.lentUsed ∨ c.on QUIRE QUIRE_SPILL_CTL_EN = false then c.spillStop
    else c

/-- What follows any change of the stored cells: holds, spill and limits. -/
def Chip.qSettle (c : Chip) : Chip := c.holds.spillCheck.limits

/-- Charges n more cells to a queue (R278, R281, R284, R287); none: there is no space. -/
def chargeCells (rsv hold hdrm xoff drop : Nat) (can : Bool) : Nat → QSt → Nat → Nat → Option QSt
  | 0, q, _, _ => some q
  | n + 1, q, free, use =>
    if q.rsv < rsv then chargeCells rsv hold hdrm xoff drop can n { q with rsv := q.rsv + 1 } free use
    else if q.held then
      if use < hdrm then chargeCells rsv hold hdrm xoff drop can n { q with hdrm := q.hdrm + 1 } free (use + 1)
      else if 0 < free then chargeCells rsv hold hdrm xoff drop can n { q with shared := q.shared + 1 } (free - 1) use
      else none
    else if can then
      if 0 < free then
        chargeCells rsv hold hdrm xoff drop can n
          { q with shared := q.shared + 1, held := decide (hold ≤ q.shared + 1 ∨ free - 1 ≤ xoff) } (free - 1) use
      else if use < hdrm then
        chargeCells rsv hold hdrm xoff drop can n { q with hdrm := q.hdrm + 1, held := true } free (use + 1)
      else none
    else if q.shared + 1 ≤ drop ∧ 0 < free then
      chargeCells rsv hold hdrm xoff drop can n { q with shared := q.shared + 1 } (free - 1) use
    else none

/-- Releases the charge of n cells of a queue: headroom, then shared, then reserve (R278). -/
def QSt.release (q : QSt) (n : Nat) : QSt :=
  let h := min n q.hdrm
  let s := min (n - h) q.shared
  { q with hdrm := q.hdrm - h, shared := q.shared - s, rsv := q.rsv - (n - h - s) }

/-- Counts n frames discarded by Quire under counter k (R500), in direction 1 with their cost (R294). -/
def Chip.countDiscards (c : Chip) (q : Queue) (k : Nat) (l : List QFrame) : Chip :=
  let c := (c.bumpQ k l.length).pmcEvt 1 5 l.length
  if qLine q then c.modQ q fun x => { x with count := mod32 (x.count + l.foldl (fun n f => n + cost f.bytes.length) 0) } else c

/-- The header of a /S/ ordered set: operation, stack-wide port, class, sequence, length and ingress time (R333). -/
def spillHeader (op port cls seq len time : Nat) : Bytes :=
  be 1 op ++ be 1 port ++ be 1 cls ++ be 1 0 ++ be 2 seq ++ be 2 len ++ be 12 (timeWord time)
/-- A /S/ ordered set with its CRC-32 (R333). -/
def spillSet (op port cls seq : Nat) (b : Bytes) (time : Nat) : Bytes :=
  let x := spillHeader op port cls seq b.length time ++ b
  x ++ crcField x
/-- Queue q takes n more cells of its own, from the banks in rotation (R265, R278, R280 to R287); none: there is no space. -/
def Chip.qCharge (c : Chip) (q : Queue) (n : Nat) : Option Chip :=
  let c := c.allocates q n
  let s := c.quire.queues[q]
  match chargeCells (c.qGet q QUIRE_Q_RSV_RSV) (c.holdThr q).1
      (if qLine q && !c.pairedPort (qPort q) then 0 else c.hdrmOf q) (c.scaled c.poolThr.1)
      (c.scaled (c.qGet q QUIRE_Q_DROP_DROP)) (c.holdable q) n s c.poolFree (c.hdrmUse q) with
  | none => none
  | some s' =>
    let b := c.takeBanks n s.rot
    let d := (c.modQ q fun _ => { s' with cells := s.cells ++ b.1, rot := b.2 }).pmcEvt 1 2 n
    some (if s'.held && !s.held then d.signalHold q true else d)
/-- A frame finds no space in queue q: it is discarded and counted (R284, R287). -/
def Chip.qNoSpace (c : Chip) (q : Queue) (f : QFrame) : Chip :=
  if c.holdable q then (c.countDiscards q 4 [f]).evt QUIRE QUIRE_EVT_HDRM_OVF else c.countDiscards q 5 [f]

/-- The next spill sequence number of a queue toward a face (R333; per face, log entry 72). -/
def QSt.seqAt (q : QSt) (f : Face) : Nat := match f with | .n => q.spillSeq | .s => q.spillSeqS
/-- Sets it. -/
def QSt.setSeq (q : QSt) (f : Face) (n : Nat) : QSt := match f with | .n => { q with spillSeq := n } | .s => { q with spillSeqS := n }
/-- The frame goes to the neighbour on FACE, in place of being stored (R302, R333). -/
def Chip.qSpill (c : Chip) (q : Queue) (f : QFrame) : Chip :=
  let face := c.spillFace
  let n := c.quire.queues[q].seqAt face
  let set := spillSet 1 (8 * c.pos + (qPort q).val) (qCls q).val n f.bytes f.time
  let c := c.modQ q fun x => { x.setSeq face ((n + 1) % 2 ^ 16) with
    frames := x.frames ++ [{ f with bytes := [], spilled := some n, south := face == .s, lentCells := cellsOf f.bytes.length }] }
  let c := c.modFace face fun x => { x with spillTx := [set] }
  ((c.bumpFace face 10 1).bumpQ 11 1).pmcEvt 1 15 1

/-- Commits a checked frame to a queue: it is stored, sent to the neighbour while the queue spills, or discarded; the
truth value says whether it is kept (R267, R278, R284, R287, R302). -/
def Chip.qCommit (c : Chip) (q : Queue) (f : QFrame) : Chip × Bool :=
  let fits := decide (c.lentUsed + cellsOf f.bytes.length ≤ c.peerLend)
  let c := if c.quire.spill.isSome && c.quire.spill == some q.val && !fits then c.spillStop else c
  if c.quire.spill = some q.val then (((c.qSpill q f).pmcEvt 1 4 1).qSettle, true)
  else
    let b := storedBytes c.quire.queues[q].frames
    match c.qCharge q (cellsOf (b + f.bytes.length) - cellsOf b) with
    | some d => (((d.modQ q fun x => { x with frames := x.frames ++ [f] }).pmcEvt 1 4 1).qSettle, true)
    | none => ((c.qNoSpace q f).qSettle, false)

/-- Takes the head frame of a queue out of Quire and releases its cells (R278). -/
def Chip.qDrop1 (c : Chip) (q : Queue) : Chip :=
  let s := c.quire.queues[q]
  match s.frames with
  | [] => c
  | _ :: t =>
    let n := cellsOf (storedBytes s.frames) - cellsOf (storedBytes t)
    c.modQ q fun x => { x.release n with frames := t, cells := x.cells.drop n }

/-- Discards the n frames at the head of a queue that are poisoned (R274). -/
def Chip.qPurgeN : Nat → Chip → Queue → Chip
  | 0, c, _ => c
  | n + 1, c, q =>
    match c.quire.queues[q].frames with
    | f :: _ => if f.poisoned then Chip.qPurgeN n ((c.qDrop1 q).countDiscards q 1 [f]) q else c
    | [] => c
/-- Discards the poisoned frames that have reached the head of a queue (R274). -/
def Chip.qPurge (c : Chip) (q : Queue) : Chip := c.qPurgeN c.quire.queues[q].frames.length q

/-- Takes the head frame out as sent: its cells are read and, toward the line, its cost is free again (R294). -/
def Chip.qTake (c : Chip) (q : Queue) : Chip :=
  let s := c.quire.queues[q]
  match s.frames with
  | [] => c
  | f :: _ =>
    let c := (c.qDrop1 q).pmcEvt 1 3 (cellsOf f.bytes.length)
    let c := if qLine q then c.modQ q fun x => { x with count := mod32 (x.count + cost f.bytes.length) } else c
    (c.qPurge q).qSettle
/-- Discards the head frame, poisoned or found so before its first byte left (R274, R275). -/
def Chip.qSpoil (c : Chip) (q : Queue) : Chip :=
  (((c.qDrop1 q).countDiscards q 1 (c.quire.queues[q].frames.take 1)).qPurge q).qSettle

/-- Discards all frames of a queue and counts them under counter k. -/
def Chip.qFlush (k : Nat) (c : Chip) (q : Queue) : Chip :=
  let s := c.quire.queues[q]
  match s.frames with
  | [] => c
  | l => (c.countDiscards q k l).modQ q fun x => { x with frames := [], rsv := 0, shared := 0, hdrm := 0, cells := [] }

/-- The queues of a port in one direction. -/
def portQueues (dir : Fin 2) (p : Port) : List Queue := [7, 6, 5, 4, 3, 2, 1, 0].map (qOf dir p)

/-- Flushes a port's queues of one direction under counter k. -/
def Chip.flushPort (k : Nat) (dir : Fin 2) (c : Chip) (p : Port) : Chip := (c.each (portQueues dir p) (Chip.qFlush k)).qSettle

/-- FLUSH_ON_DOWN acts on a port whose link carries nothing, outside a pause (R289). -/
def Chip.flushes (c : Chip) (p : Port) : Bool :=
  c.on QUIRE QUIRE_CTL_FLUSH_ON_DOWN && !c.linkUp p && !(c.get (lpB p) LINK_STAT_STATE == 6 && c.get (lpB p) OCT_STAT_PHASE == 12)

/-- A line port's link has gone down (R289). -/
def Chip.quireLinkDown (c : Chip) (p : Port) : Chip := if c.flushes p then c.flushPort 6 1 p else c

/-- Commits a frame for the line, or discards it while FLUSH_ON_DOWN acts (R289). -/
def Chip.commitToLine (c : Chip) (p : Port) (f : QFrame) : Chip × Bool :=
  let q := qOf 1 p (frameClass f.bytes)
  if c.flushes p then ((c.countDiscards q 6 [f]).limits, false) else c.qCommit q f

/-- Loses all of Quire's contents and counts the frames, those kept for the neighbours among them (R269); counts and limits
stay. -/
def Chip.quireLose (c : Chip) : Chip :=
  let kept := c.quire.outs.toList.filterMap (·.cut) ++ c.hgrp.replayq
  let c := (c.countDiscards 0 0 (kept.map (·.1))).each allQueues (Chip.qFlush 0)
  let c := c.countDiscards 0 0 (c.quire.lent.map fun x => { bytes := x.bytes })
  let c := c.modHgrp fun h => { h with replayq := [], recharge := [] }
  let c := c.each hostLanes fun c l => c.modLane l fun x => { x with replay := [] }
  let c := c.put HGRP HGRP_BOND_STAT_REPLAYING 0
  let c := c.each allQueues fun c q => c.modQ q fun x => { x with held := false, oldThr := none }
  let c := c.each allPorts fun c p => c.put (lpB p) PFC_STAT_TX_HOLD 0
  c.spillStop.modQuire fun x => { x with lent := [], unreached := 0, oldThr := none, outs := Vector.replicate 9 {} }

/-- Restarts every count and limit at 0 when the tagged interface comes up, with all 64 limits to send (R296). -/
def Chip.creditRestart (c : Chip) : Chip :=
  let c := c.each allQueues fun c q => c.modQ q fun x =>
    { x with limit := 0, count := 0, limitSeen := false, lastSent := 0, hostCharge := 0 }
  let c := c.modOut 8 fun o => { o with recharge := o.cut.isSome }
  let c := c.modHgrp fun h => { h with recharge := (h.replayq.map fun x => (x.2.1, x.2.2)) }
  (c.modQuire fun x => { x with crdNext := 0 }).limits

/-- Records the first uncorrectable word since UNC was cleared, counts it and sets UNC (R277, R500). -/
def Chip.eccUnc (c : Chip) (addr store source : Nat) : Chip :=
  let c :=
    if c.on QUIRE QUIRE_EVT_UNC then c
    else ((c.putWide (QUIRE + QUIRE_ECC_ADDR_ADDR.off) 2 (addr % 2 ^ 22)).put QUIRE QUIRE_ECC_KIND_STORE store).put QUIRE QUIRE_ECC_KIND_SOURCE source
  (c.bumpQ 9 1).evt QUIRE QUIRE_EVT_UNC
/-- What a read of a word finds. -/
def wordFound (r : WordRead) : Found := (wordErr r.err).1
/-- Bytes with the 16 from a place on changed in the bits of w, the first byte in bits 7 to 0 (log entry 112). -/
def xorBytes (b : Bytes) (place : Nat) (w : BitVec 128) : Bytes :=
  if w = 0 then b
  else b.zipIdx.map fun x => if place ≤ x.2 ∧ x.2 < place + 16 then x.1 ^^^ (w >>> (8 * (x.2 - place))).setWidth 8 else x.1
/-- A frame as read: wrong bits that the code does not see stay in it (R271). -/
def wordSeen (r : WordRead) (b : Bytes) : Bytes := if r.store = 0 then xorBytes b r.place (wordErr r.err).2 else b

/-- Words corrected (R271, R500, R507). -/
def Chip.eccCorr (c : Chip) : Chip := (c.bumpQ 8 1).pmcEvt 1 8 1

end Sys2Proof.Machine
end

