-- ==== Sys2Proof/Machine/FolioOps.lean ====
section
/-! DEFINITION. Folio's operations (06_folio_time.md): the time word and RATE, the servo and its states, latency
constants, captures, event outputs, peer delay and the PTP messages. Times are in 2^-16 ns unless a name says otherwise. -/

namespace Sys2Proof.Machine

/-- The four outputs or inputs. -/
def quad : List (Fin 4) := [0, 1, 2, 3]

/-- One 2^-16 ns in the unit of Folio's time. -/
abbrev fracUnit : Nat := 5 * 2 ^ 40
/-- The visible time, the truncated sum (R193). -/
def Chip.now (c : Chip) : Nat := c.folio.time / fracUnit % (2 ^ 48 * 1000000000 * 65536)
/-- RATE, signed (R194). -/
def Chip.rate (c : Chip) : Int := signed 48 (c.wide (FOLIO + FOLIO_RATE_RATE.off) 3)
/-- The servo state (R200): 0 UNSET, 1 FREE, 2 ACQUIRE, 3 LOCKED, 4 HOLDOVER, 5 FOLLOW. -/
def Chip.fState (c : Chip) : Nat := c.get FOLIO FOLIO_STAT_STATE
/-- The device follows the head: its ROLE is tail (R334). -/
def Chip.isTail (c : Chip) : Bool := c.get SPINE SPINE_STAT_ROLE == 1

/-- ±500 ppm in units of RATE (R194). -/
abbrev rateMax : Int := 36028797018964

/-- Writes RATE, clipped, with RATE_LIMIT when it clips, and its history in LOCKED and FOLLOW (R194, R214). -/
def Chip.setRate (c : Chip) (v : Int) : Chip :=
  let w := max (-rateMax) (min rateMax v)
  let c := c.putWide (FOLIO + FOLIO_RATE_RATE.off) 3 (unsigned 48 w)
  let c := if w = v then c else c.evt FOLIO FOLIO_EVT_RATE_LIMIT
  if c.fState = 3 ∨ c.fState = 5 then c.modFolio fun x => { x with hist := (c.tpll, w) :: x.hist } else c

/-- The integral of RATE over the TPLL cycles from `from_` to the second argument, the history's newest entry first. -/
def rateArea (from_ : Nat) : Nat → List (Nat × Int) → Int
  | _, [] => 0
  | upTo, (t, r) :: l =>
    if t ≤ from_ then r * ((upTo : Int) - from_) else r * ((upTo : Int) - t) + rateArea from_ t l

/-- RATE on entry to HOLDOVER from a LOCKED or FOLLOW visit: the mean over the last AVG seconds, or the present RATE when
the visit was shorter (R214); the mean is rounded down (log entry 18). -/
def Chip.holdRate (c : Chip) : Int :=
  let n := c.get FOLIO FOLIO_HOLD_CTL_AVG * 1250000000
  if c.folio.since + n ≤ c.tpll ∧ c.folio.hist ≠ [] then rateArea (c.tpll - n) c.tpll c.folio.hist / n else c.rate

/-- COARSE goes to 1; FOLIO_FINE then reads all ones (R219, R221). -/
def Chip.setCoarse (c : Chip) : Chip :=
  if c.on FOLIO FOLIO_STAT_COARSE then c
  else (c.put FOLIO FOLIO_STAT_COARSE 1).putWide (FOLIO + FOLIO_FINE_TIME.off) 6 (2 ^ 96 - 1)

/-- A clearing of COARSE, or the first after a pin or power-on reset: FOLIO_FINE latches and FINE is set (R221). -/
def Chip.fine (c : Chip) : Chip :=
  if c.on FOLIO FOLIO_STAT_COARSE ∨ c.folio.fined = false then
    let c := (c.put FOLIO FOLIO_STAT_COARSE 0).putWide (FOLIO + FOLIO_FINE_TIME.off) 6 (timeWord c.now)
    (c.evt FOLIO FOLIO_EVT_FINE).modFolio fun x => { x with fined := true }
  else c

/-- Moves Folio to a state with what entry to it does (R200, R214, R221). -/
def Chip.toF (c : Chip) (n : Nat) : Chip :=
  let old := c.fState
  if old = n then c
  else
    let c := if n = 4 ∧ (old = 3 ∨ old = 5) then c.setRate c.holdRate else c
    let c := c.put FOLIO FOLIO_STAT_STATE n
    let c := c.modFolio fun x => { x with good := 0, bad := 0, slewing := false, beacon := 0, hist := [] }
    if n = 3 ∨ n = 5 then
      let c := c.modFolio fun x => { x with since := c.tpll, hist := [(c.tpll, c.rate)] }
      (c.evt FOLIO FOLIO_EVT_LOCKED).fine
    else if n = 4 then c.evt FOLIO FOLIO_EVT_HOLDOVER
    else c

/-- The first time start + k × per at or above t. -/
def firstAt (start per t : Nat) : Nat := if t ≤ start ∨ per = 0 then start else start + (t - start + per - 1) / per * per

/-- An output after the time has moved to t: a one-shot whose edge has passed is spent and sets OUT_LATE, a periodic one
goes on at its first time after t (R226). -/
def Chip.outMoved (old t : Nat) (c : Chip) (o : Fin 4) : Chip :=
  let e := c.folio.outs[o]
  if e.armed = false then c
  else if e.periodic then c.modEvo o fun x => { x with next := firstAt x.start x.per (t + 1) }
  else if old ≤ e.next ∧ e.next ≤ t then (c.modEvo o fun x => { x with armed := false }).evt FOLIO FOLIO_EVT_OUT_LATE
  else c

/-- Moves the time word to t, in 2^-16 ns (R195, R226). -/
def Chip.moveTime (c : Chip) (t : Int) : Chip :=
  let old := c.now
  let t := (t % ((2 ^ 48 * 1000000000 * 65536 : Nat) : Int)).toNat
  let c := c.modFolio fun x => { x with time := t * fracUnit }
  c.each quad (Chip.outMoved old t)

/-- SRC and SRC_IDX name a line port. -/
def Chip.srcLine (c : Chip) : Option Port :=
  if c.isTail then none
  else if c.get FOLIO FOLIO_CTL_SRC = 1 then some (Fin.ofNat 8 (c.get FOLIO FOLIO_CTL_SRC_IDX)) else none
/-- SRC and SRC_IDX name a PTP port: 0 to 7 LP0 to LP7, 8 to 15 H0 to H7. -/
def Chip.srcPtp (c : Chip) : Option (Fin 16) :=
  if c.isTail then none
  else match c.get FOLIO FOLIO_CTL_SRC with
    | 1 => some (Fin.ofNat 16 (c.get FOLIO FOLIO_CTL_SRC_IDX))
    | 2 => some (Fin.ofNat 16 (8 + c.get FOLIO FOLIO_CTL_SRC_IDX))
    | _ => none

/-- A host lane is a PTP port in the active mode (R208). -/
def Chip.lanePtp (c : Chip) (n : Nat) : Bool := c.hostMode == 0 || (c.hostMode == 4 && decide (n < 4))

/-- The line port of a PTP port below 8, the lane's port else. -/
def ptpPort (i : Fin 16) : Port := Fin.ofNat 8 i.val
/-- The lane of a PTP port above 7. -/
def ptpLane (i : Fin 16) : Lane := Fin.ofNat 16 (i.val % 8)

/-- The link under a PTP port is up. -/
def Chip.ptpUp (c : Chip) (i : Fin 16) : Bool :=
  if i.val < 8 then c.linkUp (ptpPort i) else c.on (laneB (ptpLane i)) XN_STAT_UP && c.lanePtp (i.val % 8)

/-- A PTP port is enabled: a ROLE other than 0, or its bit in FOLIO_HP_CTL.EN (R208, R228). -/
def Chip.ptpEn (c : Chip) (i : Fin 16) : Bool :=
  if i.val < 8 then c.get (lpB (ptpPort i)) TS_CTL_ROLE != 0
  else c.bit FOLIO FOLIO_HP_CTL_EN (i.val % 8) && c.lanePtp (i.val % 8)

/-- asCapable of a PTP port (R208). -/
def Chip.asCap (c : Chip) (i : Fin 16) : Bool :=
  if i.val < 8 then c.on (lpB (ptpPort i)) TS_STAT_AS_CAPABLE else c.folio.ptp[i].asCap

/-- asCapable changes, with AS_LOST when a line port's goes to 0 (R228). -/
def Chip.setAsCap (c : Chip) (i : Fin 16) (v : Bool) : Chip :=
  if i.val < 8 then
    let b := lpB (ptpPort i)
    let c := if c.on b TS_STAT_AS_CAPABLE ∧ v = false then c.evt b TS_EVT_AS_LOST else c
    c.putB b TS_STAT_AS_CAPABLE v
  else c.modPtp i fun x => { x with asCap := v }

/-- The source cannot deliver as it stands: link down, ROLE 0, or a lane that is no PTP port (R200). -/
def Chip.srcDown (c : Chip) : Bool :=
  match c.srcPtp with
  | some i => !c.ptpUp i || (if i.val < 8 then c.get (lpB (ptpPort i)) TS_CTL_ROLE == 0 else false)
  | none => false

/-- The source is lost (R200, R214). -/
def Chip.srcLost (c : Chip) : Chip :=
  let c :=
    match c.srcLine with
    | some p => if c.on FOLIO FOLIO_STAT_SRC_OK then c.evt (lpB p) TS_EVT_SYNC_LOSS else c
    | none => c
  let c := c.put FOLIO FOLIO_STAT_SRC_OK 0
  if c.fState = 2 ∨ c.fState = 3 then c.toF 4 else c

/-- Checks the source after a change of what it stands on (R200). -/
def Chip.srcCheck (c : Chip) : Chip :=
  if c.isTail then c
  else
    let src := c.get FOLIO FOLIO_CTL_SRC
    if (src = 1 ∨ src = 2) ∧ c.srcDown then c.srcLost else c

/-- The exits of FREE, ACQUIRE, LOCKED and HOLDOVER that FOLIO_CTL, XB_LOST and SRC_OK hold as levels, not on a tail
(R200, R216; log entry 110). -/
def Chip.fLevels (c : Chip) : Chip :=
  if c.isTail then c
  else
    let force := c.on FOLIO FOLIO_CTL_FORCE_HOLD
    let free := c.get FOLIO FOLIO_CTL_SRC = 0
    match c.fState with
    | 1 => if force ∨ c.on FOLIO FOLIO_STAT_XB_LOST then c.toF 4 else if free then c else c.toF 2
    | 2 => if force then c.toF 4 else if free then c.toF 1 else c
    | 3 => if force then c.toF 4 else if free then c.toF 1 else c
    | 4 =>
      if force then c
      else if free then (if c.on FOLIO FOLIO_STAT_XB_LOST then c else c.toF 1)
      else if c.on FOLIO FOLIO_STAT_SRC_OK then c.toF 2 else c
    | _ => c

/-- SET or ADD sends a servo in ACQUIRE, LOCKED or HOLDOVER to ACQUIRE, and UNSET to FREE or ACQUIRE (R195, R200); the
exits that hold as levels follow. -/
def Chip.timeSet (c : Chip) : Chip :=
  let c :=
    match c.fState with
    | 0 => c.toF (if c.get FOLIO FOLIO_CTL_SRC = 0 then 1 else 2)
    | 2 => c.modFolio fun x => { x with good := 0 }
    | 3 => c.toF 2
    | 4 => c.toF 2
    | _ => c
  c.fLevels.srcCheck

/-- A servo step of the same TPLL cycle is discarded: time, outputs, STEP and OUT_LATE are as before it (R196). -/
def Chip.undoStep (c : Chip) : Chip :=
  match c.folio.step with
  | some r =>
    if r.at_ = c.tpll then
      let c := c.modFolio fun x => { x with time := r.time, outs := r.outs, step := none }
      (c.putB FOLIO FOLIO_EVT_STEP (r.evt.testBit FOLIO_EVT_STEP.lo)).putB FOLIO FOLIO_EVT_OUT_LATE (r.evt.testBit FOLIO_EVT_OUT_LATE.lo)
    else c
  | none => c
/-- SET or ADD takes effect in this TPLL cycle (R195, R196). -/
def Chip.timeCmd (c : Chip) (t : Chip → Int) : Chip :=
  let c := c.undoStep
  ((c.modFolio fun x => { x with cmdAt := some c.tpll }).moveTime (t c)).timeSet

/-- FOLIO_CMD.SET (R195): not performed when the nanoseconds field is 1,000,000,000 or more. -/
def Chip.cmdSet (c : Chip) : Chip :=
  let w := c.wide (FOLIO + FOLIO_SET_VALUE.off) 6
  if 1000000000 ≤ w / 2 ^ 16 % 2 ^ 32 then c else c.timeCmd fun _ => (ofTimeWord w : Int)

/-- FOLIO_CMD.ADD (R195). -/
def Chip.cmdAdd (c : Chip) : Chip :=
  c.timeCmd fun c => (c.now : Int) + signed 64 (c.wide (FOLIO + FOLIO_ADD_VALUE.off) 4)

/-- FREEZE keeps the servo from RATE and time (R197). -/
def Chip.frozen (c : Chip) : Bool := c.on FOLIO FOLIO_SERVO_CTL_FREEZE

/-- 1 µs in 2^-16 ns. -/
abbrev us1 : Int := 65536000

/-- The servo updates RATE in this TPLL cycle (R197). -/
def Chip.setServoRate (c : Chip) (v : Int) : Chip := (c.setRate v).modFolio fun x => { x with rateAt := some c.tpll }
/-- Software has written RATE over what `o` holds (R194): the write is lost when the servo has updated RATE in the same cycle
and FREEZE is 0 (R197). -/
def Chip.rateWritten (o c : Chip) : Chip :=
  if o.frozen = false ∧ o.folio.rateAt = some o.tpll then c.putWide (FOLIO + FOLIO_RATE_RATE.off) 3 (o.wide (FOLIO + FOLIO_RATE_RATE.off) 3)
  else
    let c := c.setRate (signed 48 (c.wide (FOLIO + FOLIO_RATE_RATE.off) 3))
    c.modFolio fun x => { x with base := c.rate }

/-- The servo steers RATE on a measurement under a loop bandwidth: beyond 1 µs it slews, by at most 100 ppm about the rate that
it held before; inside 1 µs it runs its loop (R201). `ff`: a rate that is fed forward, which the loop then only trims (R213,
09_spine_cascade.md R320). -/
def Chip.steer (c : Chip) (bw : Nat) (ff : Option Int) (off : Int) : Chip :=
  if c.frozen then c
  else
    let far := decide (us1 < off.natAbs)
    let base := ff.getD (if c.folio.slewing then c.folio.base else c.rate)
    let r :=
      if far then base + (if 0 < off then -1 else 1) * ((Config.slew c.freeCtr).val : Int)
      else match ff with
        | some x => x + Config.phaseTrim bw off c.freeCtr
        | none => Config.servoRate bw off base c.freeCtr
    ((c.modFolio fun x => { x with slewing := far, base := base }).setServoRate r).tickFree
/-- The rate that the source's recovered symbol timing feeds forward: a line port in the PHY SLAVE role under FREQ_ASSIST
(R213). -/
def Chip.assist (c : Chip) : Option Int :=
  match c.srcLine with
  | some p =>
    if c.on FOLIO FOLIO_CTL_FREQ_ASSIST ∧ c.get (lpB p) AN_STAT_RESOLVED ≠ 0 ∧ c.on (lpB p) AN_STAT_MS_RESULT = false then
      some (Config.symRatio p.val c.tpll)
    else none
  | none => none

/-- The servo steps the time by −offset (R201); a SET or an ADD in the same TPLL cycle makes it discard the step (R196). -/
def Chip.stepBy (c : Chip) (off : Int) : Chip :=
  if c.frozen ∨ c.folio.cmdAt = some c.tpll then c
  else
    let r : StepRec := { at_ := c.tpll, time := c.folio.time, outs := c.folio.outs, evt := (c.reg (FOLIO + FOLIO_EVT_STEP.off)).toNat }
    ((c.moveTime ((c.now : Int) - off)).evt FOLIO FOLIO_EVT_STEP).modFolio fun x => { x with step := some r }

/-- Counts a measurement toward LOCKED or ACQUIRE (R200). -/
def Chip.countLock (c : Chip) (off : Int) : Chip :=
  let thr := c.get FOLIO FOLIO_SERVO_CTL_LOCK_THR
  if c.fState = 2 then
    if off.natAbs * 10 ≤ thr * 32768 then
      let c := c.modFolio fun x => { x with good := x.good + 1 }
      if 16 ≤ c.folio.good then c.toF 3 else c
    else c.modFolio fun x => { x with good := 0 }
  else if c.fState = 3 then
    if 4 * (thr * 32768) < off.natAbs * 10 then
      let c := c.modFolio fun x => { x with bad := x.bad + 1 }
      if 4 ≤ c.folio.bad then c.toF 2 else c
    else c.modFolio fun x => { x with bad := 0 }
  else c

/-- One offset measurement from the source (R200, R201). -/
def Chip.measure (c : Chip) (off : Int) : Chip :=
  let c := c.putWide (FOLIO + FOLIO_OFFSET_OFFSET.off) 2 (unsigned 32 (satS 32 off))
  let c := c.put FOLIO FOLIO_STAT_SRC_OK 1
  let first := c.folio.first
  let c := c.modFolio fun x => { x with first := false }
  let c := if c.fState = 0 ∨ (c.fState = 4 ∧ c.on FOLIO FOLIO_CTL_FORCE_HOLD = false) then c.toF 2 else c
  if c.fState = 2 ∨ c.fState = 3 then
    let c :=
      if us1 < off.natAbs ∧ (first ∨ c.on FOLIO FOLIO_SERVO_CTL_STEP_EN) ∧ c.frozen = false then (c.stepBy off).countLock off
      else (c.steer (c.get FOLIO FOLIO_SERVO_CTL_BW) c.assist off).countLock off
    if c.on FOLIO FOLIO_CTL_FORCE_HOLD then c.toF 4 else c
  else c

/-- FOLIO_CTL has been written; `src`, `idx` are what it held (R200). -/
def Chip.ctlWritten (c : Chip) (src idx : Nat) : Chip :=
  let c :=
    if src = c.get FOLIO FOLIO_CTL_SRC ∧ idx = c.get FOLIO FOLIO_CTL_SRC_IDX then c
    else (c.put FOLIO FOLIO_STAT_SRC_OK 0).modFolio fun x => { x with ann := none }
  c.fLevels.srcCheck

/-- The clock monitor finds XB failing (R216). -/
def Chip.folioXbFail (c : Chip) : Chip :=
  let c := c.put FOLIO FOLIO_STAT_XB_LOST 1
  if c.fState = 1 ∨ c.fState = 2 ∨ c.fState = 3 then c.toF 4 else c

/-- XB is good again: XB_LOST clears, and HOLDOVER with SRC = 0 ends (R200). -/
def Chip.folioXbBack (c : Chip) : Chip :=
  let c := c.put FOLIO FOLIO_STAT_XB_LOST 0
  if c.fState = 4 ∧ c.get FOLIO FOLIO_CTL_SRC = 0 ∧ c.on FOLIO FOLIO_CTL_FORCE_HOLD = false ∧ c.isTail = false then c.toF 1 else c

/-- NME_CLK: ACQUIRE and LOCKED enter HOLDOVER (R200). -/
def Chip.folioNme (c : Chip) : Chip := if c.fState = 2 ∨ c.fState = 3 then c.toF 4 else c

/-- The message engine's results and messages in waiting are discarded (R539). -/
def Chip.ptpRestart (c : Chip) : Chip :=
  let c := c.each (List.finRange 16) fun c i => (c.setAsCap i false).modPtp i fun x =>
    { x with pdly := 0, pdOk := false, req := none, resp := none, prev := none, lost := 0, sync := none }
  let c := c.each allPorts fun c p =>
    (c.putWide (lpB p + TS_PDLY_PDLY.off) 2 0).putWide (lpB p + TS_NRR_NRR.off) 2 0
  c.modFolio fun x => { x with ann := none }

/-- Restarts the servo: LOCKED goes back to ACQUIRE, and its history is gone; a visit to FOLLOW goes on as a new one (R539,
13_power_and_reset.md R438). -/
def Chip.servoRestart (c : Chip) : Chip :=
  let c := if c.fState = 3 then c.toF 2 else c
  let h := if c.fState = 5 then [(c.tpll, c.rate)] else []
  c.modFolio fun x => { x with good := 0, bad := 0, slewing := false, hist := h, since := c.tpll }

/-- Restarts servo and message engine: FOLIO_CMD.SRST, a global soft reset, or FOLIO's clock again (R539). -/
def Chip.folioRestart (c : Chip) : Chip := c.servoRestart.ptpRestart

/-- FOLIO_CMD.SRST: the capture queues empty too (R228). -/
def Chip.folioSrst (c : Chip) : Chip :=
  (c.each quad fun c i => c.modCap i fun x => { x with queue := [] }).folioRestart

/-- CLK_EN0.FOLIO is cleared: the block is as after its soft reset, the fields kept by B stand, and every output is at its idle
level (R226; 12_clocks.md R399). -/
def Chip.folioStop (c : Chip) : Chip :=
  let c := c.folioSrst.resetRegs (fun a => blkOf a == 0x0B) KB
  c.each quad fun c o => c.modEvo o fun x => { x with pulse := false }

/-- A record in use from a good source (R452). -/
def Chip.nvm (c : Chip) (n : Nat) : Option (List Nat) :=
  match c.cal.use.find? (fun x => x.1 == n) with
  | some (_, u) => if u.source = 0 then none else some u.words
  | none => none

/-- A record whose sources all failed: the design default is in use (R453). -/
def Chip.nvmFailed (c : Chip) (n : Nat) : Bool := c.cal.use.any fun x => x.1 == n && x.2.source == 0

/-- The nominal constant of a line port for mode m, 2.5GBASE-T1 1 to Octavo 5, in 2^-16 ns (R204). -/
def latNominal (m : Nat) : Nat :=
  match m with
  | 1 => 2860 * 65536
  | 2 => 1810 * 65536
  | 3 => 1360 * 65536
  | 4 => 1110 * 65536
  | 5 => 2160 * 65536
  | _ => 0

/-- The resolved mode of a port, 1 to 5, 0 for none (R79). -/
def Chip.modeOf (c : Chip) (p : Port) : Nat := c.get (lpB p) AN_STAT_RESOLVED

/-- A line port's constant in use: from record 0x01, else nominal (R204; the record's word order is log entry 19). -/
def Chip.lat (c : Chip) (p : Port) (tx : Nat) : Nat :=
  let m := c.modeOf p
  if m = 0 then 0
  else match c.nvm 1 with
    | some w => w.getD (2 * (m - 1) + tx) 0
    | none => latNominal m

/-- A host lane's constant in use for its applied rate (R204). -/
def Chip.latLane (c : Chip) (l : Lane) (tx : Nat) : Nat :=
  let r := c.lanes[l].rate
  match c.nvm 2 with
  | some w => w.getD (2 * r + tx) 0
  | none =>
    match r, tx with
    | 0, 0 => 7759462
    | 0, _ => 5662310
    | 1, 0 => 2642412
    | 1, _ => 2181038
    | _, 0 => 6354371
    | _, _ => 5337252

/-- The Pip constants (R204). -/
def Chip.latPip (c : Chip) (tx : Nat) : Nat :=
  match c.nvm 1 with
  | some w => w.getD (10 + tx) 0
  | none => if tx = 0 then 1300 * 65536 else 750 * 65536

/-- The constant from a CAPn ball to its sampler (R204). -/
def Chip.latCap (c : Chip) : Nat := match c.nvm 2 with | some w => w.getD 6 0 | none => 81920
/-- The constant from the compare to an EVTn ball (R204). -/
def Chip.latEvt (c : Chip) : Nat := match c.nvm 2 with | some w => w.getD 7 0 | none => 163840
/-- A PTP port's constant in use. -/
def Chip.latPtp (c : Chip) (i : Fin 16) (tx : Nat) : Nat :=
  if i.val < 8 then c.lat (ptpPort i) tx else c.latLane (ptpLane i) tx

/-- DEGRADED of a line port (R204, R205). -/
def Chip.degraded (c : Chip) (p : Port) : Bool := c.get (lpB p) DLY_STAT_USED == 0 || c.nvmFailed 1

/-- The delay D of a PTP port (R205). -/
def Chip.dOf (c : Chip) (i : Fin 16) : Nat :=
  if i.val < 8 then
    let b := lpB (ptpPort i)
    if c.get b DLY_STAT_USED = 0 then c.wide (b + TS_PDLY_PDLY.off) 2 else c.wide (b + DLY_RX_RX.off) 2
  else c.folio.ptp[i].pdly

/-- D is available (R210). -/
def Chip.dOk (c : Chip) (i : Fin 16) : Bool :=
  c.folio.ptp[i].pdOk || (decide (i.val < 8) && c.get (lpB (ptpPort i)) DLY_STAT_USED != 0)

/-- The difference of peer delay and measured delay against 2 ns (R206). -/
def Chip.checkMismatch (c : Chip) (p : Port) : Chip :=
  let b := lpB p
  if c.get b DLY_STAT_USED = 0 ∨ c.folio.ptp[(Fin.castLE (by omega) p : Fin 16)].pdOk = false then c.put b TS_STAT_DLY_MISMATCH 0
  else
    let d : Int := 2 * (c.wide (b + TS_PDLY_PDLY.off) 2 : Nat) - ((c.wide (b + DLY_TX_TX.off) 2 + c.wide (b + DLY_RX_RX.off) 2 : Nat) : Int)
    if 2 * 131072 < d.natAbs then (c.put b TS_STAT_DLY_MISMATCH 1).evt b TS_EVT_DLY_MISMATCH else c.put b TS_STAT_DLY_MISMATCH 0

/-- The die serial, 40 bits (R534). -/
def Chip.serial (c : Chip) : Nat := c.wide (GLB + GLB_SERIAL_SERIAL.off) 3 % 2 ^ 40
/-- The clockIdentity (R212). -/
def Chip.clockId (c : Chip) : Bytes := be 2 0xCA80 ++ be 5 c.serial ++ be 1 0xFF
/-- The sourcePortIdentity of a PTP port; its port number is the port's place plus 1 (PRESUMED, log entry 17). -/
def Chip.portId (c : Chip) (i : Fin 16) : Bytes := c.clockId ++ be 2 (i.val + 1)

/-- A correctionField: 64 bits signed. -/
def corrField (v : Int) : Bytes := be 8 (unsigned 64 v)
/-- A PTP timestamp: seconds and nanoseconds of a time. -/
def tsField (t : Nat) : Bytes := be 6 (t / 65536 / 1000000000) ++ be 4 (t / 65536 % 1000000000)

/-- A PTP frame of a port without its check sequence: Ethernet header, PTP header, body (R208; the layouts of IEEE 1588 and
802.1AS are PRESUMED, log entry 17). -/
def Chip.ptpFrame (c : Chip) (i : Fin 16) (typ : Nat) (flags : Nat) (corr : Int) (seq ctl log : Nat) (body : Bytes) : Bytes :=
  be 6 0x0180C200000E ++ c.pfcSa (ptpPort i) ++ be 2 0x88F7 ++
  be 1 ((if c.on FOLIO FOLIO_PTP_CTL_PROFILE then 0 else 0x10) + typ) ++ be 1 0x12 ++ be 2 (34 + body.length) ++
  be 1 (c.get FOLIO FOLIO_PTP_CTL_DOMAIN) ++ be 1 0 ++ be 1 flags ++ [Config.ptpFill 7] ++ corrField corr ++ be 4 0 ++
  c.portId i ++ be 2 seq ++ be 1 ctl ++ be 1 log ++ body

/-- The message type of a PTP frame. -/
def ptpType (b : Bytes) : Nat := beAt b 14 1 % 16
/-- Its correctionField. -/
def ptpCorr (b : Bytes) : Int := signed 64 (beAt b 22 8)
/-- Its sequenceId. -/
def ptpSeq (b : Bytes) : Nat := beAt b 44 2
/-- Its two-step flag. -/
def ptpTwoStep (b : Bytes) : Bool := (beAt b 20 1).testBit 1
/-- The timestamp at the start of its body. -/
def ptpTs (b : Bytes) : Nat := (beAt b 48 6 * 1000000000 + beAt b 54 4) * 65536

/-- Whether a frame is a PTP frame of Folio's own domain (R209). -/
def Chip.ptpOwn (c : Chip) (b : Bytes) : Bool :=
  beAt b 12 2 == 0x88F7 && beAt b 18 1 == c.get FOLIO FOLIO_PTP_CTL_DOMAIN

/-- Queues a frame of the part's own for the port's next frame boundary (R211). -/
def Chip.queueCtl (c : Chip) (i : Fin 16) (x : Ctl) : Chip :=
  if i.val < 8 then c.modLink (ptpPort i) fun l => { l with ctlq := l.ctlq ++ [x] }
  else c.modLane (ptpLane i) fun l => { l with ctlq := l.ctlq ++ [x] }

/-- A port sends Sync and Announce: a master port, or under TC a forwarding one, that is not the source, with its link up
and asCapable under PROFILE 0 (R212, R540). -/
def Chip.ptpMaster (c : Chip) (i : Fin 16) : Bool :=
  c.folioOn && c.ptpEn i && c.ptpUp i && (c.srcPtp != some i) &&
  (if i.val < 8 then c.get (lpB (ptpPort i)) TS_CTL_ROLE == 1 else true) &&
  (c.on FOLIO FOLIO_PTP_CTL_PROFILE || c.asCap i)

/-- logSyncInterval of a port as one byte. -/
def Chip.logSync (c : Chip) (i : Fin 16) : Nat :=
  unsigned 8 (if i.val < 8 then c.getS (lpB (ptpPort i)) TS_CTL_LOG_SYNC else c.getS FOLIO FOLIO_HP_CTL_LOG_SYNC)
/-- logPdelayReqInterval of a port as one byte. -/
def Chip.logPdelay (c : Chip) (i : Fin 16) : Nat :=
  unsigned 8 (if i.val < 8 then c.getS (lpB (ptpPort i)) TS_CTL_LOG_PDELAY else c.getS FOLIO FOLIO_HP_CTL_LOG_PDELAY)

/-- The body of this device's Announce: the values of the last one received on the source port with stepsRemoved 1 more, or
its own from FOLIO_ANN (R212). -/
def Chip.annBody (c : Chip) : Bytes :=
  let own : Bytes := be 10 0 ++ [Config.ptpFill 44, Config.ptpFill 45] ++ be 1 0 ++ be 1 (c.get FOLIO FOLIO_ANN_PRIORITY1) ++
    be 1 (c.get FOLIO FOLIO_ANN_CLOCK_CLASS) ++ [Config.ptpFill 49, Config.ptpFill 50, Config.ptpFill 51, Config.ptpFill 52] ++
    c.clockId ++ be 2 0 ++ [Config.ptpFill 63]
  match c.folio.ann with
  | some a => if c.fState = 0 ∨ c.fState = 1 then own else (a.bytes.take 27) ++ be 2 ((a.steps + 1) % 2 ^ 16) ++ (a.bytes.drop 29).take 1
  | none => own

/-- What a frame of the part's own looks like as it starts at time t of its stamp point, with its check sequence (R203,
R212). -/
def Chip.ctlBytes (c : Chip) (i : Fin 16) (x : Ctl) (t : Nat) : Bytes :=
  let out := t + c.latPtp i 1
  match x.kind with
  | 0 => x.bytes
  | 1 => padded (x.bytes.take 22 ++ corrField ((out % 65536 : Nat) : Int) ++ (x.bytes.drop 30).take 18 ++ tsField out ++ x.bytes.drop 58)
  | 2 => padded (x.bytes.take 22 ++ corrField (ptpCorr x.bytes + out + x.base) ++ x.bytes.drop 30)
  | _ => padded x.bytes

/-- What the send of a frame of the part's own leaves behind: T1 of a Pdelay_Req, and the follow-up with T3 of a Pdelay_Resp
(R208). -/
def Chip.ctlSent (c : Chip) (i : Fin 16) (x : Ctl) (t : Nat) : Chip :=
  let out := t + c.latPtp i 1
  match x.kind with
  | 3 => c.modPtp i fun y => { y with req := some (ptpSeq x.bytes, (out : Int)) }
  | 4 => c.queueCtl i { bytes := padded (c.ptpFrame i 0xA 0 ((out % 65536 : Nat) : Int) (ptpSeq x.bytes) 5 0x7F (tsField out ++ (x.bytes.drop 58).take 10)) }
  | _ => c

/-- PTP frames that arrive on a line port are counted as consumed (R209, R500). -/
def Chip.ptpCount (c : Chip) (i : Fin 16) : Chip := if i.val < 8 then c.bumpLp (ptpPort i) 29 1 else c

/-- Forwards a Sync or Follow_Up of the source port to every master port under TC = 1 (R212). -/
def Chip.ptpForward (c : Chip) (src : Fin 16) (b : Bytes) (base : Int) (kind : Nat) : Chip :=
  c.each (List.finRange 16) fun c i =>
    if i ≠ src ∧ c.ptpMaster i then
      c.queueCtl i { kind := kind, bytes := b.take 6 ++ c.pfcSa (ptpPort i) ++ (b.drop 12).take (b.length - 16), base := base }
    else c

/-- A Sync has arrived at stamp time t (R210, R212). -/
def Chip.syncRx (c : Chip) (i : Fin 16) (b : Bytes) (t : Nat) : Chip :=
  let tIn : Int := (t : Int) - c.latPtp i 0
  if c.srcPtp ≠ some i then c
  else
    let c :=
      if c.on FOLIO FOLIO_CTL_TC then c.ptpForward i b ((c.dOf i : Int) - tIn) 2 else c
    let ok := c.dOk i && (c.on FOLIO FOLIO_PTP_CTL_PROFILE || c.asCap i)
    if ptpTwoStep b then c.modPtp i fun x => { x with sync := if ok then some { seq := ptpSeq b, tIn := tIn, corr := ptpCorr b } else none }
    else if ok then c.measure (tIn - (ptpTs b + ptpCorr b + c.dOf i)) else c

/-- A Follow_Up has arrived at stamp time t (R210, R212). Under TC the same is done to it as to a Sync: its own T_out − T_in
and D are added to its correctionField (log entry 20). -/
def Chip.followRx (c : Chip) (i : Fin 16) (b : Bytes) (t : Nat) : Chip :=
  if c.srcPtp ≠ some i then c
  else
    let c := if c.on FOLIO FOLIO_CTL_TC then c.ptpForward i b ((c.dOf i : Int) - ((t : Int) - c.latPtp i 0)) 2 else c
    match c.folio.ptp[i].sync with
    | some x =>
      if x.seq = ptpSeq b then
        (c.modPtp i fun y => { y with sync := none }).measure (x.tIn - (ptpTs b + ptpCorr b + x.corr + c.dOf i))
      else c
    | none => c

/-- An Announce has arrived: the source port's values are kept (R212). -/
def Chip.announceRx (c : Chip) (i : Fin 16) (b : Bytes) : Chip :=
  if c.srcPtp = some i then
    c.modFolio fun x => { x with ann := some { bytes := (b.drop 48).take 30, steps := beAt b 75 2 } }
  else c

/-- A peer-delay result: mean link delay, rate ratio and asCapable (R206, R208). -/
def Chip.pdelayDone (c : Chip) (i : Fin 16) (t1 t2 t3 t4 : Int) : Chip :=
  let prev := c.folio.ptp[i].prev
  -- the neighbour rate ratio as a fraction of the two intervals
  let num := match prev with | some (a, _) => t3 - a | none => 1
  let den := match prev with | some (_, b) => t4 - b | none => 1
  let num := if den = 0 then 1 else num
  let den := if den = 0 then 1 else den
  let d : Int := ((t4 - t1) * num / den - (t3 - t2)) / 2
  let pd := satU 32 d.toNat
  let c := c.modPtp i fun x => { x with pdly := pd, pdOk := true, req := none, resp := none, lost := 0, prev := some (t3, t4) }
  let c :=
    if i.val < 8 then
      let b := lpB (ptpPort i)
      let c := c.putWide (b + TS_PDLY_PDLY.off) 2 pd
      (c.putWide (b + TS_NRR_NRR.off) 2 (unsigned 32 (satS 32 ((num - den) * 2 ^ 41 / den)))).checkMismatch (ptpPort i)
    else c
  c.setAsCap i (decide (d ≤ 800 * 65536))

/-- A peer-delay message has arrived at stamp time t: a request is answered, the two answers give a result (R208). -/
def Chip.pdelayRx (c : Chip) (i : Fin 16) (b : Bytes) (t : Nat) : Chip :=
  let tIn : Nat := t - c.latPtp i 0
  match ptpType b with
  | 2 =>
    c.queueCtl i { kind := 4, bytes := c.ptpFrame i 3 2 ((tIn % 65536 : Nat) : Int) (ptpSeq b) 5 0x7F (tsField tIn ++ (b.drop 34).take 10) }
  | 3 =>
    match c.folio.ptp[i].req with
    | some (seq, _) =>
      if seq = ptpSeq b ∧ (b.drop 58).take 10 = c.portId i then
        c.modPtp i fun x => { x with resp := some ((ptpTs b : Int) + ptpCorr b, (tIn : Int)) }
      else c
    | none => c
  | 0xA =>
    match c.folio.ptp[i].req, c.folio.ptp[i].resp with
    | some (seq, t1), some (t2, t4) =>
      if seq = ptpSeq b ∧ (b.drop 58).take 10 = c.portId i then c.pdelayDone i t1 t2 ((ptpTs b : Int) + ptpCorr b) t4 else c
    | _, _ => c
  | _ => c

/-- A port's link has gone down: asCapable and peer delay end, and the source may be lost (R200, R208). -/
def Chip.folioLinkDown (c : Chip) (i : Fin 16) : Chip :=
  let c := (c.setAsCap i false).modPtp i fun x => { x with pdOk := false, req := none, resp := none, prev := none, lost := 0, sync := none }
  if c.srcPtp = some i then c.srcLost else c

/-- A beacon's offset in HOLDOVER: beyond 100 ns it is slewed out and COARSE is set (R217). -/
def Chip.beaconOffset (c : Chip) (p : Port) (off : Int) : Chip :=
  if c.fState = 4 ∧ c.on FOLIO FOLIO_CTL_BEACON_EN ∧ c.srcLine = some p ∧ 6553600 < off.natAbs then
    (c.modFolio fun x => { x with beacon := -off * fracUnit }).setCoarse
  else c

/-- Time passes by n TPLL cycles (R193), with a beacon's correction at no more than 50 ppm (R217). -/
def Chip.advance (c : Chip) (n : Nat) : Chip :=
  let dt : Int := 4 * n * (2 ^ 56 + c.rate)
  let lim : Int := 4 * n * 2 ^ 56 / 20000
  let mv := max (-lim) (min lim c.folio.beacon)
  c.modFolio fun x => { x with time := ((x.time : Int) + dt + mv).toNat, beacon := x.beacon - mv }

/-- Entry to Nap or Watch records time and RATE (R218), and whether Folio is UNSET (R219), and disarms the outputs (R226). -/
def Chip.folioSleep (c : Chip) : Chip :=
  let c := c.modFolio fun x => { x with sleep := some { time := c.now, rate := c.rate, unset := c.fState == 0, since := c.tpll } }
  c.each quad fun c o => c.modEvo o fun _ => {}

/-- The sleep count: XB cycles of 625/12 ns since entry (R218). -/
def Chip.sleepCount (c : Chip) : Nat :=
  match c.folio.sleep with
  | some r => (c.tpll - r.since) * 192 / 12500
  | none => 0

/-- Wake rebuilds the time and sets STATE, and the levels that end FREE act (R219); `xbFailed`: XB failed during the sleep
(R406). -/
def Chip.folioWake (c : Chip) (xbFailed : Bool) : Chip :=
  match c.folio.sleep with
  | none => c
  | some r =>
    let c := (c.putWide (FOLIO + FOLIO_RATE_RATE.off) 3 (unsigned 48 r.rate)).putB FOLIO FOLIO_STAT_XB_LOST xbFailed
    let n := c.sleepCount
    let c := c.setCoarse.put FOLIO FOLIO_STAT_SRC_OK 0
    let c := c.modFolio fun x => { x with good := 0, bad := 0, slewing := false, hist := [] }
    if 2 ^ 40 < n ∨ xbFailed then
      let c := c.modFolio fun x => { x with time := r.time * fracUnit, first := true }
      (c.put FOLIO FOLIO_STAT_STATE 0).evt FOLIO FOLIO_EVT_UNSET
    else
      let c := c.modFolio fun x => { x with time := (((r.time * fracUnit : Nat) : Int) + 3125 * n * (2 ^ 56 + r.rate) / 12).toNat }
      if r.unset then c.put FOLIO FOLIO_STAT_STATE 0
      else (c.put FOLIO FOLIO_STAT_STATE (if c.get FOLIO FOLIO_CTL_SRC = 0 ∧ c.isTail = false then 1 else 4)).fLevels

/-- Arms output o with the values it holds (R225). -/
def Chip.outArm (c : Chip) (o : Fin 4) : Chip :=
  let b := bk o.val FOLIO
  let start := ofTimeWord (c.wide (b + FOLIO_OUT_START_TIME.off) 6)
  let per := c.wide (b + FOLIO_OUT_PER_PERIOD.off) 3
  let width := c.wide (b + FOLIO_OUT_WIDTH_WIDTH.off) 2
  let soon := c.now + 6553600
  if c.on b FOLIO_OUT_CTL_PERIODIC then
    if per < 65536000 ∨ width < 10 ∨ per < width * 65536 + 655360 then c
    else c.modEvo o fun x => { x with armed := true, periodic := true, start := start, per := per, width := width, next := firstAt start per soon }
  else if width < 10 then c
  else if start < soon then c.evt FOLIO FOLIO_EVT_OUT_LATE
  else c.modEvo o fun x => { x with armed := true, periodic := false, start := start, per := 0, width := width, next := start }

/-- Disarms output o; a pulse in progress completes (R228). -/
def Chip.outStop (c : Chip) (o : Fin 4) : Chip := c.modEvo o fun x => { x with armed := false }

/-- FOLIO's clock has come back: periodic outputs go on at least 100 ns ahead and a passed one-shot is spent (R226). -/
def Chip.outsBack (c : Chip) : Chip :=
  c.each quad fun c o =>
    let e := c.folio.outs[o]
    if e.armed = false then c
    else if e.periodic then c.modEvo o fun x => { x with next := firstAt x.start x.per (max x.next (c.now + 6553600)) }
    else if e.next ≤ c.now then (c.modEvo o fun x => { x with armed := false }).evt FOLIO FOLIO_EVT_OUT_LATE
    else c

/-- The level of ball EVTn (R224): idle while FOLIO is unclocked (R226). -/
def Chip.evtLevel (c : Chip) (o : Fin 4) : Bool := c.on (bk o.val FOLIO) FOLIO_OUT_CTL_POL ^^ (c.folio.outs[o].pulse && c.folioClk)

/-- Takes the oldest stamp of capture input i: its time word, 0 when the queue is empty (R223). -/
def Chip.capTake (c : Chip) (i : Fin 4) : Chip × Nat :=
  match c.folio.caps[i].queue with
  | [] => (c, 0)
  | (t, e) :: l => (c.modCap i fun x => { x with queue := l, edge := e }, timeWord t)

end Sys2Proof.Machine
end

