-- ==== Sys2Proof/Machine/PipOps.lean ====
section
/-! DEFINITION. The Pip channel's operations (04_pip_channel.md): frames, the die roll, message queues, answers, the wake
burst and the link-up exchange's messages. A frame takes its time on the pair from the event that starts it; the other times are
events. -/

namespace Sys2Proof.Machine

/-- LPn_LINK_STAT.STATE (R49). -/
def Chip.lState (c : Chip) (p : Port) : Nat := c.get (lpB p) LINK_STAT_STATE
/-- Pip belongs to the link state (R129). -/
def pipState (n : Nat) : Bool := n == 1 || n == 2 || n == 6 || n == 8 || n == 9 || n == 10
/-- The port sends and receives Pip (R129). -/
def Chip.pipRuns (c : Chip) (p : Port) : Bool := pipState (c.lState p) && c.on (lpB p) PIP_CTL_EN
/-- A reflectometry run is in progress: the Pip transmitter is held and nothing is received (R161). -/
def Chip.tdrBusy (c : Chip) (p : Port) : Bool := c.on (lpB p) DIAG_STAT_BUSY
/-- The port sends a frame or a wake burst (R129). -/
def Chip.pipSends (c : Chip) (p : Port) : Bool := (c.port p).pip.burst || (c.port p).pip.sending.isSome
/-- The Pip receiver hears frames: not during a run, and blanked while the port sends and for 2 µs more (R129, R161). -/
def Chip.pipHears (c : Chip) (p : Port) : Bool :=
  c.pipRuns p && !c.tdrBusy p && !c.pipSends p && decide ((c.port p).pip.deafTo ≤ c.tpll)

/-- One byte of the frame CRC, polynomial x^16 + x^12 + x^5 + 1, most significant bit first (R130). -/
def crc16Byte (r : BitVec 16) (b : Byte) : BitVec 16 :=
  (List.range 8).foldl (fun r _ => if r.getLsbD 15 then (r <<< 1) ^^^ 0x1021#16 else r <<< 1) (r ^^^ (b.setWidth 16 <<< 8))
/-- The frame CRC (R130). -/
def crc16 (b : Bytes) : BitVec 16 := b.foldl crc16Byte 0xFFFF#16
/-- A frame from its start delimiter to its CRC (R130). -/
def pipBytes (payload : Bytes) : Bytes :=
  let x := be 1 payload.length ++ payload
  be 2 0xE5D1 ++ x ++ be 2 (crc16 x).toNat
/-- A message's payload (R130). -/
def PipMsg.payload (m : PipMsg) : Bytes := be 1 m.typ ++ be 1 (m.seq.getD 0) ++ m.body
/-- The preamble: one period of the sequence of x^6 + x^5 + 1, seeded all ones (R130; its output is as log entry 127 has it). -/
def pipPreamble : List Bool := prbs 6 5 63
/-- The bits of a frame in the order they are sent (R130). -/
def pipBits (payload : Bytes) : List Bool := pipPreamble ++ byteBits (pipBytes payload)
/-- How often a bit is sent at a rate (R127). -/
def pipRepeats (rate : Nat) : Nat := 4 ^ rate
/-- The carrier of a frame's chips, on or off in each half of a chip (R125, R127). -/
def pipChips (rate : Nat) (bits : List Bool) : List (Bool × Bool) :=
  bits.flatMap fun b => List.replicate (pipRepeats rate) (b, !b)
/-- TPLL cycles of 0.8 ns that a frame with an L-byte payload takes (R130). -/
def pipTime (rate l : Nat) : Nat := 1250 * ((103 + 8 * l) * pipRepeats rate)

/-- One step of the die-roll LFSR, polynomial x^16 + x^14 + x^13 + x^11 + 1 (R138; its form is log entry 11). -/
def lfsrStep (x : BitVec 16) : BitVec 16 :=
  (x <<< 1) ||| (if x.getLsbD 15 ^^ x.getLsbD 13 ^^ x.getLsbD 12 ^^ x.getLsbD 10 then 1 else 0)
/-- Draws of three bits until one is 1 to 6 (R138); more than 16 in a row without one cannot occur. -/
def dieDraw : Nat → BitVec 16 → Nat × BitVec 16
  | 0, x => (1, x)
  | n + 1, x =>
    let y := lfsrStep (lfsrStep (lfsrStep x))
    let d := y.toNat % 8
    if d = 0 ∨ d = 7 then dieDraw n y else (d, y)
/-- Draws the die roll of port p (R138). -/
def Chip.rollDie (c : Chip) (p : Port) : Chip :=
  let x := (c.port p).pip.lfsr
  let x := if x = 0 then (Config.pipSeed c.serial p.val).val + 1 else x
  let r := dieDraw 16 (BitVec.ofNat 16 x)
  c.modPip p fun y => { y with die := r.1, lfsr := r.2.toNat }

/-- The stack-wide number of a port (R35). -/
def Chip.widePort (c : Chip) (p : Port) : Nat := 8 * c.pos + p.val
/-- The port's identity as 8 bytes (R141). -/
def Chip.identBytes (c : Chip) (p : Port) : Bytes := be 2 0xCA80 ++ be 5 c.serial ++ be 1 (c.widePort p)
/-- The port's identity as one number (R141). -/
def Chip.ident (c : Chip) (p : Port) : Nat := ofBe (c.identBytes p)
/-- LPn_PIP_PEER_ID. -/
def Chip.peerId (c : Chip) (p : Port) : Nat := c.wide (lpB p + PIP_PEER_ID_ID.off) 4

/-- The rate of HELLO, CAP and OFFER (R141). -/
def Chip.linkRate (c : Chip) (p : Port) : Nat := c.get (lpB p) PIP_CTL_LINK_RATE
/-- The rate of SLEEP, BEACON and DIAG_REQ (R141). -/
def Chip.msgRate (c : Chip) (p : Port) : Nat := c.get (lpB p) PIP_CTL_MSG_RATE
/-- The rate that a type takes (R141). -/
def Chip.rateOf (c : Chip) (p : Port) (typ : Nat) : Nat :=
  if typ = 1 ∨ typ = 2 ∨ typ = 3 then c.linkRate p else if typ = 6 ∨ typ = 8 ∨ typ = 9 then c.msgRate p else 0
/-- The type needs an answer (R141). -/
def pipAsks (typ : Nat) : Bool := typ == 2 || typ == 3 || typ == 6 || typ == 7 || typ == 9
/-- The place of a waiting message in the order of R140, the first lowest. -/
def PipMsg.order (m : PipMsg) : Nat :=
  if m.answer then 0
  else match m.typ with
    | 4 => 0
    | 10 => 0
    | 7 => 1
    | 1 => 2
    | 2 => 2
    | 3 => 2
    | 5 => 3
    | 6 => 4
    | 9 => 5
    | _ => 6

/-- Sets the messages that await an answer. -/
def Chip.setOutstanding (c : Chip) (p : Port) (l : List PipOut) : Chip :=
  (c.modPip p fun x => { x with outstanding := l }).putB (lpB p) PIP_STAT_OUTSTANDING (!l.isEmpty)

/-- Takes the next SEQ (R142). -/
def Chip.nextSeq (c : Chip) (p : Port) : Chip := c.modPip p fun x => { x with seq := (x.seq + 1) % 256 }
/-- A new message waits to be sent; it takes its SEQ as it is sent (R140, R142). -/
def Chip.pipQueue (c : Chip) (p : Port) (typ : Nat) (body : Bytes) (answer : Bool) (rate : Nat) : Chip :=
  c.modPip p fun x => { x with waiting := x.waiting ++ [{ typ := typ, body := body, rate := rate, answer := answer }] }
/-- A new message that answers nothing. -/
def Chip.pipPost (c : Chip) (p : Port) (typ : Nat) (body : Bytes) : Chip := c.pipQueue p typ body false (c.rateOf p typ)
/-- Messages of the types named are dropped, waiting or outstanding. -/
def Chip.pipDrop (c : Chip) (p : Port) (which : PipMsg → Bool) : Chip :=
  let c := c.modPip p fun x => { x with waiting := x.waiting.filter fun m => !which m }
  c.setOutstanding p ((c.port p).pip.outstanding.filter fun o => !which o.msg)

/-- An answer to a received message of type `typ` and SEQ `seq`: it waits, and is kept with that SEQ (R139, R144). -/
def Chip.pipAnswer (c : Chip) (p : Port) (typ seq rate : Nat) (atyp : Nat) (body : Bytes) : Chip :=
  let m : PipMsg := { typ := atyp, body := body, rate := rate, answer := true }
  c.modPip p fun x => { x with
    waiting := x.waiting ++ [m]
    stored := { typ := typ, seq := seq, ans := m } :: x.stored.filter fun y => y.typ != typ }
/-- An ACK with a result (R141). -/
def Chip.pipAck (c : Chip) (p : Port) (typ seq rate result : Nat) : Chip :=
  c.pipAnswer p typ seq rate 4 (be 1 typ ++ be 1 seq ++ be 1 result)
/-- The stored answer to a message already acted on (R144). -/
def Chip.pipRepeat (c : Chip) (p : Port) (typ seq : Nat) : Option PipMsg :=
  ((c.port p).pip.stored.find? fun x => x.typ == typ && x.seq == seq).map (·.ans)

/-- A frame with a good CRC has arrived (R128, R134, R500): counters, rate, quality; the receiver searches again. -/
def Chip.pipGood (c : Chip) (p : Port) (typ rate lq : Nat) : Chip :=
  let b := lpB p
  let c := (c.bumpLp p 20 1).bumpLp p (31 + typ) 1
  let c := (c.put b PIP_STAT_LAST_RATE rate).put b PIP_RX_LQ_LQ lq
  let c := (c.put b PIP_RX_LQ_TYPE typ).put b PIP_STAT_RX_BUSY 0
  c.modPip p fun x => { x with gain := 0 }

/-- A received message that needs an answer: repeated, it gets its stored answer again; else it is acted on (R144). -/
def Chip.pipOnce (c : Chip) (p : Port) (typ seq rate lq : Nat) (f : Chip → Chip) : Chip :=
  if c.pipHears p then
    let c := c.pipGood p typ rate lq
    match c.pipRepeat p typ seq with
    | some a =>
      if (c.port p).pip.waiting.any fun m => m.typ == a.typ && m.body == a.body then c
      else c.modPip p fun x => { x with waiting := x.waiting ++ [{ a with rate := rate, answer := true }] }
    | none => f c
  else c

/-- The body of a BEACON whose start delimiter ends at time t (R156). -/
def Chip.beaconBody (c : Chip) (t : Nat) : Bytes :=
  be 6 (t / 65536 / 1000000000) ++ be 4 (t / 65536 % 1000000000) ++
    be 1 ((c.on FOLIO FOLIO_STAT_COARSE).toNat + 2 * (c.fState == 4).toNat)

/-- Frames of a burst sent whole `cyc` TPLL cycles after its first chip: one of 191 µs every 199 µs, none starting after
BURST (R150). -/
def burstSent (len cyc : Nat) : Nat := min ((len * 1000 + 198) / 199) ((cyc / 1250 + 8) / 199)
/-- Counts frames of the burst in progress up to n in all that were not counted yet at m. -/
def Chip.countBurst (c : Chip) (p : Port) (m n : Nat) : Chip :=
  if m < n then (c.bumpLp p 19 (n - m)).bumpLp p 46 (n - m) else c

/-- The Pip transmitter sends or falls silent: TX_BUSY, and PIP_ONLY while the main transmitter is silent (R159). -/
def Chip.showPipTx (c : Chip) (p : Port) : Chip :=
  let b := lpB p
  (c.putB b PIP_STAT_TX_BUSY (c.pipSends p)).putB b PMA_STAT_PIP_ONLY (!c.on b PMA_STAT_TX_ON && c.pipSends p)

/-- Starts a wake burst, or starts it again (R145, R150); a frame being received is lost to it (R129). -/
def Chip.startBurst (c : Chip) (p : Port) : Chip :=
  let b := lpB p
  let s := (c.port p).pip.seq
  let wire := pipBits (be 1 5 ++ be 1 s ++ c.identBytes p ++ be 1 0)
  let c := (c.nextSeq p).modPip p fun x =>
    { x with burst := true, burstSeq := s, burstAt := c.tpll, burstLen := c.get b PIP_WAKE_BURST, wire := wire }
  ((c.put b PIP_CTL_WAKE_REQ 0).put b PIP_STAT_RX_BUSY 0).showPipTx p

/-- A message as it is sent: its first send takes the next SEQ, which its stored copy keeps for a repeat (R142, R144). -/
def Chip.pipNumber (c : Chip) (p : Port) (m : PipMsg) : Chip × PipMsg :=
  match m.seq with
  | some _ => (c, m)
  | none =>
    let n := { m with seq := some (c.port p).pip.seq }
    ((c.nextSeq p).modPip p fun x => { x with stored := x.stored.map fun y => if y.ans = m then { y with ans := n } else y }, n)

/-- Sends a message that waits (R130, R143, R146, R156): a resend counts as one; a DIAG_REQ or SLEEP clears its request
bit, a HELLO draws the spacing of the next one. `t`: the instant its start delimiter ends. -/
def Chip.pipSend (c : Chip) (p : Port) (m : PipMsg) (t : Nat) : Chip :=
  let b := lpB p
  if m.typ = 5 then c.startBurst p
  else
    let r := c.pipNumber p m
    let c := r.1
    let m := if m.typ = 8 then { r.2 with body := c.beaconBody t } else r.2
    let ends := c.tpll + pipTime m.rate m.payload.length
    let c := (((c.bumpLp p 19 1).bumpLp p (41 + m.typ) 1).modPip p fun x =>
      { x with wire := pipBits m.payload, sending := some { msg := m, ends := ends }, deafTo := ends + 2500 }).showPipTx p
    let prev := (c.port p).pip.outstanding.find? fun o => o.msg.typ == m.typ && o.msg.seq == m.seq
    let c := if prev.isSome then c.bumpLp p 24 1 else c
    let rest := (c.port p).pip.outstanding.filter fun o => !(o.msg.typ == m.typ && o.msg.seq == m.seq)
    let c := if pipAsks m.typ then c.setOutstanding p (rest ++ [{ msg := m, sends := ((prev.map (·.sends)).getD 0) + 1 }]) else c
    if m.typ = 6 then c.put b PIP_CTL_SLEEP_REQ 0
    else if m.typ = 9 then c.put b PIP_CTL_DIAG_REQ 0
    else if m.typ = 1 then c.rollDie p
    else c

/-- The waiting message that goes first (R140). -/
def firstWaiting : List PipMsg → Option PipMsg
  | [] => none
  | m :: t =>
    match firstWaiting t with
    | none => some m
    | some n => if n.order < m.order then some n else some m

/-- A WAKE that is the first of what waits starts its burst as soon as the transmitter is free, without listening (R140, R150,
R151). -/
def Chip.wakeNow (c : Chip) (p : Port) : Chip :=
  match firstWaiting (c.port p).pip.waiting with
  | some m =>
    if m.typ = 5 ∧ c.pipRuns p ∧ c.tdrBusy p = false ∧ c.pipSends p = false then
      (c.modPip p fun x => { x with waiting := x.waiting.filter fun m => m.typ != 5 }).startBurst p
    else c
  | none => c

/-- Takes a message out of a list, its first place only. -/
def dropMsg (m : PipMsg) : List PipMsg → List PipMsg
  | [] => []
  | x :: t => if x = m then t else x :: dropMsg m t

/-- Puts a message that awaits its answer back in wait, or abandons it after four sends (R143). -/
def Chip.pipRetry (c : Chip) (p : Port) (o : PipOut) : Chip :=
  if 4 ≤ o.sends then
    ((c.pipDrop p fun m => m == o.msg).bumpLp p 25 1).evt (lpB p) PIP_EVT_NO_ANS
  else c.modPip p fun x => { x with waiting := x.waiting ++ [{ o.msg with answer := false, rate := c.rateOf p o.msg.typ }] }

/-- The transmitter falls silent as the port leaves the states of R129, its ENABLE clears or its EN does (log entry 35): a burst
ends without WAKE_DONE, a frame on the pair is truncated and its message dropped without NO_ANS. -/
def Chip.pipCut (c : Chip) (p : Port) : Chip :=
  let x := (c.port p).pip
  let c := match x.sending with | some t => c.pipDrop p fun m => m.typ == t.msg.typ && m.seq == t.msg.seq | none => c
  let c := c.modPip p fun y => { y with
    burst := false, sending := none, gain := 0, deafTo := if c.pipSends p then c.tpll + 2500 else y.deafTo }
  (c.put (lpB p) PIP_STAT_RX_BUSY 0).showPipTx p

/-- The port leaves the states of R129: what waits is dropped too, but for the requests of R151 (log entry 35). -/
def Chip.pipSilence (c : Chip) (p : Port) : Chip :=
  (c.pipCut p).pipDrop p fun m => m.answer || !(m.typ == 5 || m.typ == 6 || m.typ == 9)

/-- EN of LPn_PIP_CTL is cleared: the transmitter falls silent and no request stays (R151; log entry 35). -/
def Chip.pipEnCleared (c : Chip) (p : Port) : Chip :=
  let b := lpB p
  let c := (c.pipCut p).pipDrop p fun m => m.typ == 5 || m.typ == 6 || m.typ == 9
  ((c.put b PIP_CTL_WAKE_REQ 0).put b PIP_CTL_SLEEP_REQ 0).put b PIP_CTL_DIAG_REQ 0

/-- Every message and request of the port is dropped: DISABLED (R151). -/
def Chip.pipOff (c : Chip) (p : Port) : Chip :=
  let b := lpB p
  let c := (c.pipSilence p).pipDrop p fun _ => true
  ((c.put b PIP_CTL_WAKE_REQ 0).put b PIP_CTL_SLEEP_REQ 0).put b PIP_CTL_DIAG_REQ 0

/-- The link-up exchange begins afresh: PIP_PRE is entered and a HELLO waits (R144, R146). -/
def Chip.pipBegin (c : Chip) (p : Port) : Chip :=
  let b := lpB p
  let c := (c.put b PIP_STAT_PEER_VALID 0).modPip p fun x => { x with stored := [], peerCap := none, capAcked := false, offer := [] }
  let c := c.pipDrop p fun m => m.typ == 1 || m.typ == 2 || m.typ == 3
  let flags := (c.on b AN_ADV_ADV_OCTAVO).toNat + 2 * (c.on b LINK_CTL_FAST_RELINK_EN).toNat
  c.pipPost p 1 (c.identBytes p ++ be 1 flags)

/-- The snapshot of the port for this partner, in the encoding of MODE_SEL, 0 for none (R141). -/
def Chip.snapFor (c : Chip) (p : Port) (peer : Nat) : Nat :=
  if c.on (lpB p) DSP_STAT_SNAP_VALID then
    match (c.port p).link.snap with
    | some s => if s.peer = peer then s.mode else 0
    | none => 0
  else 0
/-- A valid K2 table for this partner with K2_EN (R141). -/
def Chip.k2For (c : Chip) (p : Port) (peer : Nat) : Bool :=
  c.on (lpB p) OCT_CTL_K2_EN && (match (c.port p).oct.k2 with | some t => t.peer == peer | none => false)

/-- The body of this port's CAP (R141). -/
def Chip.capBody (c : Chip) (p : Port) : Bytes :=
  let b := lpB p
  let peer := c.peerId p
  c.identBytes p ++ be 2 (c.port p).link.appliedAdv ++
    be 1 ((c.on b LINK_CTL_FAST_RELINK_EN).toNat + 2 * (c.k2For p peer).toNat + 16 * c.snapFor p peer) ++
    be 1 (c.on b OCT_CTL_ACCEPT_PART).toNat

/-- A HELLO or CAP shows the partner's identity (R141, R159); a new one sets PEER_SEEN (log entry 31). -/
def Chip.peerSeen (c : Chip) (p : Port) (ident : Nat) : Chip :=
  let b := lpB p
  let c := if c.peerId p = ident then c else c.evt b PIP_EVT_PEER_SEEN
  let c := (c.putWide (b + PIP_PEER_ID_ID.off) 4 ident).put b PIP_STAT_PEER_VALID 1
  if ident / 2 ^ 56 = 0xCA ∧ (c.lState p = 1 ∨ c.lState p = 2) then c.put b AN_LP_PARTNER_CARESTYR 1 else c

/-- This end is MASTER of the exchange (R147). -/
def Chip.capMaster (c : Chip) (p : Port) (x : PeerCap) : Bool :=
  let own := (c.port p).link.appliedAdv.testBit 13
  if own = x.adv.testBit 13 then decide (x.ident < c.ident p) else own

/-- Both CAPs advertise Octavo (R148). -/
def Chip.capsOct (c : Chip) (p : Port) (x : PeerCap) : Bool := (c.port p).link.appliedAdv.testBit 4 && x.adv.testBit 4
/-- The conditions of R50 for a fast relink in standard mode m, as both CAPs show them. -/
def Chip.capsFast (c : Chip) (p : Port) (x : PeerCap) (m : Nat) : Bool :=
  decide (1 ≤ m ∧ m ≤ 4) && c.snapFor p x.ident == m && x.snapMode == m && x.fast && c.on (lpB p) LINK_CTL_FAST_RELINK_EN
/-- This end offers Octavo: no forced standard mode here shuts it out (R148; log entry 32). -/
def Chip.octOffer (c : Chip) (p : Port) (x : PeerCap) : Bool :=
  c.capsOct p x && ((c.port p).link.appliedMode == 0 || (c.port p).link.appliedMode == 5)
/-- The standard mode of a fast relink that this end offers, 0 for none (R50, R148; log entry 32). -/
def Chip.fastOffer (c : Chip) (p : Port) (x : PeerCap) : Nat :=
  let m := c.snapFor p x.ident
  let sel := (c.port p).link.appliedMode
  if c.capsFast p x m ∧ (sel = 0 ∨ sel = m) then m else 0
/-- The conditions of R98 for fast Octavo lengths, as both CAPs show them. -/
def Chip.octFast (c : Chip) (p : Port) (x : PeerCap) : Bool :=
  c.snapFor p x.ident == 5 && x.snapMode == 5 && x.fast && c.on (lpB p) LINK_CTL_FAST_RELINK_EN

/-- The body of the OFFER that the MASTER sends, empty when it sends none (R141, R148). -/
def Chip.offerBody (c : Chip) (p : Port) (x : PeerCap) : Bytes :=
  let b := lpB p
  if c.octOffer p x then
    be 1 5 ++
    be 1 ((c.octFast p x).toNat + 2 * (c.k2For p x.ident && x.k2).toNat + 4 * c.get b OCT_CTL_DUPLEX) ++
    be 1 (c.get b OCT_CTL_GRADE) ++ be 1 (c.get b OCT_PART_TX_RATE) ++ be 1 (c.get b OCT_PART_RX_RATE) ++
    be 1 (c.get b OCT_MARGIN_TARGET) ++ be 1 (c.get b OCT_MARGIN_MIN) ++ be 1 0
  else if c.fastOffer p x ≠ 0 then be 1 (c.fastOffer p x) ++ be 1 1 ++ be 6 0
  else []

/-- Whether the SLAVE accepts an OFFER: not a partitioned one with ACCEPT_PART 0, a mode it does not advertise, or the fast bit
without its own conditions (R149). -/
def Chip.offerOk (c : Chip) (p : Port) (x : PeerCap) (o : Bytes) : Bool :=
  let mode := beAt o 0 1
  let flags := beAt o 1 1
  decide (1 ≤ mode ∧ mode ≤ 5) && (c.port p).link.appliedAdv.testBit (mode - 1) &&
    (mode != 5 || !flags.testBit 2 || c.on (lpB p) OCT_CTL_ACCEPT_PART) &&
    (!flags.testBit 0 || if mode = 5 then c.octFast p x else c.capsFast p x mode)

/-- n TPLL cycles pass: frames of a running burst are counted as they end, a frame ends (R129, R150), and a waiting WAKE follows. -/
def Chip.pipTick (n : Nat) (c : Chip) (p : Port) : Chip :=
  let x := (c.port p).pip
  if x.burst then c.countBurst p (burstSent x.burstLen (c.tpll - x.burstAt)) (burstSent x.burstLen (c.tpll + n - x.burstAt))
  else
    match x.sending with
    | some t => if t.ends ≤ c.tpll + n then ((c.modPip p fun y => { y with sending := none }).showPipTx p).wakeNow p else c
    | none => c.wakeNow p

end Sys2Proof.Machine
end

