-- ==== Sys2Proof/Machine/LinkOps.lean ====
section
/-! DEFINITION. Cable delay (05_cable_and_idle.md R170 to R180), the adapted values with their snapshot (02_line_port.md
R57 to R67), and the transitions of the link state machine with what each entry and exit does (R49 to R55). -/

namespace Sys2Proof.Machine

/-- The PTP port of a line port. -/
def ptpOf (p : Port) : Fin 16 := ⟨p.val, by omega⟩

/-- The narrow direction of partitioned duplex runs toward the SLAVE (R94). -/
def OctSt.narrowDown (o : OctSt) : Bool := decide (o.txRate ≤ o.rxRate)
/-- The tones of a direction of port p as a half-open range: sent when `tx`, else received (R94, R95). -/
def Chip.octBand (c : Chip) (p : Port) (tx : Bool) : Nat × Nat :=
  let o := (c.port p).oct
  if o.part then
    let s := c.get (lpB p) OCT_SPLIT_S
    if (tx == o.master) == o.narrowDown then (8, s) else (s + 4, 2040)
  else (8, 2040)
/-- The tone group of a tone (R95). -/
def toneGroup (k : Nat) : Nat := min 31 ((k - 8) / 64)
/-- The tones of a half-open range. -/
def tones (lo hi : Nat) : List Nat := (List.range (hi - lo)).map (lo + ·)

/-- The mean of δ over a band, 2^-16 ns (R174); rounded down (log entry 37). -/
def Chip.meanGd (c : Chip) (p : Port) (band : Nat × Nat) : Int :=
  let l := tones band.1 band.2
  if l = [] then 0 else l.foldl (fun n k => n + (c.port p).diag.gd.getD (toneGroup k) 0) 0 / (l.length : Int)

/-- One-way delays of Method L, toward and from the partner (R174). -/
def Chip.delaysL (c : Chip) (p : Port) : Nat × Nat :=
  let h : Int := (c.wide (lpB p + DLY_RTT_RTT.off) 2 / 2 : Nat)
  if c.modeOf p = 5 ∧ (c.port p).oct.part then
    ((h + c.meanGd p (c.octBand p true)).toNat, (h + c.meanGd p (c.octBand p false)).toNat)
  else (h.toNat, h.toNat)

/-- The delay that Folio takes: 0 none, 1 Method L, 2 Method E (R180). -/
def Chip.delayChoice (c : Chip) (p : Port) : Nat :=
  let b := lpB p
  let m := c.modeOf p
  if c.on b DLY_STAT_L_VALID ∧ c.get b DLY_STAT_L_MODE = m then 1
  else if 1 ≤ m ∧ m ≤ 4 ∧ c.on b DIAG_CTL_E_APPLY ∧ c.on b DLY_STAT_E_VALID then 2
  else 0

/-- Shows the delay in use after any change of what R180 looks at; an event as the port's accuracy becomes degraded (R205, R228;
R180, log entry 36). -/
def Chip.useDelay (c : Chip) (p : Port) : Chip :=
  let b := lpB p
  let old := c.degraded p
  let u := c.delayChoice p
  let d := if u = 1 then c.delaysL p else if u = 2 then ((c.port p).diag.eDelay, (c.port p).diag.eDelay) else (0, 0)
  let c := ((c.put b DLY_STAT_USED u).putWide (b + DLY_TX_TX.off) 2 d.1).putWide (b + DLY_RX_RX.off) 2 d.2
  let c := if u ≠ 0 then c.modDiag p fun x => { x with lastRx := d.2 } else c
  let c := if old = false ∧ c.degraded p then c.evt b TS_EVT_DEGRADED else c
  c.checkMismatch p

/-- Method L is no longer valid (R176). -/
def Chip.loseL (c : Chip) (p : Port) : Chip :=
  let b := lpB p
  let c := c.modDiag p fun x => { x with prevRtt := none }
  let c := if c.on b DLY_STAT_L_VALID then (c.put b DLY_STAT_L_VALID 0).evt b DIAG_EVT_DLY_LOST else c
  c.useDelay p
/-- Method E is no longer valid (R179). -/
def Chip.loseE (c : Chip) (p : Port) : Chip :=
  let b := lpB p
  let c := if c.on b DLY_STAT_E_VALID then (c.put b DLY_STAT_E_VALID 0).evt b DIAG_EVT_DLY_LOST else c
  c.useDelay p
/-- A round trip is taken for the present mode and Method L is valid (R176). -/
def Chip.takeRtt (c : Chip) (p : Port) (rtt : Nat) : Chip :=
  let b := lpB p
  let c := c.putWide (b + DLY_RTT_RTT.off) 2 rtt
  let c := if c.on b DLY_STAT_L_VALID then c else c.evt b DIAG_EVT_DLY_VALID
  ((c.put b DLY_STAT_L_VALID 1).put b DLY_STAT_L_MODE (c.modeOf p)).useDelay p

/-- A foreground calibration ends with a result (R460): targets 0 to 7 are ports, 8 to 23 lanes. The scheduler tries a target
that its partner refused again after 60 s (14_calibration_and_ageing.md R461). -/
def Chip.calEnd (c : Chip) (t res : Nat) : Chip :=
  let own := c.cal.sched == some t
  let c := c.modCal fun x => { x with
    running := x.running.filter fun r => r.1 != t, ended := x.ended.set t res, sched := if own then none else x.sched
    retryAt := if own ∧ res = 3 then x.retryAt.set t (c.tpll + 75000000000) else x.retryAt }
  let c := ((c.putB CAL CAL_FG_STAT_BUSY (!c.cal.running.isEmpty)).put CAL CAL_FG_STAT_RESULT res).put CAL CAL_FG_STAT_TARGET t
  if res = 1 then c.evt CAL CAL_EVT_FG_DONE
  else if res = 2 ∨ res = 3 ∨ res = 4 then c.evt CAL CAL_EVT_FG_REFUSED else c
/-- A foreground calibration of the target runs or waits for its pause. -/
def Chip.calRuns (c : Chip) (t : Nat) : Bool := c.cal.running.any fun r => r.1 == t
/-- A calibration of the target is cut short (R460). -/
def Chip.calAbort (c : Chip) (t : Nat) : Chip := if c.calRuns t then c.calEnd t 4 else c

/-- Last index of a group of adapted values (R57). -/
def tapLast (g : Nat) : Nat :=
  match g with
  | 2 => 31
  | 3 => 3
  | 4 => 3071
  | _ => 0
/-- GROUP and INDEX name an adapted value (R57). -/
def tapOk (g i : Nat) : Bool := decide (g ≤ 4 ∧ i ≤ tapLast g)
/-- A value clipped to its group's range (R57). -/
def tapClip (g : Nat) (v : Int) : Int :=
  match g with
  | 0 => max 0 (min 48 v)
  | 1 => max 0 (min 24 v)
  | 4 => max (-2048) (min 2047 v)
  | _ => max (-512) (min 511 v)
/-- Where the store keeps an adapted value. -/
def tapKey (g i : Nat) : Nat := g * 4096 + i
/-- All keys of adapted values. -/
def tapKeys : List Nat := (List.range 5).flatMap fun g => (List.range (tapLast g + 1)).map (tapKey g)
/-- DRIFT_LIMIT of a group (R58). -/
def Chip.driftLimit (c : Chip) (p : Port) (g : Nat) : Nat :=
  let b := lpB p
  match g with
  | 0 => c.get b DSP_DRIFT_AGC_AGC
  | 1 => c.get b DSP_DRIFT_AGC_CTLE
  | 2 => c.get b DSP_DRIFT_FFE_LIMIT
  | 3 => c.get b DSP_DRIFT_DFE_LIMIT
  | _ => c.get b DSP_DRIFT_EC_LIMIT
/-- The group's freeze bit is set (R65). -/
def Chip.tapFrozen (c : Chip) (p : Port) (g : Nat) : Bool :=
  let b := lpB p
  match g with
  | 0 => c.on b DSP_CTL_FREEZE_AGC
  | 1 => c.on b DSP_CTL_FREEZE_CTLE
  | 2 => c.on b DSP_CTL_FREEZE_FFE
  | 3 => c.on b DSP_CTL_FREEZE_DFE
  | _ => c.on b DSP_CTL_FREEZE_EC
/-- Sets adapted values from a list of group, index and value, clipped; those of no group fall away. -/
def setTaps (t : Sparse) (l : List (Nat × Nat × Int)) : Sparse :=
  l.foldl (fun t x => if tapOk x.1 x.2.1 then Sparse.set t (tapKey x.1 x.2.1) (tapClip x.1 x.2.2) else t) t

/-- The changes that take the adapted values under `keys` from a to b at TPLL count t (R60). -/
def tapChanges (t : Nat) (a b : Sparse) (keys : List Nat) : List TapMove :=
  keys.filterMap fun k => if a.get k = b.get k then none else some { at_ := t, key := k, old := a.get k, new := b.get k }
/-- The adapted values become t; those under `keys` may change, and the changes of the last 100 µs are kept (R60). -/
def Chip.tapsTo (c : Chip) (p : Port) (t : Sparse) (keys : List Nat) : Chip :=
  c.modLink p fun x => { x with
    taps := t, moves := tapChanges c.tpll x.taps t keys ++ x.moves.filter fun m => decide (c.tpll < m.at_ + 125000) }
/-- Sets adapted values from a list of group, index and value. -/
def Chip.tapsFrom (c : Chip) (p : Port) (l : List (Nat × Nat × Int)) : Chip :=
  c.tapsTo p (setTaps (c.port p).link.taps l) (l.map fun x => tapKey x.1 x.2.1)
/-- No adapted value lay, in the last 100 µs, further than an eighth of its DRIFT_LIMIT from what it was at their start (R60). -/
def Chip.settled (c : Chip) (p : Port) : Bool :=
  let l := (c.port p).link.moves.filter fun m => decide (c.tpll < m.at_ + 125000)
  l.all fun m =>
    match l.reverse.find? fun o => o.key == m.key with
    | some o => decide (8 * (m.new - o.old).natAbs ≤ c.driftLimit p (m.key / 4096))
    | none => true

/-- The partner's identity as this link-up showed it, 0 when it is no Carestyr device. -/
def Chip.partner (c : Chip) (p : Port) : Nat := if c.on (lpB p) AN_LP_PARTNER_CARESTYR then c.peerId p else 0
/-- Writes the port's snapshot into keep bank K1 (R67, R123). -/
def Chip.writeSnap (c : Chip) (p : Port) : Chip :=
  let o := (c.port p).oct
  let oct := c.modeOf p == 5
  let s : Snapshot := { mode := c.modeOf p, peer := c.partner p, taps := if oct then (c.port p).link.taps.filter fun x => x.1 / 4096 != 3 else (c.port p).link.taps,
                        tones := if oct then o.weq else [], split := if oct then c.get (lpB p) OCT_SPLIT_S else 0, part := oct && o.part }
  (c.modLink p fun x => { x with snap := some s }).put (lpB p) DSP_STAT_SNAP_VALID 1

/-- Failed refreshes in the last second (R61). -/
def Chip.refreshFails (c : Chip) (p : Port) : Nat :=
  (c.port p).link.failTimes.countP fun t => decide (c.tpll < t + 1250000000)

/-- Ends refresh, drift freeze and their history as the link goes down (R70). -/
def Chip.refreshClear (c : Chip) (p : Port) : Chip :=
  let b := lpB p
  let c := (c.put b DSP_STAT_REFRESH_ACTIVE 0).put b DSP_STAT_DRIFT_FROZEN 0
  let c := (c.put b DSP_STAT_REFRESH_FAILS 0).put b LPI_STAT_REFRESH_DEFERRED 0
  c.modLink p fun x => { x with failTimes := [], retryDue := false, frozen := [], moves := [] }

/-- A reflectometry run ends with a result (R162 to R166, R500), and the held Pip transmitter goes on. DESIGN CHOICE (log entry
137): what the run before reported stays where this one ends ABORTED; the spec does not say. -/
def Chip.tdrFinish (c : Chip) (p : Port) (res : Nat) : Chip :=
  let b := lpB p
  let c := ((c.put b DIAG_STAT_BUSY 0).put b DIAG_CTL_TDR_START 0).put b DIAG_STAT_RESULT res
  let c := c.modDiag p fun x => { x with tries := 0, shooting := false }
  (c.evt b DIAG_EVT_TDR_DONE).bumpLp p 26 1
/-- A run in progress ends ABORTED (R162). -/
def Chip.tdrAbort (c : Chip) (p : Port) : Chip :=
  let c := if c.tdrBusy p then c.tdrFinish p 5 else c
  c.modDiag p fun x => { x with timerDue := false }

/-- The main transmitter sends or falls silent. -/
def Chip.setTx (c : Chip) (p : Port) (on : Bool) : Chip :=
  (c.putB (lpB p) PMA_STAT_TX_ON on).putB (lpB p) PMA_STAT_PIP_ONLY (!on && c.pipSends p)

/-- Moves LPI status bits of the transmit and receive directions (R191). -/
def Chip.setTxLpi (c : Chip) (p : Port) (on : Bool) : Chip :=
  (c.putB (lpB p) PCS_STAT_TX_LPI on).putB (lpB p) LPI_STAT_TX_QUIET on
/-- The partner's direction enters or leaves LPI, and in it a quiet period (R189, R191). -/
def Chip.setRxLpi (c : Chip) (p : Port) (lpi quiet : Bool) : Chip :=
  (c.putB (lpB p) PCS_STAT_RX_LPI lpi).putB (lpB p) LPI_STAT_RX_QUIET (lpi && quiet)

/-- A main transmitter that the Octavo phase lets send on the data tones (R97, R118). -/
def octSends (o : OctSt) (phase : Nat) : Bool :=
  match phase with
  | 3 => o.master
  | 4 => o.master
  | 5 => !o.master
  | 6 => true
  | 7 => !o.part || o.master
  | 8 => !o.master
  | 9 => true
  | 10 => true
  | 11 => true
  | _ => false
/-- Moves the Octavo port to a phase (R97). -/
def Chip.setPhase (c : Chip) (p : Port) (n : Nat) : Chip :=
  (c.put (lpB p) OCT_STAT_PHASE n).setTx p (octSends (c.port p).oct n)

/-- What leaving OCTAVO clears: the live status and everything under way (R97, R124). -/
def Chip.octLeave (c : Chip) (p : Port) : Chip :=
  let b := lpB p
  let c := ((c.put b OCT_STAT_PHASE 0).put b OCT_STAT_GRADE_ACT 0).put b OCT_STAT_DUPLEX_ACT 0
  let c := ((c.put b OCT_STAT_SWAP_PENDING 0).put b OCT_STAT_RELOAD_PENDING 0).put b OCT_STAT_PAUSED 0
  let c := ((c.put b OCT_BTX_B 0).put b OCT_BRX_B 0).put b OCT_CTL_RELOAD 0
  let c := ((c.put b OCT_NCW_N_TX 0).put b OCT_NCW_N_RX 0).put b OCT_SPLIT_S 0
  let c := (c.put b OCT_SF_TX_SF 0).put b OCT_SF_RX_SF 0
  let c := c.modDiag p fun x => { x with gd := List.replicate 32 0, lpiSf := 0 }
  c.modOct p fun o => { k2 := o.k2, omcSeq := o.omcSeq }

/-- What a link that was up leaves behind as it goes down (R54, R76, R200, R289). The link state already shows it down. -/
def Chip.linkLost (c : Chip) (p : Port) : Chip :=
  let b := lpB p
  let c := (c.put b LINK_STAT_LINK_UP 0).evt b LINK_EVT_LINK_DOWN
  let c := ((c.put b PCS_STAT_BLOCK_LOCK 0).put b PCS_STAT_LINK_STATUS 0).put b PCS_STAT_FEC_ALIGN 0
  let c := (((c.setTxLpi p false).setRxLpi p false false).put b PFC_STAT_RX_PAUSED 0).put b LM_STAT_SNR_MARGIN 0
  let c := c.put b DSP_SNR_SNR 0
  let c := c.modLink p fun x => { x with ctlq := [], pauseQuanta := List.replicate 8 0, snrBad := 0, uncBad := 0, eee := false }
  (c.quireLinkDown p).folioLinkDown (ptpOf p)

/-- What a link that comes up brings (R32, R49, R58, R67, R171): numbers toward the host begin at 0. -/
def Chip.linkGained (c : Chip) (p : Port) : Chip :=
  let b := lpB p
  let c := (c.put b LINK_STAT_LINK_UP 1).evt b LINK_EVT_LINK_UP
  let c := ((c.put b PCS_STAT_BLOCK_LOCK 1).put b PCS_STAT_LINK_STATUS 1).put b PCS_STAT_FEC_ALIGN 1
  let c := c.put b PMA_STAT_SIGNAL_DET 1
  let c := c.modLink p fun x => { x with centres := x.taps, frozen := [], failTimes := [], retryDue := false, snrBad := 0, uncBad := 0 }
  let c := c.modDiag p fun x => { x with prevRtt := none }
  let c := c.modQuire fun x => { x with seqs := x.seqs.set p.val 0 }
  c.writeSnap p

/-- MODE_SEL, LPn_AN_ADV and PRECODE take effect (R53). -/
def Chip.applyModes (c : Chip) (p : Port) : Chip :=
  let b := lpB p
  c.modLink p fun x => { x with
    appliedMode := c.get b LINK_CTL_MODE_SEL
    appliedAdv := (c.reg (b + AN_ADV_ADV_2G5.off)).toNat % 2 ^ 14
    appliedPrecode := c.get b PMA_CTL_PRECODE }

/-- Forgets the last attempt's result as a new one begins, or as the port stands in DISABLED. -/
def Chip.anClear (c : Chip) (p : Port) : Chip :=
  let b := lpB p
  let c := ((c.put b AN_LP_ABILITY 0).put b AN_LP_PARTNER_CARESTYR 0).put b AN_LP_VALID 0
  let c := (c.setReg (b + AN_STAT_RESOLVED.off) 0).modDiag p fun x => { x with coarse := none }
  let c := c.modLink p fun x => { x with eee := false }
  c.useDelay p

/-- A standard mode or Octavo is resolved (R47, R49), and with it the delay in use (R180); EEE only by Clause 98 (R182). -/
def Chip.resolve (c : Chip) (p : Port) (mode via : Nat) (master : Bool) : Chip :=
  let b := lpB p
  let c := (((c.put b AN_STAT_RESOLVED mode).putB b AN_STAT_MS_RESULT master).put b AN_STAT_AN_DONE 1).put b AN_STAT_VIA via
  (c.modLink p fun x => { x with eee := false }).useDelay p

/-- Moves the link state machine of port p to state n, with what leaving the present state and entering the new one do; a WAKE that
waited starts on entry to a state of R129 (R151). -/
def Chip.toLink (c : Chip) (p : Port) (n : Nat) : Chip :=
  let b := lpB p
  let old := c.lState p
  let up := c.linkUp p
  let c := c.tdrAbort p
  let c := if old = 6 ∨ old = 11 then c.calAbort p.val else c
  let c := c.put b LINK_STAT_STATE n
  let c := if up then c.linkLost p else c
  let c := if old = 6 ∨ old = 7 then (c.refreshClear p).loseL p else c
  let c := if old = 6 then c.octLeave p else c
  let c := if (old = 1 ∨ old = 2) ∧ n ≠ 2 ∧ n ≠ 11 then c.pipDrop p fun m => m.typ == 1 || m.typ == 2 || m.typ == 3 else c
  let c := if pipState old ∧ pipState n = false then (if n = 11 then c.pipCut p else c.pipSilence p) else c
  let c := match n with
    | 0 => ((((c.pipOff p).setTx p false).anClear p).put b PMA_STAT_SIGNAL_DET 0)
    | 1 => (((c.applyModes p).setTx p false)).pipBegin p
    | 2 => (c.pipDrop p fun m => m.typ == 1).pipPost p 2 (c.capBody p)
    | 3 => (c.applyModes p).setTx p true
    | 4 => (c.applyModes p).setTx p true
    | 5 => (c.setTx p true).modLink p fun x => { x with taps := (x.snap.getD {}).taps }
    | 6 => c.setPhase p 1
    | 7 => (c.setTx p true).linkGained p
    | 8 =>
      let c := (c.setTx p false).put b LINK_STAT_ATTEMPTS (min 15 (c.get b LINK_STAT_ATTEMPTS + 1))
      let c := c.bumpLp p 13 1
      if c.on b PIP_CTL_EN then c.pipPost p 8 [] else c
    | 10 => (c.setTx p false).evt b LINK_EVT_HALT
    | _ => c.setTx p false
  if pipState old then c else c.wakeNow p

/-- Declares link fail with a cause; for Octavo also DOWN_CAUSE (R68, R121). -/
def Chip.linkFail (c : Chip) (p : Port) (cause : Nat) (down : Option Nat) : Chip :=
  let c := c.put (lpB p) LINK_STAT_FAIL_CAUSE cause
  let c := match down with | some d => c.put (lpB p) OCT_STAT_DOWN_CAUSE d | none => c
  c.toLink p 8

/-- The forced standard mode resolves itself (R49). -/
def Chip.toTrain (c : Chip) (p : Port) : Chip :=
  let b := lpB p
  (c.resolve p (c.get b LINK_CTL_MODE_SEL) 3 (c.on b AN_ADV_MS_MASTER)).toLink p 4

/-- The start exit of DISABLED (R49). -/
def Chip.startExit (c : Chip) (p : Port) : Chip :=
  let b := lpB p
  let c := c.anClear p
  let m := c.get b LINK_CTL_MODE_SEL
  let pre := c.on b LINK_CTL_PIP_PRE_EN
  let snap := c.on b DSP_STAT_SNAP_VALID && (match (c.port p).link.snap with | some s => s.mode == m | none => false)
  if m = 5 ∨ (m = 0 ∧ pre) ∨ (m ≠ 0 ∧ pre ∧ c.on b LINK_CTL_FAST_RELINK_EN ∧ snap) then c.toLink p 1
  else if m = 0 then c.toLink p 3
  else c.toTrain p

/-- The exit of PIP_PRE and PIP_CAP without agreement (R49; log entry 34). -/
def Chip.noAgreement (c : Chip) (p : Port) : Chip :=
  match c.get (lpB p) LINK_CTL_MODE_SEL with
  | 0 => c.toLink p 3
  | 5 => c.linkFail p 7 (some 0)
  | _ => c.toTrain p

/-- T_HOLD or T_BACK expires: LINK_FAIL goes to HALT or BACKOFF or takes the start exit, BACKOFF takes it (R49). -/
def Chip.holdExit (c : Chip) (p : Port) : Chip :=
  let b := lpB p
  let a := c.get b LINK_STAT_ATTEMPTS
  let m := c.get b LINK_CTL_RELINK_MAX
  if c.lState p = 9 then c.startExit p
  else if c.on b LINK_CTL_RELINK_EN = false ∨ (m ≠ 0 ∧ m ≤ a) then c.toLink p 10
  else if 4 ≤ a then c.toLink p 9
  else c.startExit p

/-- A clocked port whose ENABLE is 1 leaves DISABLED (R49). -/
def Chip.portStart (c : Chip) (p : Port) : Chip :=
  if c.lState p = 0 ∧ c.on (lpB p) PMA_CTL_ENABLE ∧ c.portClk p then c.startExit p else c

/-- A reflectometry run has ended by itself: an exit whose timer expired during it is taken now (R162). -/
def Chip.tdrOver (c : Chip) (p : Port) (res : Nat) : Chip :=
  let c := (c.tdrFinish p res).wakeNow p
  if (c.port p).diag.timerDue then (c.modDiag p fun x => { x with timerDue := false }).holdExit p else c

end Sys2Proof.Machine
end

