-- ==== Sys2Proof/Machine/Adapt.lean ====
section
/-! DEFINITION. Adaptation, quick refresh, freezes and software access to the adapted values (02_line_port.md R57 to R66),
and the meanings of its events. -/

namespace Sys2Proof.Machine

/-- The link is up with adaptation under R58 to R66: LINK_UP, or OCTAVO SHOWTIME (R62, R107). -/
def Chip.adapting (c : Chip) (p : Port) : Bool :=
  c.lState p == 7 || (c.lState p == 6 && c.get (lpB p) OCT_STAT_PHASE == 11)

/-- A quick refresh starts; what it restores on failure is what the first of its chain began with (R60, R62). -/
def Chip.startRefresh (c : Chip) (p : Port) : Chip :=
  let b := lpB p
  let chain := c.on b DSP_STAT_REFRESH_ACTIVE
  let c := c.modLink p fun x => { x with frozen := if chain then x.frozen else x.taps, retryDue := false }
  ((c.put b DSP_STAT_REFRESH_ACTIVE 1).put b DSP_STAT_DRIFT_FROZEN 0).put b LPI_STAT_REFRESH_DEFERRED 0

/-- The value of a list of adaptation moves that lies outside its envelope, by its group (R58, R59): of several groups the
lowest (DESIGN CHOICE, log entry 116). -/
def Chip.driftOut (c : Chip) (p : Port) (l : List (Nat × Nat × Int)) : Option Nat :=
  ((l.filter fun x => decide (c.driftLimit p x.1 < (tapClip x.1 x.2.2 - Sparse.get (c.port p).link.centres (tapKey x.1 x.2.1)).natAbs)).map (·.1)).min?

/-- The moves that a step may make now: no frozen group, none held through LPI (R189; log entry 43), no group 3 in Octavo
(R107). -/
def Chip.tapMoves (c : Chip) (p : Port) (l : List (Nat × Nat × Int)) : List (Nat × Nat × Int) :=
  let b := lpB p
  let rq := c.on b LPI_STAT_RX_QUIET
  let tq := c.on b LPI_STAT_TX_QUIET
  l.filter fun x => tapOk x.1 x.2.1 && !c.tapFrozen p x.1 && !rq && !(tq && x.1 == 4) && !(c.lState p == 6 && x.1 == 3)

/-- ADAPTATION_STEP (R58, R59; none in a calibration pause, 03_octavo.md R118): the step would set the values of `l`, a list of group, index and value. One outside its
envelope trips the drift. -/
def execAdaptationStep (p : Port) (l : List (Nat × Nat × Int)) (s : State) : Res :=
  s.act fun c =>
    let b := lpB p
    let m := c.tapMoves p l
    let move := fun (c : Chip) => c.tapsFrom p m
    if c.adapting p then
      if c.on b DSP_STAT_REFRESH_ACTIVE then move c
      else if c.on b DSP_STAT_DRIFT_FROZEN then c
      else match c.driftOut p m with
        | none => move c
        | some g =>
          let c := ((c.put b DSP_STAT_DRIFT_FROZEN 1).evt b LINK_EVT_DRIFT).put b DSP_STAT_DRIFT_GROUP g
          let c := c.bumpLp p 14 1
          if c.on b DSP_CTL_REFRESH_EN then
            if c.on b PCS_STAT_RX_LPI then c.put b LPI_STAT_REFRESH_DEFERRED 1 else c.startRefresh p
          else c
    else if c.lState p = 4 ∨ c.lState p = 5 ∨ (c.lState p = 6 ∧ c.get b OCT_STAT_PHASE ≠ 12) then move c
    else c

/-- Three failed refreshes within 1 s: link fail, FAIL_CAUSE 5, in Octavo with DOWN_CAUSE 0 (R61, R121). -/
def Chip.refreshLinkFail (c : Chip) (p : Port) : Chip := c.linkFail p 5 (if c.lState p = 6 then some 0 else none)

/-- QUICK_REFRESH_END (R60): 2 ms of a quick refresh have passed. -/
def execQuickRefreshEnd (p : Port) (s : State) : Res :=
  s.act fun c =>
    let b := lpB p
    if c.adapting p ∧ c.on b DSP_STAT_REFRESH_ACTIVE then
      let c := c.put b DSP_STAT_REFRESH_ACTIVE 0
      if c.settled p ∧ c.getS b LM_CTL_SNR_MIN ≤ c.getS b LM_STAT_SNR_MARGIN then
        (c.modLink p fun x => { x with centres := x.taps, frozen := [], retryDue := false }).writeSnap p
      else
        let f := (c.port p).link.frozen
        let c := c.tapsTo p f (((c.port p).link.taps ++ f).map (·.1))
        let c := c.modLink p fun x => { x with frozen := [], failTimes := c.tpll :: x.failTimes, retryDue := true }
        let c := ((c.put b DSP_STAT_DRIFT_FROZEN 1).evt b LINK_EVT_REFRESH_FAIL).bumpLp p 15 1
        if 3 ≤ c.refreshFails p then c.refreshLinkFail p else c
    else c

/-- QUICK_REFRESH_RETRY (R61): 10 ms after a failed refresh. -/
def execQuickRefreshRetry (p : Port) (s : State) : Res :=
  s.act fun c =>
    if c.adapting p ∧ (c.port p).link.retryDue then
      if 3 ≤ c.refreshFails p then c.refreshLinkFail p else c.startRefresh p
    else c

/-- A write of 1 to REFRESH_REQ (R62). -/
def Chip.refreshWritten (c : Chip) (p : Port) : Chip :=
  let c := c.put (lpB p) DSP_CTL_REFRESH_REQ 0
  if c.adapting p then c.startRefresh p else c

/-- LPn_DSP_CTL has been written; `old` is what it held. A group freeze bit newly set ends a running refresh (R65). -/
def Chip.freezeWritten (c : Chip) (p : Port) (old : BitVec 16) : Chip :=
  let b := lpB p
  let new := c.reg (b + DSP_CTL_FREEZE_AGC.off)
  if (new &&& ~~~old &&& 0x1F#16) ≠ 0 ∧ c.on b DSP_STAT_REFRESH_ACTIVE then
    (c.put b DSP_STAT_REFRESH_ACTIVE 0).modLink p fun x => { x with centres := x.taps, frozen := [], retryDue := false }
  else c

/-- INDEX and GROUP of LPn_DSP_TAP_SEL, as a key. -/
def Chip.tapSel (c : Chip) (p : Port) : Nat × Nat := (c.get (lpB p) DSP_TAP_SEL_GROUP, c.get (lpB p) DSP_TAP_SEL_INDEX)
/-- AUTOINC after an access to LPn_DSP_TAP_DATA (R79). -/
def Chip.tapNext (c : Chip) (p : Port) : Chip :=
  let b := lpB p
  if c.on b DSP_TAP_SEL_AUTOINC then
    let s := c.tapSel p
    c.put b DSP_TAP_SEL_INDEX (if tapLast s.1 ≤ s.2 then 0 else s.2 + 1)
  else c
/-- What LPn_DSP_TAP_DATA reads (R57); group 3 reads 0 in Octavo (R107). -/
def Chip.tapValue (c : Chip) (p : Port) : Nat :=
  let s := c.tapSel p
  if c.lState p = 6 ∧ s.1 = 3 then 0 else unsigned 16 (Sparse.get (c.port p).link.taps (tapKey s.1 s.2))
/-- What LPn_DSP_TAP_CTR reads; group 3 is not used in Octavo (R107). -/
def Chip.tapCentre (c : Chip) (p : Port) : Nat :=
  let s := c.tapSel p
  if c.lState p = 6 ∧ s.1 = 3 then 0 else unsigned 16 (Sparse.get (c.port p).link.centres (tapKey s.1 s.2))
/-- A write to LPn_DSP_TAP_DATA: read in its group's format, clipped, and the centre moves with it (R57, R64); in Octavo it is
lost in group 3 (R107). -/
def Chip.tapWrite (c : Chip) (p : Port) (v : Nat) : Chip :=
  let s := c.tapSel p
  let k := tapKey s.1 s.2
  let v : Int := tapClip s.1 (if s.1 ≤ 1 then ((v % 2 ^ 16 : Nat) : Int) else signed 16 v)
  if c.lState p = 6 ∧ s.1 = 3 then c.tapNext p
  else ((c.tapsTo p (Sparse.set (c.port p).link.taps k v) [k]).modLink p fun x => { x with centres := Sparse.set x.centres k v }).tapNext p

/-- RX_LPI_QUIET_CHANGE (R69; 05_cable_and_idle.md R177, R189): in a standard mode the partner's direction is in LPI or not, and in
a quiet period of it or in a refresh; after markers return a new series of windows starts. -/
def execRxLpiQuietChange (p : Port) (lpi quiet : Bool) (s : State) : Res :=
  s.act fun c =>
    if c.lState p = 7 then
      ((c.setRxLpi p lpi quiet).modDiag p fun x => { x with prevRtt := none }).modLink p fun x => { x with snrBad := 0, uncBad := 0 }
    else c

/-- DEFERRED_REFRESH_START (R190). -/
def execDeferredRefreshStart (p : Port) (s : State) : Res :=
  s.act fun c =>
    let b := lpB p
    if c.adapting p ∧ c.on b LPI_STAT_REFRESH_DEFERRED ∧ c.on b PCS_STAT_RX_LPI = false then c.startRefresh p else c

end Sys2Proof.Machine
end

