-- ==== Sys2Proof/Machine/Link.lean ====
section
/-! DEFINITION. The meanings of the link state machine's events, of link monitoring and of received flow control
(02_line_port.md R47 to R56, R68 to R77), and what the writes to a port's control bits do. -/

namespace Sys2Proof.Machine

/-- LPn_PMA_CTL.ENABLE has been written (R49, R54). -/
def Chip.enableWritten (c : Chip) (p : Port) : Chip :=
  if c.on (lpB p) PMA_CTL_ENABLE then c.portStart p else if c.lState p = 0 then c else c.toLink p 0

/-- A line port in the state that its block soft reset gives (R79, R447): fields that B keeps, the K1 snapshot and the K2
table stay. -/
def Chip.portClear (c : Chip) (p : Port) : Chip :=
  let c := c.toLink p 0
  let c := c.resetRegs (fun a => blkOf a == 0x10 + p.val) KB
  let c := c.modPort p fun x => { link := { snap := x.link.snap, wire := x.link.wire }, oct := { k2 := x.oct.k2 } }
  let c := c.putB (lpB p) DSP_STAT_SNAP_VALID (c.port p).link.snap.isSome
  let c := c.put (lpB p) PFC_STAT_TX_HOLD (ofBits ((List.finRange 8).map fun k => (c.quire.queues[qOf 0 p k]).held))
  c.useDelay p
/-- The block soft reset of a line port (R79). -/
def Chip.portReset (c : Chip) (p : Port) : Chip := (c.portClear p).portStart p

/-- A write of 1 to LPn_LINK_CTL.RESTART (R55). -/
def Chip.restartWritten (c : Chip) (p : Port) : Chip :=
  let b := lpB p
  let c := c.put b LINK_CTL_RESTART 0
  if c.lState p = 0 then c
  else if c.lState p = 8 then (c.tdrAbort p).put b LINK_STAT_FAIL_CAUSE 6
  else c.linkFail p 6 (if c.lState p = 6 then some 0 else none)

/-- PIP_PRE_TIMEOUT (R49). -/
def execPipPreTimeout (p : Port) (s : State) : Res := s.act fun c => if c.lState p = 1 then c.noAgreement p else c
/-- PIP_CAP_TIMEOUT (R49). -/
def execPipCapTimeout (p : Port) (s : State) : Res := s.act fun c => if c.lState p = 2 then c.noAgreement p else c
/-- AN_TIMEOUT (R49, R538). -/
def execAnTimeout (p : Port) (s : State) : Res := s.act fun c => if c.lState p = 3 then c.linkFail p 0 none else c
/-- TRAIN_TIMEOUT (R49, R538). -/
def execTrainTimeout (p : Port) (s : State) : Res := s.act fun c => if c.lState p = 4 then c.linkFail p 0 none else c
/-- FAST_TRAIN_TIMEOUT (R49). -/
def execFastTrainTimeout (p : Port) (s : State) : Res :=
  s.act fun c =>
    if c.lState p = 5 then
      let c := ((c.evt (lpB p) LINK_EVT_FAST_MISS).setReg (lpB p + AN_STAT_RESOLVED.off) 0).useDelay p
      if c.get (lpB p) LINK_CTL_MODE_SEL = 0 then c.toLink p 3 else c.toTrain p
    else c
/-- LINK_FAIL_HOLD_EXPIRY (R49): during a reflectometry run the exit waits for its end (R162). -/
def execLinkFailHoldExpiry (p : Port) (s : State) : Res :=
  s.act fun c =>
    if c.lState p = 8 then
      if c.tdrBusy p then c.modDiag p fun x => { x with timerDue := true } else c.holdExit p
    else c
/-- BACKOFF_EXPIRY (R49, R162). -/
def execBackoffExpiry (p : Port) (s : State) : Res :=
  s.act fun c =>
    if c.lState p = 9 then
      if c.tdrBusy p then c.modDiag p fun x => { x with timerDue := true } else c.startExit p
    else c

/-- The port goes back from CAL to the state it left (R49). -/
def Chip.calReturn (c : Chip) (p : Port) : Chip :=
  let n := (c.port p).link.calReturn
  (c.put (lpB p) LINK_STAT_STATE n).setTx p (n == 3 || n == 4 || n == 5)
/-- CAL_STATE_TIMEOUT (R458): the calibration overran T_CAL. -/
def execCalStateTimeout (p : Port) (s : State) : Res :=
  s.act fun c => if c.lState p = 11 then (c.calAbort p.val).calReturn p else c

/-- CLAUSE98_PAGES_DETECTED (R49). -/
def execClause98PagesDetected (p : Port) (s : State) : Res :=
  s.act fun c =>
    if c.lState p = 1 then
      let c := c.put (lpB p) PMA_STAT_SIGNAL_DET 1
      match c.get (lpB p) LINK_CTL_MODE_SEL with
      | 0 => c.toLink p 3
      | 5 => c
      | _ => c.toTrain p
    else c

/-- The best standard mode that both advertisements hold, 0 for none (R47). -/
def bestMode (a b : Nat) : Nat :=
  if a.testBit 3 && b.testBit 3 then 4 else if a.testBit 2 && b.testBit 2 then 3
  else if a.testBit 1 && b.testBit 1 then 2 else if a.testBit 0 && b.testBit 0 then 1 else 0

/-- AN_COMPLETE (R47, R48, R182, R538): Clause 98 ends with the partner's advertisement `ability`, its role resolution
`master` and whether it found a configuration fault; R48 settles two MASTER ends that know each other over Pip. -/
def execAnComplete (p : Port) (ability : BitVec 14) (master msFault : Bool) (s : State) : Res :=
  s.act fun c =>
    let b := lpB p
    if c.lState p = 3 then
      let own := (c.port p).link.appliedAdv
      let both := own.testBit 13 && c.on b AN_LP_PARTNER_CARESTYR && (match (c.port p).pip.peerCap with | some x => x.adv.testBit 13 | none => false)
      let master := if both then decide (c.peerId p < c.ident p) else master
      let m := bestMode own ability.toNat
      let c := (c.put b AN_LP_ABILITY ability.toNat).put b AN_LP_VALID 1
      if msFault && !both then (((c.put b AN_STAT_MS_FAULT 1).evt b LINK_EVT_MS_FAULT)).linkFail p 0 none
      else if m = 0 then (c.put b AN_STAT_AN_DONE 1).linkFail p 0 none
      else
        let c := c.resolve p m 1 master
        let c := c.modLink p fun x => { x with eee := own.testBit (7 + m) && ability.toNat.testBit (7 + m) }
        c.toLink p 4
    else c

/-- PCS_LINK_OK (R49, R57): training has produced the values `l` of group, index and value. -/
def execPcsLinkOk (p : Port) (l : List (Nat × Nat × Int)) (s : State) : Res :=
  s.act fun c =>
    if c.lState p = 4 ∨ c.lState p = 5 then (c.tapsFrom p l).toLink p 7 else c

/-- TRAIN_FAIL (R49, R538). -/
def execTrainFail (p : Port) (s : State) : Res := s.act fun c => if c.lState p = 4 then c.linkFail p 0 none else c

/-- LINK_UP_STABLE (R52). -/
def execLinkUpStable (p : Port) (s : State) : Res :=
  s.act fun c => if c.linkUp p then c.put (lpB p) LINK_STAT_ATTEMPTS 0 else c

/-- PCS_LINK_STATUS_FAIL (R68). -/
def execPcsLinkStatusFail (p : Port) (s : State) : Res := s.act fun c => if c.lState p = 7 then c.linkFail p 1 none else c

/-- SIGNAL_DETECT_LOSS (R68, R69). -/
def execSignalDetectLoss (p : Port) (s : State) : Res :=
  s.act fun c =>
    if c.lState p = 7 ∧ c.on (lpB p) PCS_STAT_RX_LPI = false then (c.put (lpB p) PMA_STAT_SIGNAL_DET 0).linkFail p 2 none else c

/-- The reference SNR of a standard mode, 0.1 dB (R68). -/
def snrRef (m : Nat) : Int := if m = 4 then 159 else 154

/-- LM_WINDOW_END (R68, R69, R71): `snr` is the window's SNR in 0.1 dB; `corr` and `unc` count its codewords. -/
def execLmWindowEnd (p : Port) (snr : BitVec 10) (corr unc : Nat) (s : State) : Res :=
  s.act fun c =>
    let b := lpB p
    if c.lState p = 7 then
      let c := (c.bumpLp p 11 corr).bumpLp p 12 unc
      if c.on b PCS_STAT_RX_LPI then c.modLink p fun x => { x with snrBad := 0, uncBad := 0 }
      else
        let m : Int := (snr.toNat : Int) - snrRef (c.modeOf p)
        let c := (c.put b DSP_SNR_SNR snr.toNat).putS b LM_STAT_SNR_MARGIN m
        let c := c.modLink p fun x => { x with
          snrBad := if m < c.getS b LM_CTL_SNR_MIN then x.snrBad + 1 else 0
          uncBad := if c.get b LM_UNC_UNC_MAX < unc then x.uncBad + 1 else 0 }
        let w := c.get b LM_CTL_WIN
        if w ≤ (c.port p).link.snrBad ∧ (c.port p).link.snrBad ≠ 0 then c.linkFail p 3 none
        else if w ≤ (c.port p).link.uncBad ∧ (c.port p).link.uncBad ≠ 0 then c.linkFail p 4 none
        else c
    else c

/-- A PFC frame from the partner (R76, R77): classes named with RX_EN = 1 pause or go on. -/
def Chip.pfcRx (c : Chip) (p : Port) (f : Bytes) : Chip :=
  let b := lpB p
  let named := beAt f 16 2 % 256 &&& c.get b PFC_CTL_RX_EN
  if named = 0 then c.bumpLp p 9 1
  else
    let c := c.bumpLp p 8 1
    c.each (List.range 8) fun c k =>
      if named.testBit k then
        let t := beAt f (18 + 2 * k) 2
        (c.putBit b PFC_STAT_RX_PAUSED k (t != 0)).modLink p fun x => { x with pauseQuanta := x.pauseQuanta.set k t }
      else c

/-- PFC_FRAME_RX (R76): the frame's bytes from its destination address. -/
def execPfcFrameRx (p : Port) (f : Bytes) (s : State) : Res := s.act fun c => if c.linkFlows p then c.pfcRx p f else c
/-- PAUSE_FRAME_RX (R77). -/
def execPauseFrameRx (p : Port) (s : State) : Res := s.act fun c => if c.linkFlows p then c.bumpLp p 10 1 else c
/-- PFC_PAUSE_EXPIRY (R76, 07_host_lanes_and_retimer.md R238): the pause time of class k has run out on the pair, or toward the
host on Hn. -/
def execPfcPauseExpiry (p : Port) (k : Cls) (host : Bool) (s : State) : Res :=
  s.act fun c =>
    if host then
      c.modLane (Fin.ofNat 16 p.val) fun x => { x with paused := x.paused &&& (0xFF - 2 ^ k.val), pauseQuanta := x.pauseQuanta.set k.val 0 }
    else (c.putBit (lpB p) PFC_STAT_RX_PAUSED k.val false).modLink p fun x => { x with pauseQuanta := x.pauseQuanta.set k.val 0 }
/-- PFC_REFRESH_TIMER (R72, R73, R238): PERIOD has passed while class k is held toward the pair, or toward the host. -/
def execPfcRefreshTimer (p : Port) (k : Cls) (host : Bool) (s : State) : Res :=
  s.act fun c =>
    let b := c.pfcFrame p (2 ^ k.val) (2 ^ k.val)
    if c.bit (lpB p) PFC_CTL_TX_EN k.val = false then c
    else if host then
      if c.quire.queues[qOf 1 p k].held ∧ c.pairedPort p then c.modLane (Fin.ofNat 16 p.val) fun l => { l with ctlq := pfcQueued b l.ctlq } else c
    else if c.bit (lpB p) PFC_STAT_TX_HOLD k.val ∧ c.linkUp p then c.modLink p fun l => { l with ctlq := pfcQueued b l.ctlq }
    else c

end Sys2Proof.Machine
end

