-- ==== Sys2Proof/Machine/Pip.lean ====
section
/-! DEFINITION. The meanings of the Pip channel's events and requests (04_pip_channel.md R129 to R159). A received frame
comes as its rate (0 P1, 1 P4, 2 P16), its LQ, its SEQ where one matters, and its body from payload byte 2. -/

namespace Sys2Proof.Machine

/-- The agreed path is taken: OCTAVO with what the OFFER fixes, or FAST_TRAIN (R49, R93, R149). -/
def Chip.takePath (c : Chip) (p : Port) (o : Bytes) (master : Bool) : Chip :=
  let b := lpB p
  let mode := beAt o 0 1
  let flags := beAt o 1 1
  let c := c.resolve p mode 2 master
  if mode = 5 then
    let c := c.modOct p fun x => { k2 := x.k2, omcSeq := x.omcSeq, master := master, part := flags.testBit 2, fast := flags.testBit 0,
                                   k2Load := flags.testBit 1, grade := beAt o 2 1, txRate := beAt o 3 1, rxRate := beAt o 4 1,
                                   target := beAt o 5 1, min := min (beAt o 6 1) (beAt o 5 1) }
    (c.putB b OCT_STAT_FAST (flags.testBit 0)).toLink p 6
  else c.toLink p 5

/-- The link-up exchange goes on once both CAPs are known and this port's is acknowledged (R148): the MASTER sends OFFER, or
both ends go on without agreement (log entry 33). -/
def Chip.pipNegotiate (c : Chip) (p : Port) : Chip :=
  let x := (c.port p).pip
  match x.peerCap with
  | none => c
  | some peer =>
    if c.lState p = 2 ∧ x.capAcked ∧ x.offer = [] then
      let o := c.offerBody p peer
      let quiet := x.waiting.all fun m => !m.answer
      if c.capMaster p peer then
        if o ≠ [] then (c.pipPost p 3 o).modPip p fun y => { y with offer := o }
        else if quiet then c.noAgreement p
        else c
      else if c.capsOct p peer = false ∧ c.capsFast p peer (c.snapFor p peer.ident) = false ∧ quiet then c.noAgreement p
      else c
    else c

/-- HELLO_RX (R146). -/
def execHelloRx (p : Port) (rate : Fin 3) (lq : Byte) (body : Bytes) (s : State) : Res :=
  s.act fun c =>
    if c.pipHears p then
      let c := (c.pipGood p 1 rate.val lq.toNat).peerSeen p (beAt body 0 8)
      if c.lState p = 1 ∧ beAt body 0 1 = 0xCA then
        (c.toLink p 2).modPip p fun x => { x with
          waiting := x.waiting.map fun m => if m.typ = 2 then { m with answer := true, rate := rate.val } else m }
      else c
    else c

/-- CAP_RX (R146, R147). -/
def execCapRx (p : Port) (rate : Fin 3) (lq seq : Byte) (body : Bytes) (s : State) : Res :=
  s.act fun c =>
    c.pipOnce p 2 seq.toNat rate.val lq.toNat fun c =>
      let b := lpB p
      let ident := beAt body 0 8
      let adv := beAt body 8 2 % 2 ^ 14
      let c := (c.peerSeen p ident).pipAck p 2 seq.toNat rate.val 0
      if (c.lState p = 1 ∨ c.lState p = 2) ∧ beAt body 0 1 = 0xCA then
        let c := c.modPip p fun x => { x with
          peerCap := some { ident := ident, adv := adv, fast := (beAt body 10 1).testBit 0, k2 := (beAt body 10 1).testBit 1,
                            snapMode := beAt body 10 1 / 16, acceptPart := (beAt body 11 1).testBit 0 } }
        let c := (c.put b AN_LP_ABILITY adv).put b AN_LP_VALID 1
        let c := if c.lState p = 1 then c.toLink p 2 else c
        c.pipNegotiate p
      else c

/-- OFFER_RX (R149). DESIGN CHOICE (log entry 132): an OFFER outside PIP_CAP, to the MASTER, or before any CAP of the partner is
refused; the rule speaks of the SLAVE in the exchange only. -/
def execOfferRx (p : Port) (rate : Fin 3) (lq seq : Byte) (body : Bytes) (s : State) : Res :=
  s.act fun c =>
    c.pipOnce p 3 seq.toNat rate.val lq.toNat fun c =>
      match (c.port p).pip.peerCap with
      | some x =>
        if c.lState p = 2 ∧ c.capMaster p x = false then
          let ok := c.offerOk p x body
          (c.pipAck p 3 seq.toNat rate.val (if ok then 0 else 1)).modPip p fun y => { y with offer := body }
        else c.pipAck p 3 seq.toNat rate.val 1
      | none => c.pipAck p 3 seq.toNat rate.val 1

/-- A pause notice has come to nothing (R119, R155): after three the calibration is refused. -/
def Chip.pauseDropped (c : Chip) (p : Port) : Chip :=
  let c := (c.pipDrop p fun m => m.typ == 7).modOct p fun o => { o with pause := none, cancels := o.cancels + 1 }
  if 3 ≤ (c.port p).oct.cancels then (c.modOct p fun o => { o with cancels := 0 }).calEnd p.val 3 else c

/-- PIP_ACK_RX (R139, R144, R148, R149, R155, R158): `turn` is the time from the end of the frame it answers to its own
start, in 2^-16 ns, from which the coarse round trip of PIP_CAP comes (R172). -/
def execPipAckRx (p : Port) (rate : Fin 3) (lq : Byte) (body : Bytes) (turn : Nat) (s : State) : Res :=
  s.act fun c =>
    if c.pipHears p then
      let c := c.pipGood p 4 rate.val lq.toNat
      let typ := beAt body 0 1
      let aseq := beAt body 1 1
      let res := beAt body 2 1
      match (c.port p).pip.outstanding.find? fun o => o.msg.typ == typ && o.msg.seq == some aseq with
      | none => c
      | some o =>
        let c := c.pipDrop p fun m => m == o.msg || (m.typ == typ && m.seq == some aseq)
        let c := if c.lState p = 2 then c.modDiag p fun x => { x with coarse := some (turn - 8000 * 65536) } else c
        match typ with
        | 2 => (c.modPip p fun x => { x with capAcked := true }).pipNegotiate p
        | 3 =>
          if c.lState p = 2 then
            if res = 0 then c.takePath p (c.port p).pip.offer true else c.noAgreement p
          else c
        | 7 =>
          if res = 0 then c.modOct p fun x => { x with pause := x.pause.map fun y => { y with acked := true } }
          else if ((c.port p).oct.pause.map (·.own)).getD false then c.pauseDropped p else c
        | 9 => c.modPip p fun x => { x with rpt := be 1 4 ++ be 1 res }
        | _ => c
    else c

/-- BEACON_RX (R157, R217): `frac` is the stamp instant after the last tick. -/
def execBeaconRx (p : Port) (rate : Fin 3) (lq : Byte) (body : Bytes) (frac : Nat) (s : State) : Res :=
  s.act fun c =>
    if c.pipHears p then
      let c := c.pipGood p 8 rate.val lq.toNat
      let d := if c.get (lpB p) DLY_STAT_USED = 0 then (c.port p).diag.lastRx else c.wide (lpB p + DLY_RX_RX.off) 2
      let t : Int := (c.now : Int) + frac - c.latPip 0 - d
      c.beaconOffset p (t - ((beAt body 0 6 * 1000000000 + beAt body 6 4) * 65536 : Nat))
    else c

/-- The highest die temperature in 0.5 °C steps (R158). -/
def Chip.topTemp (c : Chip) : Int :=
  (List.range 7).foldl (fun m k => max m (c.getS (SNS + k + 1) SNS_TEMP_TEMP / 4)) (c.getS SNS SNS_TEMP_TEMP / 4)

/-- DIAG_REQ_RX (R158); code 0x00 is answered as not supported (log entry 39). -/
def execDiagReqRx (p : Port) (rate : Fin 3) (lq seq : Byte) (body : Bytes) (s : State) : Res :=
  s.act fun c =>
    c.pipOnce p 9 seq.toNat rate.val lq.toNat fun c =>
      let b := lpB p
      let code := beAt body 0 1
      let rpt := fun (c : Chip) (d : Bytes) => c.pipAnswer p 9 seq.toNat rate.val 10 (be 1 code ++ be 1 seq.toNat ++ d)
      if code = 1 then rpt c (be 2 (unsigned 16 c.topTemp))
      else if code = 2 then
        rpt c (be 1 (c.get b LINK_STAT_FAIL_CAUSE) ++ be 1 (c.get b LINK_STAT_ATTEMPTS) ++ be 1 (c.get b OCT_STAT_DOWN_CAUSE))
      else if code < 0x80 then c.pipAck p 9 seq.toNat rate.val 2
      else if c.on b PIP_DIAG_RX_FULL then c.pipAck p 9 seq.toNat rate.val 1
      else
        let d := body.drop 1
        let c := ((c.put b PIP_DIAG_RX_CODE code).put b PIP_DIAG_RX_LEN d.length).put b PIP_DIAG_RX_FULL 1
        let c := (c.evt b PIP_EVT_DIAG_RX).modPip p fun x => { x with diagRx := (d ++ List.replicate 64 0).take 64 }
        rpt c []

/-- DIAG_RPT_RX (R144, R158). -/
def execDiagRptRx (p : Port) (rate : Fin 3) (lq : Byte) (body : Bytes) (s : State) : Res :=
  s.act fun c =>
    if c.pipHears p then
      let c := c.pipGood p 10 rate.val lq.toNat
      if (c.port p).pip.outstanding.any fun o => o.msg.typ == 9 && o.msg.seq == some (beAt body 1 1) then
        let c := c.pipDrop p fun m => m.typ == 9 && m.seq == some (beAt body 1 1)
        (c.evt (lpB p) PIP_EVT_DIAG_RPT).modPip p fun x => { x with rpt := be 1 10 ++ body.take 1 ++ body.drop 2 }
      else c
    else c

/-- PIP_BAD_FRAME_RX (R131): discarded and counted; a frame whose CRC checks still replaces what tells of the last good frame
(R134; log entry 133). -/
def execPipBadFrameRx (p : Port) (x : PipBad) (s : State) : Res :=
  s.act fun c =>
    let b := lpB p
    if c.pipHears p then
      let c := ((c.bumpLp p (if x = .crc then 21 else 22) 1).put b PIP_STAT_RX_BUSY 0).modPip p fun x => { x with gain := 0 }
      match x with
      | .typ typ rate lq => ((c.put b PIP_STAT_LAST_RATE rate.val).put b PIP_RX_LQ_LQ lq.toNat).put b PIP_RX_LQ_TYPE typ.toNat
      | _ => c
    else c

/-- PIP_CAPTURE (R135, R136): inside a frame a preamble arrives whose amplitude is `diff` 0.5 dB steps above the frame's. -/
def execPipCapture (p : Port) (diff : Int) (s : State) : Res :=
  s.act fun c =>
    let b := lpB p
    if c.pipHears p then
      let c := c.put b PIP_STAT_RX_BUSY 1
      let m := c.get b PIP_RX_CTL_CAPTURE_DB
      if m ≠ 0 ∧ (m : Int) ≤ diff then
        ((c.bumpLp p 23 1).evt b PIP_EVT_CAPTURE).modPip p fun x => { x with gain := x.gain - diff }
      else c
    else c

/-- PIP_BACKOFF_END (R137, R140): the next message that answers nothing goes out; `frac` is the instant at which its start
delimiter ends, after the last tick. -/
def execPipBackoffEnd (p : Port) (frac : Nat) (s : State) : Res :=
  s.act fun c =>
    let x := (c.port p).pip
    if c.pipHears p ∧ c.on (lpB p) PIP_STAT_RX_BUSY = false then
      match firstWaiting x.waiting with
      | some m =>
        if m.answer then c
        else ((c.rollDie p).modPip p fun y => { y with waiting := dropMsg m y.waiting }).pipSend p m (c.now + frac)
      | none => c
    else c

/-- PIP_ANSWER_TX (R139): the answer goes out; with the ACK of an OFFER the SLAVE takes the path it accepted (R149). -/
def execPipAnswerTx (p : Port) (frac : Nat) (s : State) : Res :=
  s.act fun c =>
    if c.pipHears p then
      match (c.port p).pip.waiting.find? (·.answer) with
      | some m =>
        let c := (c.modPip p fun y => { y with waiting := dropMsg m y.waiting }).pipSend p m (c.now + frac)
        if m.typ = 4 ∧ beAt m.body 0 1 = 3 ∧ c.lState p = 2 then
          if beAt m.body 2 1 = 0 then c.takePath p (c.port p).pip.offer false else c.noAgreement p
        else c.pipNegotiate p
      | none => c
    else c

/-- HELLO_DUE (R146). -/
def execHelloDue (p : Port) (s : State) : Res :=
  s.act fun c =>
    let b := lpB p
    if c.lState p = 1 ∧ ((c.port p).pip.waiting.all fun m => m.typ != 1) then
      c.pipPost p 1 (c.identBytes p ++ be 1 ((c.port p).link.appliedAdv / 16 % 2 + 2 * c.get b LINK_CTL_FAST_RELINK_EN))
    else c

/-- PIP_ANSWER_TIMEOUT (R143): T_ANS has passed since the last send of the message of this TYPE and SEQ. -/
def execPipAnswerTimeout (p : Port) (typ seq : Byte) (s : State) : Res :=
  s.act fun c =>
    match (c.port p).pip.outstanding.find? fun o => o.msg.typ == typ.toNat && o.msg.seq == some seq.toNat with
    | some o =>
      if (c.port p).pip.waiting.any fun m => m.typ == typ.toNat && m.seq == some seq.toNat then c else c.pipRetry p o
    | none => c

/-- A request bit of LPn_PIP_CTL has been written 1 (R145, R151): none in DISABLED or with EN 0, else it is sent or waits. -/
def Chip.pipRequest (c : Chip) (p : Port) (typ : Nat) (f : Fld) (body : Bytes) : Chip :=
  let b := lpB p
  if c.lState p = 0 ∨ c.on b PIP_CTL_EN = false then c.put b f 0
  else ((c.pipDrop p fun m => m.typ == typ).put b f 1).pipPost p typ body

/-- A write of 1 to WAKE_REQ (R140, R145, R150, R151): a running burst restarts; else the WAKE takes its place among what waits. -/
def Chip.wakeReqWritten (c : Chip) (p : Port) : Chip :=
  if (c.port p).pip.burst then c.startBurst p else (c.pipRequest p 5 PIP_CTL_WAKE_REQ []).wakeNow p
/-- A write of 1 to SLEEP_REQ (R154). -/
def Chip.sleepReqWritten (c : Chip) (p : Port) : Chip :=
  c.pipRequest p 6 PIP_CTL_SLEEP_REQ (be 1 (c.get (lpB p) PIP_SLEEP_STATE) ++ be 2 (c.get (lpB p) PIP_SLEEP_DELAY))
/-- A write of 1 to DIAG_REQ (R158). -/
def Chip.diagReqWritten (c : Chip) (p : Port) : Chip :=
  (c.modPip p fun x => { x with rpt := [] }).pipRequest p 9 PIP_CTL_DIAG_REQ
    (be 1 (c.get (lpB p) PIP_DIAG_CTL_CODE) ++ (c.port p).pip.diagTx.take (c.get (lpB p) PIP_DIAG_CTL_LEN))

/-- WAKE_BURST_END (R150). -/
def execWakeBurstEnd (p : Port) (s : State) : Res :=
  s.act fun c =>
    let b := lpB p
    let x := (c.port p).pip
    if x.burst then
      let all := (x.burstLen * 1000 + 198) / 199
      let c := c.countBurst p (burstSent x.burstLen (c.tpll - x.burstAt)) all
      let c := c.modPip p fun y => { y with burst := false, deafTo := c.tpll + 2500 }
      (c.showPipTx p).evt b PIP_EVT_WAKE_DONE
    else c

/-- BEACON_PERIOD_TIMER (R156). -/
def execBeaconPeriodTimer (p : Port) (s : State) : Res :=
  s.act fun c =>
    if (c.lState p = 9 ∨ c.lState p = 10) ∧ c.get (lpB p) PIP_CTL_BEACON_PER ≠ 0 ∧ c.on (lpB p) PIP_CTL_EN then c.pipPost p 8 [] else c

/-- A write to LPn_PIP_DIAG_CTL resets the buffer pointer (R159). -/
def Chip.pipDiagCtlWritten (c : Chip) (p : Port) : Chip := c.modPip p fun x => { x with diagPtr := 0 }
/-- The buffer that LPn_PIP_DIAG_DATA reaches (R159). -/
def Chip.pipDiagBuf (c : Chip) (p : Port) : Bytes :=
  if c.on (lpB p) PIP_DIAG_CTL_BUF then (c.port p).pip.diagRx else (c.port p).pip.diagTx
/-- What LPn_PIP_DIAG_DATA reads: byte p and byte p + 1 (R159). -/
def Chip.pipDiagData (c : Chip) (p : Port) : Nat := beAt ((c.pipDiagBuf p).drop (c.port p).pip.diagPtr ++ [0, 0]) 0 2
/-- Each access adds 2 to the pointer, past the buffer's 64 bytes back to byte 0 (log entry 44). -/
def Chip.pipDiagNext (c : Chip) (p : Port) : Chip := c.modPip p fun x => { x with diagPtr := (x.diagPtr + 2) % 64 }
/-- A write to LPn_PIP_DIAG_DATA; to the receive buffer it has no effect (R159). -/
def Chip.pipDiagWrite (c : Chip) (p : Port) (v : Nat) : Chip :=
  let c :=
    if c.on (lpB p) PIP_DIAG_CTL_BUF then c
    else c.modPip p fun x => { x with diagTx := (x.diagTx.set x.diagPtr (BitVec.ofNat 8 (v / 256))).set (x.diagPtr + 1) (BitVec.ofNat 8 v) }
  c.pipDiagNext p

end Sys2Proof.Machine
end

