-- ==== Sys2Proof/Machine/Diag.lean ====
section
/-! DEFINITION. The meanings of reflectometry, cable delay and low-power idle (05_cable_and_idle.md). -/

namespace Sys2Proof.Machine

/-- A write of 1 to TDR_START (R160, R161, R163); a burst that runs waits and is sent whole after the run (log entry 40). -/
def Chip.tdrStartWritten (c : Chip) (p : Port) : Chip :=
  let b := lpB p
  let n := c.lState p
  if n = 8 ∨ n = 9 ∨ n = 10 then
    let c := ((c.put b DIAG_CTL_TDR_START 1).put b DIAG_STAT_BUSY 1).modDiag p fun x => { x with tries := 0, shooting := false }
    if (c.port p).pip.burst then
      ((c.modPip p fun x => { x with burst := false, deafTo := c.tpll + 2500 }).showPipTx p).pipRequest p 5 PIP_CTL_WAKE_REQ []
    else c
  else (c.put b DIAG_CTL_TDR_START 0).put b DIAG_STAT_RESULT 4

/-- A run ends without a far end: nothing is reported and Method E is no longer valid (R179). -/
def Chip.tdrNothing (c : Chip) (p : Port) : Chip :=
  let b := lpB p
  let c := ((c.put b DIAG_STAT_COUNT 0).put b DIAG_STAT_FAR_END 0).putWide (b + DIAG_TIME_TIME.off) 2 0
  (c.modDiag p fun x => { x with refls := [] }).loseE p
/-- A try fails; the third failure ends the run PARTNER_ACTIVE (R164). -/
def Chip.tdrTryFailed (c : Chip) (p : Port) : Chip :=
  let c := c.modDiag p fun x => { x with tries := x.tries + 1, shooting := false }
  if 3 ≤ (c.port p).diag.tries then (c.tdrNothing p).tdrOver p 2 else c

/-- TDR_TRY_START (R164): the pair has been idle for 100 µs. -/
def execTdrTryStart (p : Port) (s : State) : Res :=
  s.act fun c => if c.tdrBusy p then c.modDiag p fun x => { x with shooting := true } else c
/-- TDR_IDLE_TIMEOUT (R164). -/
def execTdrIdleTimeout (p : Port) (s : State) : Res :=
  s.act fun c => if c.tdrBusy p && !(c.port p).diag.shooting then c.tdrTryFailed p else c

/-- Distance in 10^-7 × 2^-27 cm of a round trip (R168). -/
def Chip.tdrFar (c : Chip) (p : Port) (t : Nat) : Nat := t * c.get (lpB p) DIAG_VP_VP * 299792458
/-- One centimetre in that unit. -/
abbrev tdrCm : Nat := 1024 * 2 * 65536 * 10000000
/-- Inserts a reflection by its round trip. -/
def reflInsert (x : Int × Nat) : List (Int × Nat) → List (Int × Nat)
  | [] => [x]
  | y :: t => if y.2 ≤ x.2 then y :: reflInsert x t else x :: y :: t
/-- The class of a reflection (R167). -/
def reflClass (g : Int) : Nat := if 90 ≤ g then 1 else if g ≤ -90 then 2 else if 0 < g then 3 else 4
/-- The reflections a complete run reports, nearest first (R167, R168). DESIGN CHOICE (log entry 136): a Γ of +1, 128 steps, shows as
the +127 that GAMMA can hold, and a distance above 4,095 cm as 4,095. -/
def Chip.tdrReport (c : Chip) (p : Port) (l : List (Int × Nat)) : List Refl :=
  let b := lpB p
  let l := l.filter fun x => decide (c.get b DIAG_THR_THR ≤ x.1.natAbs) && decide (5 * c.get b DIAG_THR_BLANK * tdrCm < c.tdrFar p x.2)
  ((l.foldr reflInsert []).take 4).map fun x =>
    { cls := reflClass x.1, gamma := max (-128) (min 127 x.1), dist := satU 12 (c.tdrFar p x.2 / tdrCm), time := x.2 }
/-- The far end among the reported reflections (R169). -/
def farEnd (l : List Refl) : Option Refl :=
  match (l.filter fun x => x.cls != 2).getLast? with
  | some f => if l.any fun x => x.cls == 2 && decide (x.time < f.time) then none else some f
  | none => none

/-- TDR_TRY_END (R164, R166 to R169, R179): `quiet` says that no energy of the partner appeared; `noise` is the averaged
record's noise floor in 2^-16 of full reflection; `l` lists what was found as Γ in 1/128 and round trip in 2^-16 ns. -/
def execTdrTryEnd (p : Port) (quiet : Bool) (noise : Nat) (l : List (Int × Nat)) (s : State) : Res :=
  s.act fun c =>
    let b := lpB p
    if c.tdrBusy p && (c.port p).diag.shooting then
      if quiet = false then c.tdrTryFailed p
      else if c.get b DIAG_THR_THR * 512 * 100000 ≤ noise * 199526 then (c.tdrNothing p).tdrOver p 3
      else
        let r := c.tdrReport p l
        let c := (c.put b DIAG_STAT_COUNT r.length).modDiag p fun x => { x with refls := r }
        match farEnd r with
        | some f =>
          let c := (c.put b DIAG_STAT_FAR_END 1).putWide (b + DIAG_TIME_TIME.off) 2 (satU 32 f.time)
          let c := c.modDiag p fun x => { x with eDelay := satU 32 f.time / 2, lastRx := satU 32 f.time / 2 }
          let c := if c.on b DLY_STAT_E_VALID then c else c.evt b DIAG_EVT_DLY_VALID
          ((c.put b DLY_STAT_E_VALID 1).useDelay p).tdrOver p 1
        | none =>
          let c := (c.put b DIAG_STAT_FAR_END 0).putWide (b + DIAG_TIME_TIME.off) 2 0
          (c.loseE p).tdrOver p 1
    else c

/-- A write of 1 to E_CLR (R179). -/
def Chip.eClrWritten (c : Chip) (p : Port) : Chip := (c.put (lpB p) DIAG_CTL_E_CLR 0).loseE p
/-- LPn_DIAG_CTL has been written: L_EN cleared ends Method L, and E_APPLY may change the delay in use (R176, R180). -/
def Chip.diagCtlWritten (c : Chip) (p : Port) : Chip := if c.on (lpB p) DIAG_CTL_L_EN then c.useDelay p else c.loseL p

/-- T_TURN of a mode, 2^-16 ns (R170). -/
def tTurn (m : Nat) : Nat :=
  match m with
  | 1 => 6400 * 65536
  | 2 => 4300 * 65536
  | 3 => 3400 * 65536
  | 4 => 2900 * 65536
  | _ => 5000 * 65536
/-- Markers cross the pair: the link is up with a Carestyr partner, outside LPI quiet of a standard mode and outside a
pause's first 54 superframes (R170, R177). -/
def Chip.markers (c : Chip) (p : Port) : Bool :=
  (c.linkFlows p || (c.lState p == 6 && c.get (lpB p) OCT_STAT_PHASE == 12 && ((c.port p).oct.pause.map (·.flags)).getD false)) && c.on (lpB p) AN_LP_PARTNER_CARESTYR && (c.modeOf p == 5 || !(c.on (lpB p) LPI_STAT_TX_QUIET || c.on (lpB p) LPI_STAT_RX_QUIET))

/-- MARKER_TURN (R170): at a SLAVE, the received marker crossed the balls `frac` after the last tick. -/
def execMarkerTurn (p : Port) (frac : Nat) (s : State) : Res :=
  s.act fun c =>
    if c.markers p ∧ c.on (lpB p) AN_STAT_MS_RESULT = false then
      c.modDiag p fun x => { x with markTx := some (c.now + frac + tTurn (c.modeOf p)) }
    else c

/-- The round trip of a measured M, T_TURN taken off, that lies closest to the coarse one: M is known up to whole RS-FEC frames
(R172; log entry 128). -/
def nearestRtt (mode : Nat) (r coarse : Int) : Int :=
  let t : Int := 6553600 + Config.fecPeriod mode
  r + t * ((2 * (coarse - r) + t) / (2 * t))
/-- METHOD_L_WINDOW_END (R171, R172, R176, R178): `m` is the window's mean of M in 2^-16 ns, in a standard mode up to whole RS-FEC
frames, which the coarse round trip of PIP_CAP resolves. -/
def execMethodLWindowEnd (p : Port) (m : Nat) (s : State) : Res :=
  s.act fun c =>
    let b := lpB p
    if c.markers p ∧ c.on b AN_STAT_MS_RESULT ∧ c.on b DIAG_CTL_L_EN ∧ (c.modeOf p = 5 ∨ (c.port p).diag.coarse.isSome) then
      let raw : Int := m - tTurn (c.modeOf p)
      let rtt := satU 32 (if c.modeOf p = 5 then raw else nearestRtt (c.modeOf p) raw ((c.port p).diag.coarse.getD 0)).toNat
      let c :=
        match (c.port p).diag.prevRtt with
        | some r => if 65536 < 10 * ((rtt : Int) - r).natAbs then c.evt b DIAG_EVT_DLY_JUMP else c
        | none => c
      (c.modDiag p fun x => { x with prevRtt := some rtt }).takeRtt p rtt
    else c

/-- RTT_SIGNALING_TX (R207, R211): the MASTER's RTT is due; the Signaling message waits for the next frame boundary. -/
def execRttSignalingTx (p : Port) (s : State) : Res :=
  s.act fun c =>
    let b := lpB p
    if c.folioOn ∧ c.on b AN_STAT_MS_RESULT ∧ c.on b DLY_STAT_L_VALID ∧ c.linkUp p then
      let i := ptpOf p
      let tlv := be 2 3 ++ be 2 0xC ++ be 3 0x4AC948 ++ be 3 1 ++ be 4 (c.wide (b + DLY_RTT_RTT.off) 2) ++ be 1 (c.get b DLY_STAT_L_MODE) ++ be 1 0
      let f := c.ptpFrame i 0xC 0 0 c.folio.ptp[i].seqSig 5 0x7F (List.replicate 10 0xFF ++ tlv)
      (c.queueCtl i { bytes := padded f }).modPtp i fun x => { x with seqSig := (x.seqSig + 1) % 2 ^ 16 }
    else c

/-- A Signaling message with the TLV of R207 has arrived (R175, R207, R209). -/
def Chip.rttRx (c : Chip) (p : Port) (f : Bytes) : Chip :=
  let b := lpB p
  let tlv := f.drop 58
  if c.folioOn ∧ c.ptpOwn f ∧ ptpType f = 0xC ∧ beAt tlv 0 2 = 3 ∧ beAt tlv 4 3 = 0x4AC948 ∧ beAt tlv 7 3 = 1 then
    let c := c.bumpLp p 29 1
    if c.linkFlows p ∧ c.on b AN_STAT_MS_RESULT = false ∧ c.on b DIAG_CTL_L_EN ∧ beAt tlv 14 1 = c.modeOf p then c.takeRtt p (beAt tlv 10 4)
    else c
  else c
/-- RTT_SIGNALING_RX (R175, R207, R209): the frame's bytes from its destination address. -/
def execRttSignalingRx (p : Port) (f : Bytes) (s : State) : Res := s.act fun c => c.rttRx p f

/-- Nothing waits toward the line of port p (R183). -/
def Chip.egressEmpty (c : Chip) (p : Port) : Bool :=
  (portQueues 1 p).all (fun q => c.quire.queues[q].frames.isEmpty) && (c.port p).link.ctlq.isEmpty

/-- LPI_ENTRY (R182, R183): the queues have been empty for IDLE µs. -/
def execLpiEntry (p : Port) (s : State) : Res :=
  s.act fun c =>
    let b := lpB p
    if c.lState p = 7 ∧ (c.port p).link.eee ∧ c.on b LPI_CTL_TX_EN ∧ c.egressEmpty p ∧ c.on b PCS_STAT_TX_LPI = false then
      ((c.setTxLpi p true).bumpLp p 27 1).modDiag p fun x => { x with lpiRefreshes := 0, prevRtt := none }
    else c
/-- LPI_EXIT (R183). -/
def execLpiExit (p : Port) (s : State) : Res :=
  s.act fun c =>
    if c.lState p = 7 ∧ c.on (lpB p) PCS_STAT_TX_LPI ∧ c.egressEmpty p = false then (c.setTxLpi p false).modDiag p fun x => { x with prevRtt := none } else c
/-- STD_LPI_REFRESH (R182): a refresh of the quiet transmitter, which ends within the step (log entry 42). -/
def execStdLpiRefresh (p : Port) (s : State) : Res :=
  s.act fun c =>
    if c.lState p = 7 ∧ c.on (lpB p) LPI_STAT_TX_QUIET then c.modDiag p fun x => { x with lpiRefreshes := x.lpiRefreshes + 1 } else c

/-- The port is in SHOWTIME. -/
def Chip.showtime (c : Chip) (p : Port) : Bool := c.lState p == 6 && c.get (lpB p) OCT_STAT_PHASE == 11

/-- OCT_LPI_ENTRY (R184): a superframe boundary at which the conditions of R183 have held for IDLE µs: TX_EN, empty queues, no PFC
frame due; and no OMC message waits or is in progress. -/
def execOctLpiEntry (p : Port) (s : State) : Res :=
  s.act fun c =>
    let b := lpB p
    let o := (c.port p).oct
    if c.showtime p ∧ c.on b LPI_CTL_TX_EN ∧ c.on b LPI_CTL_OCT_TX_EN ∧ c.egressEmpty p ∧ c.on b PCS_STAT_TX_LPI = false ∧ o.omcTx = [] ∧
        c.on b OCT_STAT_SWAP_PENDING = false ∧ c.on b OCT_STAT_RELOAD_PENDING = false ∧ o.pause = none then
      (((c.setTxLpi p true).bumpLp p 27 1).modDiag p fun x => { x with lpiSf := 0, lpiRefreshes := 0 }).modOct p fun x =>
        { x with flag := .conj, fill := false, omcNow := [] }
    else c
/-- OCT_LPI_REFRESH (R185): the (QUIET + 1)th superframe since entry or the last refresh carries a plain flag and idle fill. -/
def execOctLpiRefresh (p : Port) (s : State) : Res :=
  s.act fun c =>
    let b := lpB p
    if c.showtime p ∧ c.on b PCS_STAT_TX_LPI then
      ((c.put b LPI_STAT_TX_QUIET 0).modDiag p fun x => { x with lpiSf := x.lpiSf + c.get b LPI_OCT_QUIET + 1, lpiRefreshes := x.lpiRefreshes + 1 }).modOct p
        fun x => { x with flag := .plain, fill := true, omcNow := List.replicate (c.get b OCT_NCW_N_TX) idleSlice }
    else c
/-- OCT_LPI_RESUME (R186): the next superframe boundary after a frame became ready, with a plain flag and full loading. -/
def execOctLpiResume (p : Port) (s : State) : Res :=
  s.act fun c =>
    if c.showtime p ∧ c.on (lpB p) PCS_STAT_TX_LPI ∧ c.egressEmpty p = false then
      ((c.setTxLpi p false).modDiag p fun x => { x with lpiSf := 0 }).sfBegin p 1
    else c
/-- OCT_RX_QUIET_ENTRY (R122, R187, R189): a conjugated flag or an empty superframe (LPI and quiet), a superframe with data that is a
refresh (LPI, not quiet), or data again. -/
def execOctRxQuietEntry (p : Port) (lpi quiet : Bool) (s : State) : Res :=
  s.act fun c =>
    if c.showtime p then (c.setRxLpi p lpi quiet).modOct p fun o => { o with snrBad := 0, uncBad := 0 } else c

/-- Transmit quiet is counted in µs (R500). -/
def Chip.quietTick (n : Nat) (c : Chip) (p : Port) : Chip :=
  if c.on (lpB p) LPI_STAT_TX_QUIET then
    let t := (c.port p).diag.quietCyc + n
    (c.modDiag p fun x => { x with quietCyc := t % 1250 }).bumpLp p 28 (t / 1250)
  else c

end Sys2Proof.Machine
end

