-- ==== Sys2Proof/Machine/AgeOps.lean ====
section
/-! DEFINITION. The queue of MTP writes and the planner's proposals as the other chapters' steps meet them
(14_calibration_and_ageing.md R454, R468 to R471). -/

namespace Sys2Proof.Machine

/-- Queues an MTP write (R454). -/
def Chip.mtpAdd (c : Chip) (w : MtpWrite) : Chip := (c.modCal fun x => { x with mtpq := x.mtpq ++ [w] }).put CAL CAL_FG_STAT_SAVE_BUSY 1

/-- Powered hours (R465). -/
def Chip.hours (c : Chip) : Nat := c.wide (AGE + AGE_HOURS_HOURS.off) 2
/-- Hours at L2 (R465). -/
def Chip.hoursL2 (c : Chip) : Nat := c.wide (AGE + AGE_L2H_HOURS.off) 2

/-- The data words of the planner-state record (R451; their order is log entry 83). -/
def Chip.plannerWords (c : Chip) : List Nat :=
  let p := c.age.props.toList.flatMap fun x =>
    match x with
    | none => [0, 0, 0]
    | some a => [a.word, a.dueAt, a.approved.toNat + 2 * a.tries]
  [(c.reg (AGE + AGE_POLICY_VGUARD.off)).toNat, c.age.guard] ++ p ++ [c.age.seq, c.age.propSeq] ++ List.replicate 14 0
/-- The planner-state record is to be written (R454). -/
def Chip.plannerSave (c : Chip) : Chip := c.mtpAdd { record := 0x50, words := c.plannerWords }

/-- Fields of an action word (R468). -/
def AgeProp.kind (a : AgeProp) : Nat := a.word / 2 ^ 28
/-- Its target, numbered as in AGE_READ: 0 to 7 islands, 8 to 15 ports, 16 to 31 lanes. -/
def AgeProp.target (a : AgeProp) : Nat := a.word / 2 ^ 16 % 256
/-- Its new value. -/
def AgeProp.value (a : AgeProp) : Nat := a.word / 2 ^ 8 % 256

/-- Changes a proposal slot. -/
abbrev Chip.modProp (c : Chip) (i : Fin 4) (f : Option AgeProp → Option AgeProp) : Chip :=
  c.modAge fun x => { x with props := x.props.set i.val (f x.props[i]) }

/-- A proposal's action has been taken (R469). -/
def Chip.ageTaken (c : Chip) (i : Fin 4) (a : AgeProp) : Chip :=
  let h := c.hours
  let c := (c.modProp i fun _ => none).modAge fun x => { x with
    last := x.last.set a.target a.word, lastAt := x.lastAt.set a.target (h + 1), sinceSeq := x.sinceSeq.set a.target (x.total + 1), acted := true }
  (c.evt AGE AGE_EVT_TAKEN).plannerSave
/-- A proposal's action has been dropped after 24 tries (R471). -/
def Chip.ageFailed (c : Chip) (i : Fin 4) (a : AgeProp) : Chip :=
  let h := c.hours
  (((c.modProp i fun _ => none).modAge fun x => { x with lastAt := x.lastAt.set a.target (h + 1) }).evt AGE AGE_EVT_FAILED).plannerSave
/-- A reload of port p has changed over: the planner's action that asked for it is taken (R468). -/
def Chip.ageReloaded (c : Chip) (p : Port) : Chip :=
  c.each ([0, 1, 2, 3] : List (Fin 4)) fun c (i : Fin 4) =>
    match c.age.props[i] with
    | some a => if a.inReload ∧ a.target = 8 + p.val then c.ageTaken i a else c
    | none => c

end Sys2Proof.Machine
end

