-- ==== Sys2Proof/Machine/OctOps.lean ====
section
/-! DEFINITION. Octavo's computations (03_octavo.md R85, R93 to R96, R101 to R106, R111, R123): rates, bit loading, report,
decision, table, and the changes of loading. Margins and SNRs are in 0.1 dB; lists of tones begin at tone 8. -/

namespace Sys2Proof.Machine

/-- REQ[b] (R104). -/
def req (b : Nat) : Int := ([0, 50, 98, 135, 168, 199, 230, 260, 291, 321, 351, 381, 411] : List Int).getD b 0
/-- The MAC rate of a grade in 0.5 Gbit/s (R87). -/
def gradeRate (g : Nat) : Nat := if g = 0 then 0 else 50 + 10 * g
/-- N for a MAC rate in 0.5 Gbit/s (R85). -/
def cwCount (r : Nat) : Nat := (r * 500000000 * 1114112 + 405503999999999) / 405504000000000
/-- B for N (R85). -/
def symBits (n : Nat) : Nat := (19200 * n + 254) / 255

/-- The data tones (R80). -/
abbrev dataTones : List Nat := (List.range 2032).map (8 + ·)
/-- CAP of a tone at this port (R124). -/
def Chip.toneCap (c : Chip) (p : Port) (k : Nat) : Nat := c.get (bk k (lpB p)) OCT_TONE_BITS_CAP
/-- Per data tone, SNR and CAP, the CAP 0 outside the band. -/
def Chip.toneTable (c : Chip) (p : Port) (snr : List Nat) (band : Nat × Nat) : List (Nat × Nat) :=
  dataTones.map fun k => (snr.getD (k - 8) 0, if band.1 ≤ k ∧ k < band.2 then c.toneCap p k else 0)

/-- The largest b in 1 to CAP with REQ[b] + m at most the SNR, else 0 (R105). -/
def mostBits (snr cap m : Nat) : Nat :=
  (List.range (cap + 1)).foldl (fun a b => if b ≠ 0 ∧ req b + m ≤ snr then b else a) 0
/-- The margin of a tone carrying b bits. -/
def toneMargin (snr b : Nat) : Int := (snr : Int) - req b
/-- The bits of every tone at margin m, m falling from TARGET until they reach B or MIN is passed (R105). -/
def fillBits (l : List (Nat × Nat)) (need min : Nat) : Nat → Nat → Option (List Nat)
  | 0, _ => none
  | n + 1, m =>
    let b := l.map fun x => mostBits x.1 x.2 m
    if need ≤ b.sum then some b else if m ≤ min then none else fillBits l need min n (m - 1)
/-- The place of the loaded tone with the smallest margin, the lowest tone on a tie. -/
def weakest (mar : List (Int × Nat)) : Option (Nat × Int) :=
  (mar.zipIdx).foldl (fun a x =>
    if x.1.2 = 0 then a else match a with | none => some (x.2, x.1.1) | some y => if x.1.1 < y.2 then some (x.2, x.1.1) else a) none
/-- Takes n bits off, each from the loaded tone with the smallest margin (R105). -/
def trimBits (snr : List Nat) : Nat → List Nat → List Nat
  | 0, b => b
  | n + 1, b =>
    match weakest ((snr.zip b).map fun x => (toneMargin x.1 x.2, x.2)) with
    | some (i, _) => trimBits snr n (b.set i (b.getD i 0 - 1))
    | none => b
/-- The loading of a band (R105, R106). -/
def loadBits (l : List (Nat × Nat)) (need target min : Nat) : Option (List Nat) :=
  (fillBits l need (Nat.min min target) 256 target).map fun b => trimBits (l.map (·.1)) (b.sum - need) b
/-- The achieved margin of a loading: the lowest of any loaded tone. -/
def achieved (snr b : List Nat) : Nat :=
  match weakest ((snr.zip b).map fun x => (toneMargin x.1 x.2, x.2)) with
  | some (_, m) => m.toNat
  | none => 0

/-- This end's receive rate and transmit rate in 0.5 Gbit/s for a grade (R93, R94). -/
def OctSt.rate (o : OctSt) (grade : Nat) (tx : Bool) : Nat :=
  if o.part then (if tx == o.master then o.txRate else o.rxRate) else gradeRate grade

/-- This receiver's loading at a grade, with its band as S and duplex give it (R105). -/
def Chip.rxLoading (c : Chip) (p : Port) (o : OctSt) (grade : Nat) : Option (List Nat) :=
  loadBits (c.toneTable p o.snr (c.octBand p false)) (symBits (cwCount (o.rate grade false))) o.target o.min
/-- The margin this receiver achieves at a grade, 0 when it is not reached at MIN (R102). -/
def Chip.gradeMargin (c : Chip) (p : Port) (g : Nat) : Nat :=
  let o := (c.port p).oct
  match c.rxLoading p o g with
  | some b => min 255 (achieved o.snr b)
  | none => 0
/-- The mean SNR of a tone group, 0.1 dB, rounded down (log entry 45). -/
def OctSt.groupSnr (o : OctSt) (g : Nat) : Nat :=
  let l := (o.snr.drop (64 * g)).take 64
  if l = [] then 0 else l.sum / l.length

/-- The five grade margins of this receiver, all 0 in partitioned duplex (R102). -/
def Chip.gradeMargins (c : Chip) (p : Port) : List Nat :=
  if (c.port p).oct.part then [0, 0, 0, 0, 0] else [1, 2, 3, 4, 5].map (c.gradeMargin p)
/-- The SLAVE's report (R102). -/
def Chip.reportBytes (c : Chip) (p : Port) : Bytes :=
  let x := be 1 0xE2 ++ (c.gradeMargins p).flatMap (be 1) ++ (List.range 32).flatMap fun g => be 1 ((c.port p).oct.groupSnr g / 5)
  x ++ crcField x
/-- The MASTER's decision (R102). -/
def decisionBytes (grade s : Nat) : Bytes :=
  let x := be 1 0xE3 ++ be 1 grade ++ be 2 s
  x ++ crcField x

/-- The grade that the MASTER chooses from both ends' margins, 0 for none (R96). -/
def chooseGrade (forced target min : Nat) (a b : List Nat) : Nat :=
  let floor := Nat.min min target
  let reach := fun g m => decide (a.getD (g - 1) 0 ≠ 0 ∧ b.getD (g - 1) 0 ≠ 0 ∧ m ≤ a.getD (g - 1) 0 ∧ m ≤ b.getD (g - 1) 0)
  if forced ≠ 0 then (if reach forced floor then forced else 0)
  else match ([5, 4, 3, 2, 1] : List Nat).find? fun g => reach g target with
    | some g => g
    | none => if reach 1 floor then 1 else 0

/-- The smallest S whose narrow band reaches B, by running totals over the tones from 8; 0: none exists (R95). -/
def splitFrom (need : Nat) : List Nat → Nat → Nat → Nat
  | [], k, t => if need ≤ t ∧ k ≤ 2035 then k else 0
  | b :: l, k, t => if need ≤ t then k else if 2035 ≤ k then 0 else splitFrom need l (k + 1) (t + b)
/-- The split that the MASTER chooses (R95): the narrow direction's receiver measured the group SNRs. -/
def Chip.chooseSplit (c : Chip) (p : Port) (report : List Nat) : Nat :=
  let o := (c.port p).oct
  let grp := fun g => if o.narrowDown then 5 * report.getD (5 + g) 0 else o.groupSnr g
  let r := if o.narrowDown then o.txRate else o.rxRate
  splitFrom (symBits (cwCount r)) (dataTones.map fun k => mostBits (grp (toneGroup k)) (c.toneCap p k) o.target) 8 0

/-- The K2 table is used in this LOAD (R98). -/
def Chip.k2Used (c : Chip) (p : Port) : Bool := (c.port p).oct.k2Load && c.on (lpB p) OCT_CTL_K2_EN
/-- The table equals the attempt in what the OFFER fixes (R98). -/
def Chip.k2Match (c : Chip) (p : Port) (t : K2Table) : Bool :=
  let o := (c.port p).oct
  t.part == o.part && t.peer == c.peerId p && (!o.part || (t.txRate == o.txRate && t.rxRate == o.rxRate)) &&
    (o.part || o.grade == 0 || t.grade == o.grade)

/-- The MASTER's decision on the SLAVE's report (R95, R96, R98). -/
def Chip.octDecide (c : Chip) (p : Port) (report : List Nat) : Nat × Nat :=
  let o := (c.port p).oct
  match o.k2 with
  | some t =>
    if c.k2Used p && c.k2Match p t then (t.grade, t.split)
    else if o.part then (0, c.chooseSplit p report)
    else (chooseGrade o.grade o.target o.min (c.gradeMargins p) report, 0)
  | none =>
    if o.part then (0, c.chooseSplit p report)
    else (chooseGrade o.grade o.target o.min (c.gradeMargins p) report, 0)

/-- Octavo goes down with a cause (R121). -/
def Chip.octDown (c : Chip) (p : Port) (cause : Nat) : Chip := c.linkFail p 7 (some cause)

/-- Shows N, B, grade, duplex and S of the loading in use (R124). -/
def Chip.showRates (c : Chip) (p : Port) (grade : Nat) : Chip :=
  let b := lpB p
  let o := (c.port p).oct
  let ntx := cwCount (o.rate grade true)
  let nrx := cwCount (o.rate grade false)
  let c := ((c.put b OCT_NCW_N_TX ntx).put b OCT_NCW_N_RX nrx).put b OCT_BTX_B (symBits ntx)
  ((c.put b OCT_BRX_B (symBits nrx)).put b OCT_STAT_GRADE_ACT (if o.part then 0 else grade)).putB b OCT_STAT_DUPLEX_ACT o.part

/-- The loading bytes of a table: two tones a byte, tone 8 + 2i in the upper half (R103). -/
def loadingBytes : List Nat → Bytes
  | a :: b :: t => be 1 (16 * a + b) ++ loadingBytes t
  | [a] => be 1 (16 * a)
  | [] => []
/-- The bits per tone that loading bytes hold (R103). -/
def loadingOf (b : Bytes) : List Nat := b.flatMap fun x => [x.toNat / 16, x.toNat % 16]
/-- The table of this end's receive direction (R103). -/
def Chip.tableBytes (c : Chip) (p : Port) (grade : Nat) : Bytes :=
  let o := (c.port p).oct
  let n := cwCount (o.rate grade false)
  let x := be 1 0xE1 ++ be 1 (if o.part then 0 else grade) ++ be 2 (symBits n) ++ be 1 n ++ be 1 (min 255 o.margin) ++
    be 2 (c.get (lpB p) OCT_SPLIT_S) ++ loadingBytes o.rxBits
  x ++ crcField x

/-- The K2 table and the K1 snapshot are written (R123). -/
def Chip.writeK2 (c : Chip) (p : Port) : Chip :=
  let o := (c.port p).oct
  let b := lpB p
  (c.modOct p fun o' => { o' with k2 := some { peer := c.peerId p, part := o.part, grade := c.get b OCT_STAT_GRADE_ACT, txRate := o.txRate, rxRate := o.rxRate,
                                               split := c.get b OCT_SPLIT_S, txBits := o.txBits, rxBits := o.rxBits } }).writeSnap p

/-- The lowest margin of the loaded receive tones of a group, none when none is loaded (R124). -/
def OctSt.groupMargin (o : OctSt) (g : Nat) : Option Int :=
  (weakest ((((o.snr.zip o.rxBits).drop (64 * g)).take 64).map fun x => (toneMargin x.1 x.2, x.2))).map (·.2)
/-- The lowest group margin of the receive band (R108). -/
def OctSt.lowMargin (o : OctSt) : Int :=
  match weakest ((o.snr.zip o.rxBits).map fun x => (toneMargin x.1 x.2, x.2)) with
  | some (_, m) => m
  | none => 0x7FF
/-- The mean SNR of the loaded tones (R108). -/
def OctSt.meanSnr (o : OctSt) : Nat :=
  let l := ((o.snr.zip o.rxBits).filter fun x => x.2 != 0).map (·.1)
  if l = [] then 0 else l.sum / l.length
/-- LPn_LM_STAT and LPn_DSP_SNR as Octavo shows them (R108). -/
def Chip.showMargin (c : Chip) (p : Port) : Chip :=
  let o := (c.port p).oct
  (c.putS (lpB p) LM_STAT_SNR_MARGIN (max (-2048) (min 2047 o.lowMargin))).put (lpB p) DSP_SNR_SNR o.meanSnr

/-- Hands OMC messages to the management channel, which sends them one after the other (R109, R110). -/
def Chip.omcSend (c : Chip) (p : Port) (l : List Bytes) : Chip :=
  c.modOct p fun o => { o with omcOut := l, omcTx := o.omcTx ++ l.flatMap omcSlices }
/-- An OMC message of a TYPE and SEQ (R110). -/
def omcMsg (typ seq : Nat) (body : Bytes) : Bytes := be 1 typ ++ be 1 (3 + body.length) ++ be 1 seq ++ body
/-- SF_COUNT of the link (R82). -/
def Chip.sfCount (c : Chip) (p : Port) : Nat := c.get (lpB p) OCT_SF_TX_SF
/-- Takes the next OMC SEQ. -/
def Chip.omcNext (c : Chip) (p : Port) : Chip := c.modOct p fun o => { o with omcSeq := (o.omcSeq + 1) % 256 }
/-- Shows whether swaps and reloads are outstanding at this end. -/
def Chip.showPending (c : Chip) (p : Port) : Chip :=
  let o := (c.port p).oct
  (c.putB (lpB p) OCT_STAT_SWAP_PENDING (o.swap.isSome || o.swapTx.isSome)).putB (lpB p) OCT_STAT_RELOAD_PENDING o.reload.isSome
/-- Either direction is in LPI. -/
def Chip.inLpi (c : Chip) (p : Port) : Bool := c.on (lpB p) PCS_STAT_TX_LPI || c.on (lpB p) PCS_STAT_RX_LPI
/-- Superframe x lies at or after superframe y, in the half of the count that follows y. -/
def sfAtOrAfter (x y : Nat) : Bool := decide ((x + 256 - y) % 256 < 128)

/-- One evaluation's moves of bits between tones (R111): the list of tones moved, with the new bits; `mar` gives a tone's
margin. More than 24384 moves cannot help (log entry 47). -/
def swapMoves (tab : List (Nat × Nat)) (drift : List Nat) (trig target : Nat) : Nat → List Nat → List Nat → List Nat × List Nat
  | 0, b, l => (b, l)
  | n + 1, b, l =>
    let mar := ((tab.zip b).zipIdx).map fun x => (if drift.contains (x.2 + 8) then (-100 : Int) else toneMargin x.1.1.1 x.1.2, x.1.2)
    match weakest mar with
    | none => (b, l)
    | some (w, m) =>
      if (trig : Int) ≤ m ∨ 31 ≤ l.length then (b, l)
      else
        let best := (((tab.zip b).zipIdx).foldl (fun (a : Option (Nat × Int)) x =>
          if x.2 ≠ w ∧ x.1.2 < x.1.1.2 then
            let g := (x.1.1.1 : Int) - req (x.1.2 + 1)
            match a with | none => some (x.2, g) | some y => if y.2 < g then some (x.2, g) else a
          else a) none)
        match best with
        | none => (b, l)
        | some (t, g) =>
          if g < target then (b, l)
          else
            let b := (b.set w (b.getD w 0 - 1)).set t (b.getD t 0 + 1)
            let l := if l.contains w then l else l ++ [w]
            swapMoves tab drift trig target n b (if l.contains t then l else l ++ [t])

/-- Sets the bits of listed tones. -/
def setBits (b : List Nat) (l : List (Nat × Nat)) : List Nat := l.foldl (fun b x => b.set (x.1 - 8) x.2) b
/-- The entries of a SWAP_REQ: tone and new bits (R110). -/
def swapList (m : Bytes) : List (Nat × Nat) :=
  (List.range (beAt m 3 1)).map fun i => (beAt m (4 + 2 * i) 2 % 2048, beAt m (4 + 2 * i) 2 / 4096)

/-- The reason for which a SWAP_REQ is refused, 0 for none (R112); `t` is the target it would name. Of several cases the first of
BAD_SUM, BAD_TONE, BUSY, PAUSE, LPI counts (DESIGN CHOICE, log entry 130). -/
def Chip.swapRefusal (c : Chip) (p : Port) (l : List (Nat × Nat)) (t : Nat) : Nat :=
  let o := (c.port p).oct
  let band := c.octBand p true
  if (l.map (·.2)).sum ≠ (l.map fun x => if x.1 < 8 then 0 else o.txBits.getD (x.1 - 8) 0).sum then 2
  else if l.any (fun x => decide (x.1 < band.1 ∨ band.2 ≤ x.1) || decide (c.toneCap p x.1 < x.2)) || !(l.map (·.1)).Nodup then 3
  else if o.reload.isSome then 1
  else if (o.pause.map fun x => sfAtOrAfter t x.x).getD false then 4
  else if c.inLpi p then 5
  else 0

/-- A swap takes effect at this end (R113, R123, R500). -/
def Chip.swapTaken (c : Chip) (p : Port) : Chip :=
  let c := ((c.showPending p).evt (lpB p) OCT_EVT_SWAP_DONE).bumpLp p 16 1
  (c.showMargin p).writeK2 p

/-- The reload comes to nothing (R117). -/
def Chip.reloadFailed (c : Chip) (p : Port) : Chip :=
  ((c.modOct p fun o => { o with reload := none, reloadBad := true }).showPending p).evt (lpB p) OCT_EVT_RELOAD_FAIL

/-- The values that the MASTER sends for a reload: GRADE, TARGET, MIN, TX_RATE, RX_RATE (R116); of the "or 0" of R110 never 0, in
either duplex (DESIGN CHOICE, log entry 129). -/
def Chip.reloadVals (c : Chip) (p : Port) : List Nat :=
  let b := lpB p
  [c.get b OCT_CTL_GRADE, c.get b OCT_MARGIN_TARGET, c.get b OCT_MARGIN_MIN, c.get b OCT_PART_TX_RATE, c.get b OCT_PART_RX_RATE]
/-- Octavo with the values of a reload in force. -/
def OctSt.withVals (o : OctSt) (v : List Nat) : OctSt :=
  { o with grade := v.getD 0 0, target := v.getD 1 0, min := Nat.min (v.getD 2 0) (v.getD 1 0), txRate := v.getD 3 0, rxRate := v.getD 4 0 }
/-- The grade that a reload brings; GRADE = 0 keeps the present one (log entry 51). -/
def Chip.reloadGrade (c : Chip) (p : Port) (v : List Nat) : Nat := if v.getD 0 0 = 0 then c.get (lpB p) OCT_STAT_GRADE_ACT else v.getD 0 0
/-- This receiver's new loading under the values of a reload (R116). -/
def Chip.reloadRx (c : Chip) (p : Port) (v : List Nat) : Option (List Nat) := c.rxLoading p ((c.port p).oct.withVals v) (c.reloadGrade p v)
/-- The 16 TABLE fragments of a loading, each sent twice (R110, R116). -/
def tableMsgs (seq : Nat) (bits : List Nat) : List Bytes :=
  let l := loadingBytes bits
  let m := (List.range 16).map fun f => omcMsg 5 seq (be 1 f ++ (l.drop (64 * f)).take 64)
  m ++ m

/-- What keeps this end from a reload now, as the reason of a RELOAD_NAK, 0 for nothing (R115 to R117). -/
def Chip.reloadRefusal (c : Chip) (p : Port) : Nat :=
  let o := (c.port p).oct
  if o.swap.isSome || o.swapTx.isSome then 1 else if o.pause.isSome then 4 else if c.inLpi p then 5 else 0
/-- What keeps this end from sending a RELOAD_REQ now: a calibration that is pending too (14_calibration_and_ageing.md R462). -/
def Chip.reloadHeld (c : Chip) (p : Port) : Nat :=
  if c.reloadRefusal p = 0 ∧ c.calRuns p.val then 4 else c.reloadRefusal p

/-- A pause is announced: a notice over Pip that names X 16 superframes ahead (R118, R155; log entry 52). -/
def Chip.pauseAnnounce (c : Chip) (p : Port) : Chip :=
  let x := (c.sfCount p + 16) % 256
  (c.modOct p fun o => { o with pause := some { x := x, own := true } }).pipPost p 7 (be 1 x ++ be 1 64 ++ be 2 2971)

/-- SF_COUNT runs on with the time while superframes are sent (R80, R82). -/
def Chip.sfTick (n : Nat) (c : Chip) (p : Port) : Chip :=
  let b := lpB p
  if c.lState p = 6 ∧ (c.get b OCT_STAT_PHASE = 11 ∨ c.get b OCT_STAT_PHASE = 12) then
    let t := (c.port p).oct.sfAcc + 96 * n
    let k := t / 5570560
    let c := c.modOct p fun o => { o with sfAcc := t % 5570560 }
    ((c.put b OCT_SF_TX_SF (c.get b OCT_SF_TX_SF + k)).put b OCT_SF_RX_SF (c.get b OCT_SF_RX_SF + k)).sfBegin p k
  else c

end Sys2Proof.Machine
end

