-- ==== Sys2Proof/Machine/Octavo.lean ====
section
/-! DEFINITION. The meanings of Octavo's events (03_octavo.md): training, showtime, bit swap, reload, calibration pause and
link down. -/

namespace Sys2Proof.Machine

/-- The end of LOAD (R96 to R98, R105): the exchange must have brought the decision, K2 tables must match it, and this
receiver's loading must reach B; then EXCHANGE sends its table. -/
def Chip.loadEnd (c : Chip) (p : Port) : Chip :=
  let o := (c.port p).oct
  match o.decision with
  | none => c.octDown p 1
  | some (g, sp) =>
    let rx :=
      if c.k2Used p then
        match o.k2 with
        | some t =>
          let low := (o.snr.zip t.rxBits).any fun x => x.2 != 0 && decide (toneMargin x.1 x.2 < o.min)
          if c.k2Match p t && t.grade == g && t.split == sp && !low then some t.rxBits else none
        | none => none
      else none
    if c.k2Used p ∧ rx = none then (c.modOct p fun x => { x with k2 := none }).octDown p 1
    else if (if o.part then sp = 0 else g = 0) then c.octDown p 2
    else
      let c := c.put (lpB p) OCT_SPLIT_S sp
      match (match rx with | some r => some r | none => c.rxLoading p o g) with
      | none => c.octDown p 2
      | some r =>
        let c := c.modOct p fun x => { x with rxBits := r, margin := achieved o.snr r, tableTaken := false }
        let c := c.showRates p g
        let c := c.modOct p fun x => { x with block := c.tableBytes p g }
        c.setPhase p 10

/-- The end of CHANNEL with its result (R100; 05_cable_and_idle.md R173): the equalisers from what was received on each tone, and
the relative group delays. -/
def Chip.channelEnd (c : Chip) (p : Port) (rx : List (List Point)) (gd : List Int) : Chip :=
  let w := rx.zipIdx.map fun y => equaliser y.2 y.1
  let c := c.modOct p fun o => { o with weq := w, weq0 := w }
  let c := if gd = [] then c else c.modDiag p fun x => { x with gd := relativeGd gd }
  c.setPhase p 7

/-- OCTAVO_PHASE_END (R97): `ok` says whether the phase had its result; `snr` is the SNR per tone that a NOISE phase
measured here, `gd` the group delays and `rx` the values received per data tone in the symbols of CHANNEL. -/
def execOctavoPhaseEnd (p : Port) (ok : Bool) (snr : List Nat) (gd : List Int) (rx : List (List Point)) (s : State) : Res :=
  s.act fun c =>
    let n := c.get (lpB p) OCT_STAT_PHASE
    if c.lState p = 6 ∧ 1 ≤ n ∧ n ≤ 10 then
      let c := if snr = [] ∨ ¬(n = 7 ∨ n = 8) then c else c.modOct p fun o => { o with snr := snr.map (Nat.min 600) }
      match n with
      | 1 => c.setPhase p 2
      | 2 => if ok then c.setPhase p 3 else c.octDown p 1
      | 3 => if ok then c.setPhase p 4 else c.octDown p 1
      | 4 => if ok then c.setPhase p 5 else c.octDown p 1
      | 5 => if ok then c.setPhase p 6 else c.octDown p 1
      | 9 => c.loadEnd p
      | 10 => if (c.port p).oct.tableTaken then c.modOct p fun o => { o with showDue := true } else c.octDown p 1
      | _ =>
        if ok = false then c.octDown p 1
        else if n = 6 then c.channelEnd p rx gd
        else if n = 7 ∧ (c.port p).oct.part then c.setPhase p 8
        else
          let c := c.setPhase p 9
          if (c.port p).oct.master then c else c.modOct p fun o => { o with block := c.reportBytes p }
    else c

/-- A block of bytes closed by a good CRC-32 (R102, R103). -/
def blockOk (b : Bytes) (len head : Nat) : Bool :=
  b.length == len && beAt b 0 1 == head && b.drop (len - 4) == crcField (b.take (len - 4))

/-- LOAD_REPORT_RX (R102): a copy of the report reaches the MASTER, which decides on the first good one. -/
def execLoadReportRx (p : Port) (b : Bytes) (s : State) : Res :=
  s.act fun c =>
    let o := (c.port p).oct
    if c.lState p = 6 ∧ c.get (lpB p) OCT_STAT_PHASE = 9 ∧ o.master ∧ o.report = [] ∧ blockOk b 42 0xE2 then
      let r := ((b.drop 1).take 37).map (·.toNat)
      let d := c.octDecide p r
      c.modOct p fun x => { x with report := r, decision := some d, block := decisionBytes d.1 d.2 }
    else c

/-- LOAD_DECISION_RX (R102): a copy of the decision reaches the SLAVE. -/
def execLoadDecisionRx (p : Port) (b : Bytes) (s : State) : Res :=
  s.act fun c =>
    let o := (c.port p).oct
    if c.lState p = 6 ∧ c.get (lpB p) OCT_STAT_PHASE = 9 ∧ o.master = false ∧ o.decision = none ∧ blockOk b 8 0xE3 then
      c.modOct p fun x => { x with decision := some (beAt b 1 1, beAt b 2 2) }
    else c

/-- LOADING_TABLE_RX (R103): entries 13 to 15 fail the table. -/
def execLoadingTableRx (p : Port) (b : Bytes) (s : State) : Res :=
  s.act fun c =>
    let l := loadingOf ((b.drop 8).take 1016)
    if c.lState p = 6 ∧ c.get (lpB p) OCT_STAT_PHASE = 10 ∧ (c.port p).oct.tableTaken = false ∧ blockOk b 1028 0xE1 ∧ l.all (fun x => decide (x ≤ 12)) then
      c.modOct p fun x => { x with txBits := l, tableTaken := true }
    else c

/-- SHOWTIME_START (R103, R123). -/
def execShowtimeStart (p : Port) (s : State) : Res :=
  s.act fun c =>
    let b := lpB p
    if c.lState p = 6 ∧ c.get b OCT_STAT_PHASE = 10 ∧ (c.port p).oct.showDue then
      let c := ((c.setPhase p 11).put b OCT_SF_TX_SF 0).put b OCT_SF_RX_SF 0
      let c := c.modOct p fun o => { o with showDue := false, sfAcc := 0, uncBad := 0, snrBad := 0, block := [], omcTx := [], cwBad := [] }
      let c := c.sfBegin p 1
      (((c.evt b OCT_EVT_SHOWTIME).showMargin p).linkGained p).writeK2 p
    else c

/-- A decoded codeword (R84, R90, R91, R109): `ok` says that its parity checks hold, `corr` that the decoder changed a bit, `bits`
are the codeword's. An uncorrectable one is counted and spoils the frames that touch it. -/
def Chip.codewordDone (c : Chip) (p : Port) (ok corr : Bool) (bits : List Bool) : Chip :=
  let c := c.modOct p fun o => { o with cwBad := ((!ok) :: o.cwBad).take 16 }
  if ok = false then c.bumpLp p 12 1
  else
    let c := if corr then c.bumpLp p 11 1 else c
    let h : Bytes := (List.range 15).map fun i => BitVec.ofNat 8 (bitsAt bits (8 * i) 8)
    if h.drop 14 ≠ [crc8 (h.take 14)] then c
    else
      let c := c.put (lpB p) OCT_SF_RX_SF (beAt h 1 1)
      let c := if (c.port p).oct.master then c else c.put (lpB p) OCT_SF_TX_SF (beAt h 1 1)
      let slice := (h.drop 2).take 12
      match beAt slice 0 1 with
      | 0x40 | 0x80 => c.modOct p fun o => { o with omcIn := slice.drop 1 }
      | 0xC0 => c.modOct p fun o => { o with omcIn := o.omcIn ++ slice.drop 1 }
      | _ => c
/-- CODEWORD_RX (R84, R88 to R91; 05_cable_and_idle.md R187): the 19,200 soft values of a codeword, a positive one for 0, and
whether the start of its superframe was received. -/
def execCodewordRx (p : Port) (llr : List Int) (start : Bool) (s : State) : Res :=
  s.act fun c =>
    if c.showtime p ∧ start then
      let bits := ldpcDecode llr
      c.codewordDone p (ldpcOk bits) (bits != llr.map fun v => decide (v < 0)) bits
    else c

/-- TONE_EQ_TRACK (R108; 05_cable_and_idle.md R189): the equaliser of a tone has tracked to w. Its magnitude leaves ±3 dB of its
CHANNEL value, or is back inside ±1.5 dB. -/
def execToneEqTrack (p : Port) (tone : Fin 2048) (w : Equaliser) (s : State) : Res :=
  s.act fun c =>
    if c.showtime p ∧ 8 ≤ tone.val ∧ tone.val < 2040 ∧ c.on (lpB p) LPI_STAT_RX_QUIET = false then
      let v := (c.port p).oct.weq0.getD (tone.val - 8) {}
      let c := c.modOct p fun o => { o with weq := o.weq.set (tone.val - 8) w }
      if eqOutside w v ∧ (c.port p).oct.drift.contains tone.val = false then
        (c.modOct p fun o => { o with drift := o.drift ++ [tone.val] }).evt (lpB p) OCT_EVT_TONE_DRIFT
      else if eqInside w v then c.modOct p fun o => { o with drift := o.drift.filter (· != tone.val) }
      else c
    else c

/-- The running mean of the SNR per tone, empty when it has not changed; held in a quiet period (R101; 05_cable_and_idle.md
R187). -/
def Chip.snrTaken (c : Chip) (p : Port) (snr : List Nat) : Chip :=
  if snr = [] ∨ c.on (lpB p) LPI_STAT_RX_QUIET then c else c.modOct p fun o => { o with snr := snr.map (Nat.min 600) }

/-- SWAP_EVALUATION (R111, R115, R462): `snr` is the running mean per tone at this evaluation, empty when it has not
changed. -/
def execSwapEvaluation (p : Port) (snr : List Nat) (s : State) : Res :=
  s.act fun c =>
    let b := lpB p
    if c.showtime p then
      let c := (c.snrTaken p snr).showMargin p
      let o := (c.port p).oct
      if c.on b OCT_CTL_SWAP_EN ∧ o.swap = none ∧ o.swapTx = none ∧ o.reload = none ∧ o.pause = none ∧ c.inLpi p = false ∧ c.calRuns p.val = false then
        let r := swapMoves (c.toneTable p o.snr (c.octBand p false)) o.drift (c.get b OCT_SWAP_TRIG) o.target 24384 o.rxBits []
        if r.2 = [] then c
        else
          let l := r.2.map fun i => (i + 8, r.1.getD i 0)
          let m := omcMsg 1 o.omcSeq (be 1 l.length ++ l.flatMap fun x => be 2 (x.2 * 4096 + x.1))
          let c := c.modOct p fun x => { x with swap := some { seq := o.omcSeq, list := l, sends := 1 } }
          ((c.omcNext p).omcSend p [m]).showPending p
      else c
    else c

/-- The answer to a new SWAP_REQ (R112). -/
def Chip.swapAnswer (c : Chip) (p : Port) (m : Bytes) (seq : Nat) : Chip :=
  let l := swapList m
  let t := (c.sfCount p + 5) % 256
  let r := c.swapRefusal p l t
  let a := if r = 0 then omcMsg 2 seq (be 1 t) else omcMsg 3 seq (be 1 r)
  let c := (c.omcSend p [a]).modOct p fun o => { o with answered := some (256 + seq, [a]) }
  if r = 0 then (c.modOct p fun o => { o with swapTx := some { seq := seq, list := l, target := some t } }).showPending p else c

/-- The stored answer to a request of a TYPE already answered under this SEQ (R114). -/
def Chip.omcRepeat (c : Chip) (p : Port) (typ seq : Nat) : Option (List Bytes) :=
  match (c.port p).oct.answered with
  | some (a, ans) => if a = 256 * typ + seq then some ans else none
  | none => none

/-- SWAP_REQ_RX (R112, R114): the message's bytes. -/
def execSwapReqRx (p : Port) (m : Bytes) (s : State) : Res :=
  s.act fun c =>
    if c.showtime p then
      match c.omcRepeat p 1 (beAt m 2 1) with
      | some ans => c.omcSend p ans
      | none => c.swapAnswer p m (beAt m 2 1)
    else c

/-- SWAP_ACK_RX (R113). -/
def execSwapAckRx (p : Port) (m : Bytes) (s : State) : Res :=
  s.act fun c => c.modOct p fun o =>
    { o with swap := o.swap.map fun x => if x.seq = beAt m 2 1 then { x with target := some (beAt m 3 1) } else x }

/-- A requested swap comes to nothing (R112, R114). -/
def Chip.swapDropped (c : Chip) (p : Port) : Chip :=
  ((c.modOct p fun o => { o with swap := none }).showPending p).evt (lpB p) OCT_EVT_SWAP_NAK

/-- SWAP_NAK_RX (R112). -/
def execSwapNakRx (p : Port) (m : Bytes) (s : State) : Res :=
  s.act fun c =>
    match (c.port p).oct.swap with
    | some x => if x.seq = beAt m 2 1 then c.swapDropped p else c
    | none => c

/-- This receiver's requested loading takes effect (R113). -/
def Chip.swapRx (c : Chip) (p : Port) (l : List (Nat × Nat)) : Chip :=
  (c.modOct p fun o => { o with swap := none, rxBits := setBits o.rxBits l, rxChanged := some (c.get (lpB p) OCT_SF_RX_SF) }).swapTaken p

/-- SWAP_CHANGEOVER (R113): the target superframe of the swap this end has acknowledged begins, or (`tx` false) of the one
it has requested. -/
def execSwapChangeover (p : Port) (tx : Bool) (s : State) : Res :=
  s.act fun c =>
    if c.showtime p then
      if tx then
        match (c.port p).oct.swapTx with
        | some x =>
          let c := c.put (lpB p) OCT_SF_TX_SF (x.target.getD (c.sfCount p))
          (c.modOct p fun o => { o with swapTx := none, txBits := setBits o.txBits x.list, flag := .inverted }).swapTaken p
        | none => c
      else
        match (c.port p).oct.swap with
        | some x => match x.target with | some t => (c.put (lpB p) OCT_SF_RX_SF t).swapRx p x.list | none => c
        | none => c
    else c

/-- SWAP_RETRY_TIMEOUT (R114, R115; log entry 48): up to four sends more, none in LPI or with a pause announced or running. -/
def execSwapRetryTimeout (p : Port) (s : State) : Res :=
  s.act fun c =>
    match (c.port p).oct.swap with
    | some x =>
      if x.target.isSome then c
      else if 5 ≤ x.sends then c.swapDropped p
      else if c.inLpi p ∨ (c.port p).oct.pause.isSome ∨ c.showtime p = false then c
      else
        let m := omcMsg 1 x.seq (be 1 x.list.length ++ x.list.flatMap fun y => be 2 (y.2 * 4096 + y.1))
        (c.modOct p fun o => { o with swap := some { x with sends := x.sends + 1 } }).omcSend p [m]
    | none => c

/-- The MASTER starts a reload under a SEQ with its present values (R116; log entry 50). -/
def Chip.reloadStart (c : Chip) (p : Port) (seq : Nat) : Chip :=
  let v := c.reloadVals p
  match c.reloadRx p v with
  | none => c.reloadFailed p
  | some r =>
    let c := c.modOct p fun o => { o with reload := some { seq := seq, vals := v, rxBits := r }, reloadBad := false }
    (c.omcSend p [omcMsg 4 seq (v.flatMap (be 1))]).showPending p

/-- A write of 1 to LPn_OCT_CTL.RELOAD (R116; log entry 49). -/
def Chip.reloadWritten (c : Chip) (p : Port) : Chip :=
  let b := lpB p
  let c := c.put b OCT_CTL_RELOAD 0
  if c.showtime p = false then c
  else if c.reloadHeld p ≠ 0 then (c.modOct p fun o => { o with reloadBad := true }).evt b OCT_EVT_RELOAD_FAIL
  else
    let seq := (c.port p).oct.omcSeq
    let c := c.omcNext p
    if (c.port p).oct.master then c.reloadStart p seq
    else ((c.modOct p fun o => { o with reload := some { seq := seq }, reloadBad := false }).omcSend p [omcMsg 4 seq (be 5 0)]).showPending p

/-- Refuses a reload (R116, R117). -/
def Chip.reloadNak (c : Chip) (p : Port) (seq reason : Nat) : Chip :=
  let a := omcMsg 7 seq (be 1 reason)
  (c.omcSend p [a]).modOct p fun o => { o with answered := some (4 * 256 + seq, [a]) }
/-- Keeps what this end has just sent as its answer to a RELOAD_REQ (R114). -/
def Chip.reloadAnswered (c : Chip) (p : Port) (seq : Nat) : Chip := c.modOct p fun o => { o with answered := some (4 * 256 + seq, o.omcOut) }

/-- RELOAD_REQ_RX (R114, R116, R117; 14_calibration_and_ageing.md R462: a MASTER that may send no RELOAD_REQ refuses). -/
def execReloadReqRx (p : Port) (m : Bytes) (s : State) : Res :=
  s.act fun c =>
    let seq := beAt m 2 1
    if c.showtime p then
      match c.omcRepeat p 4 seq with
      | some ans => c.omcSend p ans
      | none =>
        let no := if (c.port p).oct.master then c.reloadHeld p else c.reloadRefusal p
        if no ≠ 0 then
          let c := if (c.port p).oct.reload.isSome then c.reloadFailed p else c
          c.reloadNak p seq no
        else if (c.port p).oct.master then (c.reloadStart p seq).reloadAnswered p seq
        else
          let v := ((m.drop 3).take 5).map (·.toNat)
          match c.reloadRx p v with
          | none =>
            let c := if (c.port p).oct.reload.isSome then c.reloadFailed p else c
            c.reloadNak p seq 6
          | some r =>
            let c := c.modOct p fun o => { o with reload := some { seq := seq, vals := v, rxBits := r, sent := true }, reloadBad := false }
            ((c.omcSend p (tableMsgs seq r)).reloadAnswered p seq).showPending p
    else c

/-- The partner's table as its fragments spell it. -/
def ReloadSt.bits (x : ReloadSt) : List Nat :=
  loadingOf ((List.range 16).flatMap fun i => match x.frags.find? (fun (y : Nat × Bytes) => y.1 == i) with | some y => y.2 | none => [])

/-- This end holds all fragments of the partner's table. -/
def ReloadSt.whole (x : ReloadSt) : Bool := x.frags.length == 16
/-- A fragment arrives; they come in order, twice (R116). -/
def ReloadSt.take (x : ReloadSt) (f : Nat) (b : Bytes) : ReloadSt :=
  { x with frags := (x.frags.filter fun y => y.1 != f) ++ [(f, b)], last := some f,
           second := x.second || (match x.last with | some l => decide (f ≤ l) | none => false) }
/-- A fragment has passed in both copies and is not held (R117). -/
def ReloadSt.lost (x : ReloadSt) : Bool :=
  x.second && (List.range (x.last.getD 0)).any fun i => x.frags.all fun y => y.1 != i

/-- TABLE_RX (R116, R117): once this end holds all fragments, the SLAVE acknowledges; a fragment missing after both copies, or an
invalid entry, is LOST. -/
def execTableRx (p : Port) (m : Bytes) (s : State) : Res :=
  s.act fun c =>
    match (c.port p).oct.reload with
    | none => c
    | some x =>
      if c.showtime p = false ∨ x.vals = [] then c
      else
        let y : ReloadSt := { x.take (beAt m 3 1 % 16) (m.drop 4) with sent := true }
        let c := if x.sent then c else c.omcSend p (tableMsgs x.seq x.rxBits)
        let c := c.modOct p fun o => { o with reload := some y }
        if (y.whole && y.bits.any fun b => decide (12 < b)) || y.lost then (c.reloadFailed p).reloadNak p x.seq 7
        else if y.whole ∧ (c.port p).oct.master = false ∧ y.target = none then
          let t := (c.sfCount p + 4) % 256
          ((c.modOct p fun o => { o with reload := some { y with target := some t } }).omcSend p [omcMsg 6 x.seq (be 1 t)]).reloadAnswered p x.seq
        else c

/-- RELOAD_ACK_RX (R116, R117): a MASTER that then lacks a fragment abandons the reload as LOST. -/
def execReloadAckRx (p : Port) (m : Bytes) (s : State) : Res :=
  s.act fun c =>
    match (c.port p).oct.reload with
    | some x =>
      if x.seq ≠ beAt m 2 1 ∨ (c.port p).oct.master = false then c
      else if x.whole then c.modOct p fun o => { o with reload := some { x with target := some (beAt m 3 1) } }
      else (c.reloadFailed p).reloadNak p x.seq 7
    | none => c

/-- RELOAD_NAK_RX (R117). -/
def execReloadNakRx (p : Port) (m : Bytes) (s : State) : Res :=
  s.act fun c =>
    match (c.port p).oct.reload with
    | some x => if x.seq = beAt m 2 1 then c.reloadFailed p else c
    | none => c

/-- Both directions take the new N, B and loading of a reload at superframe `t`, which an inverted flag opens (R113, R116, R123). -/
def Chip.reloadTaken (c : Chip) (p : Port) (x : ReloadSt) (t : Nat) : Chip :=
  let g := c.reloadGrade p x.vals
  let bits := x.bits
  let c := c.put (lpB p) OCT_SF_TX_SF t
  let c := c.modOct p fun o =>
    let o := o.withVals x.vals
    { o with reload := none, rxBits := x.rxBits, txBits := bits, margin := achieved o.snr x.rxBits, flag := .inverted, rxChanged := some t }
  let c := (((c.showRates p g).showPending p).evt (lpB p) OCT_EVT_RELOAD_DONE).bumpLp p 18 1
  ((c.showMargin p).writeK2 p).ageReloaded p
/-- RELOAD_CHANGEOVER (R116): the target superframe begins. -/
def execReloadChangeover (p : Port) (s : State) : Res :=
  s.act fun c =>
    match (c.port p).oct.reload with
    | some x => match x.target with | some t => if c.showtime p then c.reloadTaken p x t else c | none => c
    | none => c

/-- INVERTED_FLAG_RX (R113, R116): an inverted flag opens received superframe `sf`. It changes over a swap, or a reload whose tables
this end holds, that is outstanding for that superframe, acknowledged or not; one outstanding for another superframe is kept and
the flag is stray (DESIGN CHOICE, log entry 131). -/
def execInvertedFlagRx (p : Port) (sf : Byte) (s : State) : Res :=
  s.act fun c =>
    if c.showtime p then
      let c := c.put (lpB p) OCT_SF_RX_SF sf.toNat
      let o := (c.port p).oct
      let stray := (c.bumpLp p 17 1).evt (lpB p) OCT_EVT_STRAY_FLAG
      let due := fun (t : Option Nat) => t.isNone || t == some sf.toNat
      if o.rxChanged = some sf.toNat then c
      else
        match o.swap, o.reload with
        | some x, _ => if due x.target then c.swapRx p x.list else stray
        | none, some x => if x.whole && due x.target then c.reloadTaken p x sf.toNat else stray
        | none, none => stray
    else c

/-- RELOAD_TIMEOUT (R117): 256 superframes without the acknowledgement. -/
def execReloadTimeout (p : Port) (s : State) : Res :=
  s.act fun c =>
    match (c.port p).oct.reload with
    | some x => if x.target = none then c.reloadFailed p else c
    | none => c

/-- PIP_PAUSE_RX (R155): held with result 0; result 1 when a swap or reload changeover is due at or after X, or when this
port announces a pause itself. -/
def execPipPauseRx (p : Port) (rate : Fin 3) (lq seq : Byte) (body : Bytes) (s : State) : Res :=
  s.act fun c =>
    c.pipOnce p 7 seq.toNat rate.val lq.toNat fun c =>
      let o := (c.port p).oct
      let x := beAt body 0 1
      let due := fun (t : Option Nat) => (t.map fun t => sfAtOrAfter t x).getD false
      let busy := due (o.swapTx.bind (·.target)) || due (o.swap.bind (·.target)) || due (o.reload.bind (·.target)) || (o.pause.map (·.own)).getD false
      if c.showtime p ∧ busy = false then
        (c.pipAck p 7 seq.toNat rate.val 0).modOct p fun o => { o with pause := some { x := x, own := false, acked := true } }
      else c.pipAck p 7 seq.toNat rate.val 1

/-- PAUSE_CANCEL (R119): superframe X − 2 without the partner's acknowledgement. -/
def execPauseCancel (p : Port) (s : State) : Res :=
  s.act fun c =>
    match (c.port p).oct.pause with
    | some x => if c.showtime p ∧ x.own ∧ x.acked = false then c.pauseDropped p else c
    | none => c

/-- PAUSE_RENOTICE (R119): 64 superframes after a cancelled notice. -/
def execPauseRenotice (p : Port) (s : State) : Res :=
  s.act fun c =>
    if c.showtime p ∧ c.calRuns p.val ∧ (c.port p).oct.pause = none ∧ (c.port p).oct.cancels ≠ 0 then c.pauseAnnounce p else c

/-- PAUSE_START (R118, R122, R188): superframe X. -/
def execPauseStart (p : Port) (s : State) : Res :=
  s.act fun c =>
    let b := lpB p
    match (c.port p).oct.pause with
    | some x =>
      if c.showtime p ∧ x.acked then
        let c := (c.setPhase p 12).put b OCT_STAT_PAUSED 1
        let c := (c.put b OCT_SF_TX_SF x.x).evt b OCT_EVT_PAUSE_BEGIN
        c.modOct p fun o => { o with uncBad := 0, snrBad := 0, flag := .silent, fill := false, omcNow := [] }
      else c
    | none => c

/-- PAUSE_CAL_DONE (R118). -/
def execPauseCalDone (p : Port) (s : State) : Res :=
  s.act fun c =>
    if c.get (lpB p) OCT_STAT_PHASE = 12 then
      c.modOct p fun o => { o with pause := o.pause.map fun x => if x.own then { x with calDone := true } else x }
    else c

/-- PAUSE_FLAG_PHASE (R118, R121): superframe X + 54. -/
def execPauseFlagPhase (p : Port) (s : State) : Res :=
  s.act fun c =>
    match (c.port p).oct.pause with
    | some x =>
      if c.lState p = 6 ∧ c.get (lpB p) OCT_STAT_PHASE = 12 then
        if x.own ∧ x.calDone = false then c.octDown p 7
        else
          let master := (c.port p).oct.master
          let c := c.modOct p fun o => { o with pause := some { x with flags := true }, flag := if master then .plain else .silent }
          (c.setTx p master).modDiag p fun y => { y with prevRtt := none }
      else c
    | none => c

/-- PAUSE_END (R118, R121, R188): superframe X + 64, with or without a flag detected. -/
def execPauseEnd (p : Port) (flag : Bool) (s : State) : Res :=
  s.act fun c =>
    let b := lpB p
    if c.lState p = 6 ∧ c.get b OCT_STAT_PHASE = 12 then
      if flag = false then c.octDown p 7
      else
        let c := ((c.setPhase p 11).put b OCT_STAT_PAUSED 0).evt b OCT_EVT_PAUSE_END
        let c := c.modOct p fun o => { o with pause := none, cancels := 0, uncBad := 0, snrBad := 0 }
        if c.on b PCS_STAT_TX_LPI ∧ c.egressEmpty p then (c.modOct p fun o => { o with flag := .conj }).modDiag p fun x => { x with lpiSf := 0 }
        else ((if c.on b PCS_STAT_TX_LPI then c.setTxLpi p false else c).sfBegin p 1)
    else c

/-- OCT_SIGNAL_LOSS (R121). -/
def execOctSignalLoss (p : Port) (s : State) : Res :=
  s.act fun c =>
    if c.showtime p ∧ c.on (lpB p) PCS_STAT_RX_LPI = false then (c.put (lpB p) PMA_STAT_SIGNAL_DET 0).octDown p 3 else c
/-- OCT_FLAG_LOSS (R121). -/
def execOctFlagLoss (p : Port) (s : State) : Res :=
  s.act fun c => if c.showtime p ∧ c.on (lpB p) PCS_STAT_RX_LPI = false then c.octDown p 4 else c

/-- OCT_LM_WINDOW_END (R101, R108, R121, R122): `unc` uncorrectable codewords in the window, and the running mean SNR per
tone, empty when it has not changed. -/
def execOctLmWindowEnd (p : Port) (unc : Nat) (snr : List Nat) (s : State) : Res :=
  s.act fun c =>
    let b := lpB p
    if c.showtime p then
      let c := (c.snrTaken p snr).showMargin p
      if c.on b PCS_STAT_RX_LPI then c.modOct p fun o => { o with uncBad := 0, snrBad := 0 }
      else
        let c := c.modOct p fun o => { o with
          uncBad := if c.get b OCT_UNC_UNC_MAX < unc then o.uncBad + 1 else 0
          snrBad := if c.getS b LM_STAT_SNR_MARGIN < c.getS b LM_CTL_SNR_MIN then o.snrBad + 1 else 0 }
        let w := c.get b LM_CTL_WIN
        if w ≤ (c.port p).oct.uncBad ∧ (c.port p).oct.uncBad ≠ 0 then c.octDown p 5
        else if w ≤ (c.port p).oct.snrBad ∧ (c.port p).oct.snrBad ≠ 0 then c.octDown p 6
        else c
    else c

end Sys2Proof.Machine
end

