-- ==== Sys2Proof/Machine/LaneOps.lean ====
section
/-! DEFINITION. The lanes' operations (07_host_lanes_and_retimer.md): kinds of lane, faults and their effect by mode,
shedding and replay, the retimer pairs, and changes of the host mode (01_architecture.md R25 to R27). -/

namespace Sys2Proof.Machine

/-- The number n of lane Hn or Tn. -/
def laneNo (l : Lane) : Port := Fin.ofNat 8 l.val
/-- Hn for Tn, Tn for Hn (R231). -/
def pairLane (l : Lane) : Lane := Fin.ofNat 16 (l.val + 8)
/-- Lane Hn. -/
def hLane (n : Port) : Lane := Fin.ofNat 16 n.val
/-- The lane runs retimed in the active mode (R25). -/
def Chip.laneRetimed (c : Chip) (l : Lane) : Bool := c.hostMode == 3 || (c.hostMode == 4 && decide (4 ≤ (laneNo l).val))
/-- The lane is a host lane of a data mode (R25). -/
def Chip.laneData (c : Chip) (l : Lane) : Bool := decide (l.val < 8) && !c.laneRetimed l
/-- The lane has no use in the active mode (R27). -/
def Chip.laneUnused (c : Chip) (l : Lane) : Bool := !c.laneRetimed l && decide (8 ≤ l.val)
/-- Xn_CTL.ENABLE. -/
def Chip.laneOn (c : Chip) (l : Lane) : Bool := c.on (laneB l) XN_CTL_ENABLE
/-- The lane is up (R236). -/
def Chip.laneUp (c : Chip) (l : Lane) : Bool := c.on (laneB l) XN_STAT_UP
/-- All sixteen lanes are disabled (R26). -/
def Chip.lanesOff (c : Chip) : Bool := allLanes.all fun l => !c.laneOn l

/-- The RATE that a lane holds: as applied while enabled, else its field (R230, R231; log entry 54). -/
def Chip.heldRate (c : Chip) (l : Lane) : Nat := if c.laneOn l then c.lanes[l].rate else c.get (laneB l) XN_CTL_RATE
/-- The checks of R231 fail. -/
def Chip.rateBad (c : Chip) (l : Lane) : Bool :=
  if c.laneRetimed l then c.heldRate (pairLane l) != c.lanes[l].rate
  else decide (l.val < 8) && (c.hostMode == 1 || c.hostMode == 2) && c.lanes[l].rate != 0

/-- A condition of R236 holds. -/
def Chip.laneFaulted (c : Chip) (l : Lane) : Bool :=
  let s := c.lanes[l]
  s.rxLost || (s.rf && c.laneData l) || !c.laneOn l || !c.laneClk l || (c.laneData l && !c.hgrpClk) || c.on (laneB l) XN_PAT_CTL_GEN_EN || s.fgCal ||
    c.on (laneB l) XN_CTL_TX_SQUELCH || s.cfgErr || c.laneUnused l

/-- The state of a retimer pair, or of a data lane's training (R253, R264). -/
def Chip.trnState (c : Chip) (l : Lane) : Nat := c.get (laneB l) XN_TRN_STAT_STATE
/-- Sets the state of the pair that a lane belongs to. -/
def Chip.setPair (c : Chip) (l : Lane) (n : Nat) : Chip :=
  (c.put (laneB l) XN_TRN_STAT_STATE n).put (laneB (pairLane l)) XN_TRN_STAT_STATE n

/-- The transmitter is in electrical idle (R259, R255, R256, R297). -/
def Chip.laneIdle (c : Chip) (l : Lane) : Bool :=
  !c.laneOn l || !c.laneClk l || c.lanes[l].cfgErr || c.on (laneB l) XN_CTL_TX_SQUELCH || c.laneUnused l || c.trnState l == 5 ||
    (c.laneRetimed l && (c.trnState l == 0 || c.lanes[l].holdIdle)) || (decide (l.val < 8) && c.tagged && c.quire.idleHold)
/-- The receive path of host lane h's link is faulted: the lane's own, in GATHERED that of any of the eight or their deskew
(R239, R240, R245, R257). -/
def Chip.rxBroken (c : Chip) (h : Lane) : Bool :=
  if c.hostMode = 1 then !c.hgrp.deskewed || hostLanes.any fun k => c.lanes[k].rxLost || !c.laneOn k || !c.laneClk k || c.lanes[k].cfgErr
  else c.lanes[h].rxLost
/-- Lane h sends remote fault: its transmitter sends, and no pattern (R240, R245, R257, R259, R261). -/
def Chip.laneRf (c : Chip) (h : Lane) : Bool :=
  c.laneData h && !c.laneIdle h && !c.on (laneB h) XN_PAT_CTL_GEN_EN && c.rxBroken h
/-- Shows TX_IDLE of a lane and whether remote fault is sent (R264). -/
def Chip.laneShow (c : Chip) (l : Lane) : Chip :=
  let c := c.putB (laneB l) XN_STAT_TX_IDLE (c.laneIdle l)
  c.putB HGRP HGRP_STAT_RF_TX (hostLanes.any c.laneRf)

/-- Whether x comes after y in a port's 16-bit numbering. -/
def seqAfter (x y : Nat) : Bool := decide ((x + 65536 - y) % 65536 < 32768) && x != y
/-- Puts a frame to be sent again in the sequence order of its port (R246). -/
def replayInsert (x : QFrame × Nat × Nat) : List (QFrame × Nat × Nat) → List (QFrame × Nat × Nat)
  | [] => [x]
  | y :: t => if y.2.1 = x.2.1 ∧ seqAfter y.2.2 x.2.2 then x :: y :: t else y :: replayInsert x t

/-- A live lane is shed: what it sent within REPLAY is sent again on the live lanes (R245, R246, R249). -/
def Chip.shedLane (c : Chip) (l : Lane) : Chip :=
  let fr := c.lanes[l].replay
  let c := c.modLane l fun x => { x with replay := [] }
  let c := c.modHgrp fun h => { h with replayq := fr.foldl (fun q x => replayInsert x q) h.replayq }
  let c := c.modOut (Fin.ofNat 9 l.val) fun o => { o with cur := none }
  let c := (c.put (laneB l) XN_STAT_LIVE 0).evt (laneB l) XN_EVT_SHED
  let c := ((c.putBit HGRP HGRP_BOND_STAT_SHED l.val true).evt HGRP HGRP_EVT_SHED).bumpHgrp 6 1
  let c := c.putB HGRP HGRP_BOND_STAT_REPLAYING (!c.hgrp.replayq.isEmpty)
  if hostLanes.all fun h => !c.on (laneB h) XN_STAT_LIVE then c.evt HGRP HGRP_EVT_ALL_SHED else c

/-- The gathered interface goes down; a frame toward the host that has not left whole is kept (R240, R300). -/
def Chip.gatherDown (c : Chip) : Chip :=
  let c := (c.put HGRP HGRP_STAT_GATHER_UP 0).evt HGRP HGRP_EVT_GATHER_DOWN
  c.modOut 8 fun o => { o with cut := if o.left = 0 then o.cut else o.cur, cur := none, left := 0 }
/-- The gathered interface comes up and the counts restart (R239, R296). -/
def Chip.gatherUp (c : Chip) : Chip := (c.put HGRP HGRP_STAT_GATHER_UP 1).creditRestart
/-- The gathered interface comes up once the eight lanes are up and deskewed (R239, R297). -/
def Chip.gatherCheck (c : Chip) : Chip :=
  if c.hostMode = 1 ∧ c.on HGRP HGRP_STAT_GATHER_UP = false ∧ c.quire.idleHold = false ∧ c.hgrp.deskewed ∧ hostLanes.all (fun h => c.laneUp h) then
    c.gatherUp
  else c

/-- What a lane that becomes faulted does in its mode (R200, R236, R257, R500). -/
def Chip.laneWentDown (c : Chip) (l : Lane) : Chip :=
  let c := ((c.put (laneB l) XN_STAT_UP 0).evt (laneB l) XN_EVT_DOWN).bumpLane l 10 1
  let c := if l.val < 8 then c.putBit HGRP HGRP_STAT_UP l.val false else c
  if c.laneData l then
    let c := c.put (laneB l) XN_TRN_STAT_STATE (if c.laneOn l && !c.lanes[l].cfgErr then 2 else 0)
    if c.hostMode = 2 then (if c.on (laneB l) XN_STAT_LIVE then c.shedLane l else c)
    else if c.hostMode = 1 then (if c.on HGRP HGRP_STAT_GATHER_UP then c.gatherDown else c)
    else
      let c := c.modLane l fun x => { x with ctlq := [], paused := 0, pauseQuanta := List.replicate 8 0 }
      c.folioLinkDown (Fin.ofNat 16 (8 + l.val))
  else c
/-- What a lane that comes up does in its mode (R236, R239). -/
def Chip.laneWentUp (c : Chip) (l : Lane) : Chip :=
  let c := (c.put (laneB l) XN_STAT_UP 1).evt (laneB l) XN_EVT_UP
  let c := if l.val < 8 then c.putBit HGRP HGRP_STAT_UP l.val true else c
  if c.laneData l then c.put (laneB l) XN_TRN_STAT_STATE 3 else c

/-- Looks at a lane's conditions after any of them changed (R236); a lost receiver of the eight ends their deskew (R239). -/
def Chip.laneEval (c : Chip) (l : Lane) : Chip :=
  let c := if l.val < 8 ∧ (c.lanes[l].rxLost ∨ c.laneOn l = false ∨ c.laneClk l = false) then c.modHgrp fun h => { h with deskewed := false } else c
  let c := if c.laneFaulted l then (if c.laneUp l then c.laneWentDown l else c) else if c.laneUp l then c else c.laneWentUp l
  (c.laneShow l).gatherCheck

/-- The last index of a lane's tap group (R234). -/
def laneTapOk (g i : Nat) : Bool := decide (g ≤ 3 ∧ i ≤ (if g = 2 then 15 else 0))
/-- A value clipped to its group (R234). -/
def laneTapClip (g : Nat) (v : Int) : Int :=
  match g with
  | 0 => max 0 (min 40 v)
  | 1 => max 0 (min 32 v)
  | 2 => max (-128) (min 127 v)
  | _ => max (-64) (min 63 v)
/-- The group's freeze bit (R235). -/
def Chip.laneFrozen (c : Chip) (l : Lane) (g : Nat) : Bool :=
  let b := laneB l
  match g with
  | 0 => c.on b XN_EQ_CTL_FREEZE_CTLE
  | 1 => c.on b XN_EQ_CTL_FREEZE_VGA
  | 2 => c.on b XN_EQ_CTL_FREEZE_FFE
  | 3 => c.on b XN_EQ_CTL_FREEZE_DFE
  | _ => c.on b XN_EQ_CTL_FREEZE_TX
/-- MAIN gives way while the four magnitudes add to more than 128 (R235). -/
def Chip.eqClip (c : Chip) (l : Lane) : Chip :=
  let b := laneB l
  let o := (c.getS b XN_TXEQ0_PRE1).natAbs + (c.getS b XN_TXEQ0_PRE2).natAbs + (c.getS b XN_TXEQ1_POST1).natAbs
  if 128 < o + c.get b XN_TXEQ1_MAIN then c.put b XN_TXEQ1_MAIN (128 - o) else c
/-- Training or adaptation writes values of group, index and value; groups 8 to 11 stand for PRE1, PRE2, POST1 and MAIN
(R234, R235). -/
def Chip.laneFit (c : Chip) (l : Lane) (v : List (Nat × Nat × Int)) : Chip :=
  let b := laneB l
  let c := c.each v fun c x =>
    if c.laneFrozen l x.1 then c
    else match x.1 with
      | 8 => c.putS b XN_TXEQ0_PRE1 (satS 8 x.2.2)
      | 9 => c.putS b XN_TXEQ0_PRE2 (satS 8 x.2.2)
      | 10 => c.putS b XN_TXEQ1_POST1 (satS 8 x.2.2)
      | 11 => c.put b XN_TXEQ1_MAIN (satU 8 x.2.2.toNat)
      | _ => if laneTapOk x.1 x.2.1 then c.modLane l fun y => { y with taps := Sparse.set y.taps (x.1 * 16 + x.2.1) (laneTapClip x.1 x.2.2) } else c
  c.eqClip l

/-- Held values are no longer valid (R255). -/
def Chip.heldClear (c : Chip) (l : Lane) : Chip :=
  (c.put (laneB l) XN_TRN_STAT_HELD_VALID 0).modLane l fun x => { x with held := [], heldTx := [] }
/-- Keeps the trained values of a lane as held values (R255). -/
def Chip.heldKeep (c : Chip) (l : Lane) : Chip :=
  let b := laneB l
  (c.put b XN_TRN_STAT_HELD_VALID 1).modLane l fun x => { x with
    held := x.taps
    heldTx := [c.get b XN_TXEQ0_PRE1, c.get b XN_TXEQ0_PRE2, c.get b XN_TXEQ1_POST1, c.get b XN_TXEQ1_MAIN] }
/-- A segment's ready reports are withdrawn (R254, R264). -/
def Chip.readyClear (c : Chip) (l : Lane) : Chip :=
  let b := laneB l
  ((c.put b XN_TRN_STAT_LOCAL_READY 0).put b XN_TRN_STAT_REMOTE_READY 0).put b XN_TRN_STAT_READY_SENT 0
/-- A segment begins to train, from held values where HELD_START and HELD_VALID say so, else from the presets (R255). -/
def Chip.trainBegin (c : Chip) (l : Lane) : Chip :=
  let b := laneB l
  let c := c.readyClear l
  let c := c.modLane l fun x => { x with holdIdle := false }
  let h := c.lanes[l].heldTx
  if c.on b XN_TRN_CTL_HELD_START ∧ c.on b XN_TRN_STAT_HELD_VALID then
    let c := c.modLane l fun x => { x with taps := x.held }
    if c.laneFrozen l 8 then c
    else (((c.put b XN_TXEQ0_PRE1 (h.getD 0 0)).put b XN_TXEQ0_PRE2 (h.getD 1 0)).put b XN_TXEQ1_POST1 (h.getD 2 0)).put b XN_TXEQ1_MAIN (h.getD 3 0)
  else if c.laneFrozen l 8 then c
  else (c.setReg (b + XN_TXEQ0_PRE1.off) 0x00F8).setReg (b + XN_TXEQ1_POST1.off) 0x70F8

/-- Both lanes of a pair are enabled and pass R231. -/
def Chip.pairReady (c : Chip) (l : Lane) : Bool :=
  c.laneRetimed l && c.laneOn l && c.laneOn (pairLane l) && !c.lanes[l].cfgErr && !c.lanes[pairLane l].cfgErr
/-- A pair goes to a state, and its transmitters are looked at (R253, R259). -/
def Chip.pairTo (c : Chip) (l : Lane) (n : Nat) : Chip :=
  let m := pairLane l
  let c := c.setPair l n
  let c := if n = 0 ∨ n = 5 then (c.readyClear l).readyClear m else c
  let c := if n = 4 then c else (c.modLane l fun x => { x with holdIdle := false }).modLane m fun x => { x with holdIdle := false }
  let c :=
    if n = 3 ∧ c.lanes[l].train = false then
      (c.modLane l fun x => { x with holdIdle := c.lanes[m].rxLost }).modLane m fun x => { x with holdIdle := c.lanes[l].rxLost }
    else c
  (c.laneShow l).laneShow m

/-- The check of R231 on both lanes of a retimed pair: it holds for as long as the two hold different rates. -/
def Chip.rateCheck (c : Chip) (l : Lane) : Chip :=
  if c.laneRetimed l = false then c
  else c.each [l, pairLane l] fun c m =>
    let bad := c.rateBad m
    if c.laneOn m = false ∨ bad = c.lanes[m].cfgErr then c
    else
      let c := c.modLane m fun x => { x with cfgErr := bad }
      (if bad then (c.evt (laneB m) XN_EVT_CFG_ERR).pairTo m 0 else c).laneEval m

/-- A receiver of a retimed pair in PASS or HOLD has lost or found its lock (R255, R256). -/
def Chip.pairRx (c : Chip) (l : Lane) : Chip :=
  let m := pairLane l
  let lost := c.lanes[l].rxLost
  if c.laneRetimed l = false then c
  else if c.lanes[l].train = false then
    if c.trnState l = 3 then (c.modLane m fun x => { x with holdIdle := lost }).laneShow m else c
  else if c.trnState l = 3 ∧ lost then
    let c := ((c.heldKeep l).heldKeep m).setPair l 4
    (c.modLane m fun x => { x with holdIdle := true }).laneShow m
  else if c.trnState l = 4 then
    let c := c.modLane m fun x => { x with holdIdle := lost }
    if c.lanes[l].rxLost || c.lanes[m].rxLost then c.laneShow m else c.pairTo l 3
  else c

/-- The lane stops: disabled or reset (R230, R236, R253, R255). -/
def Chip.laneStop (c : Chip) (l : Lane) : Chip :=
  let c := c.modLane l fun x => { x with cfgErr := false, rxLost := true, rf := false, holdIdle := false }
  let c := c.setReg (laneB l + XN_STAT_SIGNAL_DET.off) (c.reg (laneB l + XN_STAT_SIGNAL_DET.off) &&& 0x0030#16)
  let c := (c.laneEval l).heldClear l
  let c := if c.laneRetimed l then c.pairTo l 0 else (c.put (laneB l) XN_TRN_STAT_STATE 0).readyClear l
  let c := c.calAbort (8 + l.val)
  (c.modLane l fun x => { x with fgCal := false }).laneShow l
/-- The lane starts: its settings are applied and checked (R230, R231). -/
def Chip.laneStart (c : Chip) (l : Lane) : Chip :=
  let b := laneB l
  let r := c.get b XN_CTL_RATE
  let c := if r = c.lanes[l].rate then c else c.heldClear l
  let c := c.modLane l fun x => { x with
    rate := r, train := c.on b XN_CTL_TRAIN, fec528 := c.on b XN_CTL_FEC528, polTx := c.on b XN_CTL_POL_TX, polRx := c.on b XN_CTL_POL_RX }
  let bad := c.rateBad l
  let c := c.modLane l fun x => { x with cfgErr := bad }
  let c := if bad then c.evt b XN_EVT_CFG_ERR else c
  let c := if c.laneRetimed l then c.pairTo l 0 else c.put b XN_TRN_STAT_STATE (if bad || c.laneUnused l then 0 else 2)
  c.laneShow l

/-- The host mode changes to m: queues without a data path are discarded, and what the group held goes with them (R26, R269,
R280; log entry 53). -/
def Chip.hostModeApply (c : Chip) (m : Nat) : Chip :=
  let c := (c.put HGRP HGRP_MODE_ACTIVE m).put HGRP HGRP_MODE_PENDING 0
  let held := c.hgrp.heldRx
  let c := c.each allPorts fun c p => c.countDiscards (qOf 1 p 0) 0 ((held.getD p.val []).map (·.frame))
  let cuts := c.quire.outs.toList.filterMap (·.cut)
  let c := c.countDiscards (qOf 0 0 0) 0 (cuts.map (·.1))
  let c := c.modHgrp fun _ => {}
  let c := c.setReg (HGRP + HGRP_BOND_STAT_SHED.off) 0
  let c := c.modQuire fun x => { x with outs := Vector.replicate 9 {} }
  let c := c.each hostLanes fun c l => c.modLane l fun x => { x with replay := [], ctlq := [] }
  let c := c.each allPorts fun c p => if c.carries p then c else Chip.flushPort 0 1 (Chip.flushPort 0 0 c p) p
  (c.poolChanged.qSettle).srcCheck
/-- HGRP_MODE has been written (R26). -/
def Chip.modeWritten (c : Chip) : Chip :=
  let m := c.get HGRP HGRP_MODE_MODE
  if m = c.hostMode then c.put HGRP HGRP_MODE_PENDING 0
  else if c.lanesOff then c.hostModeApply m
  else c.put HGRP HGRP_MODE_PENDING 1
/-- A pending mode takes effect once the last lane is disabled (R26). -/
def Chip.pendingMode (c : Chip) : Chip :=
  if c.on HGRP HGRP_MODE_PENDING ∧ c.lanesOff then (c.hostModeApply (c.get HGRP HGRP_MODE_MODE)).evt HGRP HGRP_EVT_MODE_APPLIED else c

/-- Xn_CTL has been written; `old` is what it held (R230, R236). -/
def Chip.laneCtlWritten (c : Chip) (l : Lane) (old : BitVec 16) : Chip :=
  let was := old.getLsbD 0
  let c := if !was && c.laneOn l then c.laneStart l else if was && !c.laneOn l then (c.laneStop l).pendingMode else c
  (c.laneEval l).rateCheck l

/-- A lane in the state that its block soft reset gives, ENABLE kept (R264, R447). -/
def Chip.laneClear (c : Chip) (l : Lane) : Chip :=
  let on := c.laneOn l
  let c := (c.put (laneB l) XN_CTL_ENABLE 0).laneStop l
  let c := (c.putB (laneB l) XN_CTL_ENABLE on).resetRegs (fun a => blkOf a == 0x20 + l.val) KB
  let c := c.modLane l fun _ => {}
  (c.modOut (if l.val < 8 then Fin.ofNat 9 l.val else 8) fun o => if l.val < 8 then {} else o).laneShow l
/-- An enabled, clocked lane starts as at its enable (R230). -/
def Chip.laneGo (c : Chip) (l : Lane) : Chip :=
  if c.laneOn l && c.laneClk l then ((c.laneStart l).laneEval l).rateCheck l else c.laneShow l
/-- Xn_CTL.SRST (R230, R264). -/
def Chip.laneReset (c : Chip) (l : Lane) : Chip := (c.laneClear l).laneGo l

/-- Shows READY_SENT of both segments of a pair (R254). -/
def Chip.readySent (c : Chip) (l : Lane) : Chip :=
  let m := pairLane l
  let f := fun (a b : Lane) => c.on (laneB a) XN_TRN_STAT_LOCAL_READY && c.on (laneB b) XN_TRN_STAT_LOCAL_READY && c.on (laneB b) XN_TRN_STAT_REMOTE_READY
  (c.putB (laneB l) XN_TRN_STAT_READY_SENT (f l m)).putB (laneB m) XN_TRN_STAT_READY_SENT (f m l)

/-- A wrong bit counted by a locked checker (R262). -/
def Chip.patErr (c : Chip) (l : Lane) (n : Nat) : Chip :=
  let a := laneB l + XN_PAT_ERR_COUNT.off
  let v := c.wide a 3 + n
  let c := c.putWide a 3 (v % 2 ^ 48)
  if v < 2 ^ 48 then c else c.evt (laneB l) XN_PAT_STAT_ERR_WRAP
/-- An inverted bit leaves the generator; under near-end loopback the lane's own locked checker compares it (R263). -/
def Chip.patInject (c : Chip) (l : Lane) : Chip :=
  let b := laneB l
  if c.on b XN_PAT_CTL_GEN_EN then
    let c := c.modLane l fun x => { x with injected := x.injected + 1 }
    if c.on b XN_PAT_CTL_CHK_EN ∧ c.on b XN_PAT_STAT_LOCK ∧ c.get b XN_CTL_LPBK = 1 then c.patErr l 1 else c
  else c
/-- A locked checker counts the bits it compares (R262). -/
def Chip.patTick (n : Nat) (c : Chip) (l : Lane) : Chip :=
  let b := laneB l
  if c.on b XN_PAT_CTL_CHK_EN ∧ c.on b XN_PAT_STAT_LOCK then
    let t := c.lanes[l].patAcc + n * (match c.lanes[l].rate with | 0 => 340 | 1 => 165 | _ => 66)
    let c := c.modLane l fun x => { x with patAcc := t % 8 }
    let v := c.wide (b + XN_PAT_BITS_COUNT.off) 3 + t / 8
    let c := c.putWide (b + XN_PAT_BITS_COUNT.off) 3 (v % 2 ^ 48)
    if v < 2 ^ 48 then c else c.evt b XN_PAT_STAT_BITS_WRAP
  else c

/-- Xn_PAT_CTL has been written: the generator faults the lane, and a checker turned off loses its lock (R236, R261). -/
def Chip.patCtlWritten (c : Chip) (l : Lane) : Chip :=
  let c := if c.on (laneB l) XN_PAT_CTL_CHK_EN then c else c.put (laneB l) XN_PAT_STAT_LOCK 0
  c.laneEval l

/-- What Xn_RX_TAP_DATA reads (R234). -/
def Chip.laneTapValue (c : Chip) (l : Lane) : Nat :=
  unsigned 16 (Sparse.get c.lanes[l].taps (c.get (laneB l) XN_RX_TAP_SEL_GROUP * 16 + c.get (laneB l) XN_RX_TAP_SEL_INDEX))
/-- AUTOINC after an access to Xn_RX_TAP_DATA (R264). -/
def Chip.laneTapNext (c : Chip) (l : Lane) : Chip :=
  let b := laneB l
  let g := c.get b XN_RX_TAP_SEL_GROUP
  let i := c.get b XN_RX_TAP_SEL_INDEX
  if c.on b XN_RX_TAP_SEL_AUTOINC then c.put b XN_RX_TAP_SEL_INDEX (if laneTapOk g (i + 1) then i + 1 else 0) else c
/-- A write to Xn_RX_TAP_DATA (R234). -/
def Chip.laneTapWrite (c : Chip) (l : Lane) (v : Nat) : Chip :=
  let g := c.get (laneB l) XN_RX_TAP_SEL_GROUP
  let i := c.get (laneB l) XN_RX_TAP_SEL_INDEX
  let v := laneTapClip g (if g ≤ 1 then ((v % 2 ^ 16 : Nat) : Int) else signed 16 v)
  (c.modLane l fun x => { x with taps := Sparse.set x.taps (g * 16 + i) v }).laneTapNext l

/-- Xn_TRN_CTL.RESTART (R264). -/
def Chip.trnRestarted (c : Chip) (l : Lane) : Chip :=
  let c := c.put (laneB l) XN_TRN_CTL_RESTART 0
  if c.laneRetimed l then (if c.pairReady l then c.pairTo l 5 else c)
  else if c.laneOn l && c.laneData l && !c.lanes[l].cfgErr then
    ((((c.modLane l fun x => { x with rxLost := true }).laneEval l).put (laneB l) XN_TRN_STAT_STATE 2).readyClear l).laneShow l
  else c

end Sys2Proof.Machine
end

