-- ==== Sys2Proof/Machine/Lanes.lean ====
section
/-! DEFINITION. The meanings of the lanes' events (07_host_lanes_and_retimer.md): faults, live lanes and replay, the
retimer pairs, patterns. -/

namespace Sys2Proof.Machine

/-- The lane runs: enabled with good settings, its clock on, in Run (R230, R231, 13_power_and_reset.md R422). -/
def Chip.laneRuns (c : Chip) (l : Lane) : Bool := c.laneOn l && !c.lanes[l].cfgErr && c.laneClk l
/-- The lane's data mode and rate run an FEC (R229). -/
def Chip.laneFec (c : Chip) (l : Lane) : Bool :=
  c.laneData l && (c.lanes[l].rate == 0 || (c.lanes[l].rate == 1 && c.lanes[l].fec528))

/-- The receiver shows its signal, its locks and remote fault; a lock that the rate and mode use, or the signal, is lost or
not (R236, R259, R264). -/
def Chip.laneRx (c : Chip) (l : Lane) (sig cdr blk fec rf : Bool) : Chip :=
  let b := laneB l
  let blk := blk && c.laneData l
  let fec := fec && c.laneFec l
  let c := ((c.putB b XN_STAT_SIGNAL_DET sig).putB b XN_STAT_CDR_LOCK cdr).putB b XN_STAT_BLOCK_LOCK blk
  let c := (c.putB b XN_STAT_FEC_ALIGN fec).putB b XN_STAT_RF_RX (rf && c.laneData l)
  let lost := !sig || !cdr || (c.laneData l && !blk) || (c.laneFec l && !fec)
  c.modLane l fun x => { x with rxLost := lost, rf := rf }

/-- LANE_FAULT (R236, R240, R245, R255 to R257): a loss has lasted 1 µs, or remote fault is received. The receiver's signal,
CDR lock, block lock, FEC alignment and remote fault as they are now. -/
def execLaneFault (l : Lane) (sig cdr blk fec rf : Bool) (s : State) : Res :=
  s.act fun c =>
    if c.laneRuns l then
      let d := c.laneRx l sig cdr blk fec rf
      if d.lanes[l].rxLost || (rf && c.laneData l) then (d.pairRx l).laneEval l else c
    else c

/-- LANE_FAULT_CLEAR (R236, R239, R248): the receiver has every lock and no remote fault, with the values it adapted to; `desk`:
the Clause 119 PCS has deskewed the eight lanes with it. A data lane that trained has completed its training (log entry 56). -/
def execLaneFaultClear (l : Lane) (v : List (Nat × Nat × Int)) (desk : Bool) (s : State) : Res :=
  s.act fun c =>
    if c.laneRuns l && c.trnState l != 5 then
      let trained := c.laneData l && c.lanes[l].train && c.lanes[l].rxLost
      let c := (c.laneRx l true true true true false).laneFit l v
      let c := if trained then c.evt (laneB l) XN_EVT_TRAIN_DONE else c
      let all := desk && c.hostMode == 1 && hostLanes.all fun h => c.laneRuns h && !c.lanes[h].rxLost
      let c := if all then c.modHgrp fun h => { h with deskewed := true } else c
      (c.pairRx l).laneEval l
    else c

/-- LANE_LIVE (R243, R248, R249, 08_quire_buffer.md R296): the lane has been up for REJOIN ms. -/
def execLaneLive (l : Lane) (s : State) : Res :=
  s.act fun c =>
    let b := laneB l
    if c.hostMode = 2 ∧ c.laneData l ∧ c.laneUp l ∧ c.on b XN_STAT_LIVE = false ∧ c.quire.idleHold = false then
      let first := hostLanes.all fun h => !c.on (laneB h) XN_STAT_LIVE
      let back := c.bit HGRP HGRP_BOND_STAT_SHED l.val
      let c := c.put b XN_STAT_LIVE 1
      let c := if back then (c.putBit HGRP HGRP_BOND_STAT_SHED l.val false).evt b XN_EVT_REJOIN else c
      if first then c.creditRestart else c
    else c

/-- REPLAY_RELEASE (R246): REPLAY µs have passed since the last bit of the oldest frame still kept for lane l. -/
def execReplayRelease (l : Lane) (s : State) : Res :=
  s.act fun c => c.modLane l fun x => { x with replay := x.replay.drop 1 }

/-- RETIMER_SIGNAL_DETECT (R253): signal appears on the receiver of lane l while its pair stands in IDLE. -/
def execRetimerSignalDetect (l : Lane) (s : State) : Res :=
  s.act fun c =>
    if c.pairReady l ∧ c.laneRuns l ∧ c.trnState l = 0 then
      (c.put (laneB l) XN_STAT_SIGNAL_DET 1).pairTo l (if c.lanes[l].train then 1 else 3)
    else c

/-- RETIMER_PAGES_RX (R252, R253): a Clause 73 page arrives on lane l and leaves unchanged on the opposite transmitter. -/
def execRetimerPagesRx (l : Lane) (page : BitVec 48) (s : State) : Res :=
  s.act fun c =>
    let n := c.trnState l
    if c.pairReady l ∧ c.laneRuns l ∧ c.lanes[l].train ∧ n ≠ 2 ∧ n ≠ 5 then
      let c := c.put (laneB l) XN_STAT_SIGNAL_DET 1
      let c := if n = 1 then c else c.pairTo l 1
      c.modLane (pairLane l) fun x => { x with page := page.toNat }
    else c

/-- RETIMER_TRAINING_FRAMES_RX (R253, R255): training frames arrive on lane l. -/
def execRetimerTrainingFramesRx (l : Lane) (s : State) : Res :=
  s.act fun c =>
    let n := c.trnState l
    if c.pairReady l ∧ c.laneRuns l ∧ c.lanes[l].train ∧ (n = 1 ∨ n = 3 ∨ n = 4) then
      ((c.trainBegin l).trainBegin (pairLane l)).pairTo l 2
    else c

/-- RETIMER_NO_SIGNAL (R253): no signal on either receiver of pair n for 1 ms in AN_RELAY. -/
def execRetimerNoSignal (n : Port) (s : State) : Res :=
  s.act fun c =>
    let l := hLane n
    if c.laneRetimed l ∧ c.trnState l = 1 then
      ((c.put (laneB l) XN_STAT_SIGNAL_DET 0).put (laneB (pairLane l)) XN_STAT_SIGNAL_DET 0).pairTo l 0
    else c

/-- RETIMER_RX_TRAINED (R235, R254): in TRAIN the receiver of lane l is trained, with the values it and the segment's
transmitter came to, or (`remote`) the segment's partner reports receiver ready. A trained receiver is locked. -/
def execRetimerRxTrained (l : Lane) (remote : Bool) (v : List (Nat × Nat × Int)) (s : State) : Res :=
  s.act fun c =>
    if c.laneRetimed l ∧ c.laneRuns l ∧ c.trnState l = 2 then
      if remote then (c.put (laneB l) XN_TRN_STAT_REMOTE_READY 1).readySent l
      else
        let c := ((c.put (laneB l) XN_TRN_STAT_LOCAL_READY 1).laneRx l true true false false false).laneFit l v
        (c.readySent l).laneEval l
    else c

/-- RETIMER_TRAIN_DONE (R253, R254): both segments have reported ready and leave training. -/
def execRetimerTrainDone (l : Lane) (s : State) : Res :=
  s.act fun c =>
    let m := pairLane l
    if c.laneRetimed l ∧ c.trnState l = 2 ∧ c.on (laneB l) XN_TRN_STAT_READY_SENT ∧ c.on (laneB m) XN_TRN_STAT_READY_SENT then
      ((c.evt (laneB l) XN_EVT_TRAIN_DONE).evt (laneB m) XN_EVT_TRAIN_DONE).pairTo l 3
    else c

/-- RETIMER_TRAIN_FAIL (R253): a segment fails training and the pair enters FAIL; a data lane that trains does likewise (log
entry 57). -/
def execRetimerTrainFail (l : Lane) (s : State) : Res :=
  s.act fun c =>
    if c.trnState l = 2 then
      if c.laneRetimed l then
        ((c.evt (laneB l) XN_EVT_TRAIN_FAIL).evt (laneB (pairLane l)) XN_EVT_TRAIN_FAIL).pairTo l 5
      else if c.laneData l ∧ c.lanes[l].train ∧ c.laneUp l = false then
        (((c.evt (laneB l) XN_EVT_TRAIN_FAIL).put (laneB l) XN_TRN_STAT_STATE 5).readyClear l).laneShow l
      else c
    else c

/-- RETIMER_FAIL_TIMEOUT (R253): 10 ms in FAIL have passed; a data lane trains again (log entry 57). -/
def execRetimerFailTimeout (l : Lane) (s : State) : Res :=
  s.act fun c =>
    if c.trnState l = 5 then
      if c.laneRetimed l then c.pairTo l 0 else (c.put (laneB l) XN_TRN_STAT_STATE 2).laneShow l
    else c

/-- RETIMER_RX_RELOCK (R253, R256): the faulted receiver of lane l locks to data again. -/
def execRetimerRxRelock (l : Lane) (s : State) : Res :=
  s.act fun c =>
    if c.laneRetimed l ∧ c.laneRuns l ∧ (c.trnState l = 3 ∨ c.trnState l = 4) then
      ((c.laneRx l true true false false false).pairRx l).laneEval l
    else c

/-- PAT_CHECKER_LOCK (R262): 64 error-free bits in a row. -/
def execPatCheckerLock (l : Lane) (s : State) : Res :=
  s.act fun c => if c.on (laneB l) XN_PAT_CTL_CHK_EN ∧ c.pwr.mode = 0 then c.put (laneB l) XN_PAT_STAT_LOCK 1 else c

/-- PAT_CHECKER_UNLOCK (R262): `n` of the last 1,024 compared bits were wrong; each counts, and 64 or more end the lock. -/
def execPatCheckerUnlock (l : Lane) (n : Fin 1025) (s : State) : Res :=
  s.act fun c =>
    let b := laneB l
    if c.on b XN_PAT_CTL_CHK_EN ∧ c.on b XN_PAT_STAT_LOCK then
      let c := c.patErr l n.val
      if 64 ≤ n.val then (c.put b XN_PAT_STAT_LOCK 0).evt b XN_EVT_PAT_UNLOCK else c
    else c

/-- PAT_PERIODIC_INJECT (R263): the generator has sent 2^(EXP + 10) bits with PERIODIC set. -/
def execPatPeriodicInject (l : Lane) (s : State) : Res :=
  s.act fun c => if c.on (laneB l) XN_PAT_INJ_PERIODIC then c.patInject l else c

end Sys2Proof.Machine
end

