-- ==== Sys2Proof/Machine/Lines.lean ====
section
/-! DEFINITION. The meanings of frames and credit (01_architecture.md R28 to R34, 07_host_lanes_and_retimer.md R237 to R250,
08_quire_buffer.md): frames from the pairs and from the host, service of the outputs, credit ordered sets, scrubbing. -/

namespace Sys2Proof.Machine

/-- A PTP frame of the own domain on PTP port i, by its type (R208 to R212). -/
def Chip.ptpTake (c : Chip) (i : Fin 16) (b : Bytes) (t : Nat) : Chip :=
  let n := ptpType b
  let tlv := b.drop 58
  if n = 0xC ∧ i.val < 8 ∧ beAt tlv 0 2 = 3 ∧ beAt tlv 4 3 = 0x4AC948 ∧ beAt tlv 7 3 = 1 then c.rttRx (ptpPort i) b
  else
    let c := c.ptpCount i
    match n with
    | 0 => c.syncRx i b t
    | 8 => c.followRx i b t
    | 0xB => c.announceRx i b
    | 2 => c.pdelayRx i b t
    | 3 => c.pdelayRx i b t
    | 0xA => c.pdelayRx i b t
    | _ => c
/-- Folio consumes the frame (R209); on a port without a data path it is handed event frames alone (R28; log entry 114). -/
def Chip.ptpTakes (c : Chip) (i : Fin 16) (b : Bytes) : Bool :=
  c.folioOn && c.ptpOwn b && c.ptpEn i && (decide (8 ≤ i.val) || c.carries (ptpPort i) || decide (ptpType b < 4))

/-- A whole frame has arrived from pair p, its message timestamp point `frac` after the last tick: checks of R78, which a frame with
an error block fails (03_octavo.md R90), MAC control (R77), Folio (R209), ports without a data path (R28), and the commit with its ingress time (R31, R203, R267). -/
def Chip.lineRx (c : Chip) (p : Port) (b : Bytes) (frac : Nat) (bad : Bool) : Chip :=
  if c.get (lpB p) MAC_MAXLEN_MAXLEN < b.length then c.bumpLp p 5 1
  else if fcsOk b = false ∨ bad then c.bumpLp p 4 1
  else if beAt b 12 2 = 0x8808 then
    (if beAt b 14 2 = 0x0101 then c.pfcRx p b else if beAt b 14 2 = 1 then c.bumpLp p 10 1
     else if c.carries p then c else c.bumpLp p 6 1)
  else if c.ptpTakes (ptpOf p) b then c.ptpTake (ptpOf p) b (c.now + frac)
  else if c.carries p = false then c.bumpLp p 6 1
  else if c.quireOn then
    let r := c.qCommit (qOf 0 p (frameClass b)) { bytes := b, time := c.now + frac - c.lat p 0 }
    if r.2 then (r.1.bumpLp p 0 1).bumpLp p 1 b.length else r.1
  else c
/-- PMA_CTL.LPBK of a port (02_line_port.md R79; log entry 111): 1 and 2 bring back what the port sends, 3 sends on to the
partner what it receives. -/
def Chip.lineLoop (c : Chip) (p : Port) : Nat := c.get (lpB p) PMA_CTL_LPBK
/-- LINE_RX_FRAME (R267): the frame's bytes from its destination address to its check sequence; `cws` of the last codewords of an
Octavo link carried it, and one that was uncorrectable left error blocks in it (03_octavo.md R90). -/
def execLineRxFrame (p : Port) (b : Bytes) (frac cws : Nat) (s : State) : Res :=
  s.act fun c =>
    if c.linkFlows p = false ∨ c.lineLoop p = 1 ∨ c.lineLoop p = 2 then c
    else
      let c := if c.lineLoop p = 3 then c.modLink p fun k => { k with wire := b, errored := false } else c
      c.lineRx p b frac (c.lState p == 6 && ((c.port p).oct.cwBad.take cws).any id)

/-- Queues a checked frame of the host for line port p against the credit advertised (R292, R294, R299). -/
def Chip.hostCommit (c : Chip) (p : Port) (f : QFrame) : Chip :=
  let q := qOf 1 p (frameClass f.bytes)
  let s := c.quire.queues[q]
  let k := cost f.bytes.length
  let c := c.modQ q fun x => { x with hostCharge := mod32 (x.hostCharge + k) }
  if mayStart s.limit s.hostCharge k then (c.commitToLine p f).1
  else
    let c := (c.bumpQ 7 1).evt QUIRE QUIRE_EVT_CRD_VIOL
    let r := c.commitToLine p f
    if r.2 || c.flushes p then r.1 else ((c.modQ q fun x => { x with count := mod32 (x.count + k) }).pmcEvt 1 5 1).limits

/-- Puts a held frame in the order of its distance from the expected number E (R250). -/
def heldInsert (e : Nat) (x : HeldRx) : List HeldRx → List HeldRx
  | [] => [x]
  | y :: t => if (x.seq + 65536 - e) % 65536 < (y.seq + 65536 - e) % 65536 then x :: y :: t else y :: heldInsert e x t
/-- Splits held frames, in order, at the next missing number: the new E, the frames that follow in order, the number of copies
E has passed, and the rest (R250). -/
def heldRun (e : Nat) : List HeldRx → Nat × List HeldRx × Nat × List HeldRx
  | [] => (e, [], 0, [])
  | x :: t =>
    if x.seq = e then
      let r := heldRun ((e + 1) % 65536) t
      (r.1, x :: r.2.1, r.2.2.1, r.2.2.2)
    else if 32768 ≤ (x.seq + 65536 - e) % 65536 then
      let r := heldRun e t
      (r.1, r.2.1, r.2.2.1 + 1, r.2.2.2)
    else (e, [], 0, x :: t)
/-- E is e now; what follows in order among the held frames is queued (R250). -/
def Chip.heldGo (c : Chip) (p : Port) (e : Nat) (l : List HeldRx) : Chip :=
  let r := heldRun e l
  let c := c.modHgrp fun h => { h with expect := h.expect.set p.val (some r.1), heldRx := h.heldRx.set p.val r.2.2.2 }
  let c := if r.2.2.1 = 0 then c else c.bumpHgrp 2 r.2.2.1
  c.each r.2.1 fun c x => c.hostCommit p x.frame
/-- A checked frame for port p with number n in BONDED mode (R250). -/
def Chip.reorder (c : Chip) (p : Port) (n : Nat) (f : QFrame) : Chip :=
  let l := c.hgrp.heldRx.getD p.val []
  match c.hgrp.expect.getD p.val none with
  | none => (c.hostCommit p f).heldGo p ((n + 1) % 65536) l
  | some e =>
    let d := (n + 65536 - e) % 65536
    if d = 0 then (c.hostCommit p f).heldGo p ((e + 1) % 65536) l
    else if d ≤ 1023 then c.modHgrp fun h => { h with heldRx := h.heldRx.set p.val (heldInsert e { seq := n, frame := f, cls := (frameClass f.bytes).val } l) }
    else if 32768 ≤ d then c.bumpHgrp 2 1
    else
      let c := (c.bumpHgrp 4 1).evt HGRP HGRP_EVT_SEQ_RESYNC
      let c := c.each l fun c x => c.hostCommit p x.frame
      let c := c.modHgrp fun h => { h with expect := h.expect.set p.val (some ((n + 1) % 65536)), heldRx := h.heldRx.set p.val [] }
      c.hostCommit p f

/-- REORDER_TIMEOUT (R250): the oldest frame held for port p has waited REORDER_TO µs. -/
def execReorderTimeout (p : Port) (s : State) : Res :=
  s.act fun c =>
    match c.hgrp.heldRx.getD p.val [] with
    | [] => c
    | x :: t => ((c.bumpHgrp 3 1).evt HGRP HGRP_EVT_SEQ_GAP).heldGo p x.seq (x :: t)

/-- A PFC frame from the host on Hn (R77, R238). -/
def Chip.lanePfc (c : Chip) (n : Port) (b : Bytes) : Chip :=
  let l := hLane n
  let named := beAt b 16 2 % 256 &&& c.get (lpB n) PFC_CTL_RX_EN
  if named = 0 then c
  else
    (c.bumpLane l 12 1).each (List.range 8) fun c k =>
      if named.testBit k then
        let t := beAt b (18 + 2 * k) 2
        c.modLane l fun x => { x with
          paused := if t = 0 then x.paused &&& (0xFF - 2 ^ k) else x.paused ||| 2 ^ k
          pauseQuanta := x.pauseQuanta.set k t }
      else c
/-- Counts a frame taken from the host on its lane (R500; log entry 58). -/
def Chip.laneGot (c : Chip) (l : Lane) (n : Nat) : Chip := (c.bumpLane l 0 1).bumpLane l 1 n

/-- A frame from the host on Hn of a PAIRED port (R237, R238, R209). -/
def Chip.hostPaired (c : Chip) (n : Port) (b : Bytes) (frac : Nat) : Chip :=
  let l := hLane n
  let i : Fin 16 := Fin.ofNat 16 (8 + n.val)
  if c.get (lpB n) MAC_MAXLEN_MAXLEN < b.length then c.bumpLane l 5 1
  else if fcsOk b = false then c.bumpLane l 4 1
  else
    let c := c.laneGot l b.length
    if beAt b 12 2 = 0x8808 then (if beAt b 14 2 = 0x0101 then c.lanePfc n b else c)
    else if c.ptpTakes i b then c.ptpTake i b (c.now + frac)
    else if c.quireOn then (c.commitToLine n { bytes := b, time := c.now + frac }).1 else c
/-- A tagged frame from the host (R33, R34, R242): the truth value says whether a lane of its own counts it. -/
def Chip.hostTagged (c : Chip) (l : Lane) (lane : Bool) (b : Bytes) (frac : Nat) : Chip :=
  let port := beAt b 1 1
  let p : Port := Fin.ofNat 8 port
  if beAt b 0 1 ≠ 0xF2 ∨ port / 8 ≠ c.pos then (c.bumpHgrp 0 1).evt HGRP HGRP_EVT_TAG_ERR
  else if fcsOk b = false then
    let c := (c.bumpHgrp 0 1).evt HGRP HGRP_EVT_TAG_ERR
    if lane then c.bumpLane l 4 1 else c
  else if c.get (lpB p) MAC_MAXLEN_MAXLEN + 16 < b.length then
    let c := (c.bumpHgrp 1 1).evt HGRP HGRP_EVT_TAG_ERR
    if lane then c.bumpLane l 5 1 else c
  else
    let f : QFrame := { bytes := withFcs ((b.drop 16).take (b.length - 20)), time := c.now + frac }
    let c := if lane then c.laneGot l f.bytes.length else c
    if c.quireOn = false then c
    else if c.hostMode = 2 then c.reorder p (beAt b 2 2) f
    else c.hostCommit p f
/-- Xn_CTL.LPBK of a lane (07_host_lanes_and_retimer.md R264; log entry 111): 1 brings back what it sends, 2 sends back what it
receives. -/
def Chip.laneLoop (c : Chip) (l : Lane) : Nat := c.get (laneB l) XN_CTL_LPBK
/-- The loopback that all eight lanes of the gathered interface are set to, else none. -/
def Chip.gatherLoop (c : Chip) : Nat := if hostLanes.all fun h => c.laneLoop h == c.laneLoop 0 then c.laneLoop 0 else 0
/-- A frame has come through the receiver of a lane, or of the gathered interface (R34, R237, R242). -/
def Chip.hostRx (c : Chip) (l : Lane) (b : Bytes) (frac : Nat) : Chip :=
  if c.hostMode = 1 then (if c.on HGRP HGRP_STAT_GATHER_UP then c.hostTagged l false b frac else c)
  else if c.laneUp l = false ∨ c.laneData l = false then c
  else if c.hostMode = 2 then c.hostTagged l true b frac
  else if c.pairedPort (laneNo l) then c.hostPaired (laneNo l) b frac
  else c
/-- The transmitter of a retimed lane forwards what its pair receives: it is not idle and sends no pattern (R252, R255, R256,
R261). -/
def Chip.forwards (c : Chip) (l : Lane) : Bool :=
  (c.trnState l == 3 || c.trnState l == 4) && !c.laneIdle l && !c.on (laneB l) XN_PAT_CTL_GEN_EN
/-- A lane sends a frame on as it received it (R29, R252). -/
def Chip.laneSends (c : Chip) (l : Lane) (b : Bytes) : Chip := if c.forwards l then c.modLane l fun x => { x with wire := b } else c
/-- A frame arrives on a retimed lane and leaves unchanged on its pair's transmitter (R29, R252), by way of the loopbacks of
either lane. -/
def Chip.retime (c : Chip) (l : Lane) (b : Bytes) : Chip :=
  let m := pairLane l
  let c := if c.laneLoop l = 2 then c.laneSends l b else c
  if c.laneLoop l = 1 ∨ c.laneLoop m = 2 then c
  else if c.laneLoop m = 1 then (if c.forwards m ∧ c.laneLoop l ≠ 2 then c.laneSends l b else c)
  else c.laneSends m b
/-- The counters of a lane's decoder go on: those of its FEC where it runs one (16_counters.md R496, R500). -/
def Chip.laneDecoded (c : Chip) (l : Lane) (d : LaneDec) : Chip :=
  if c.laneData l && c.laneOn l && c.laneClk l then
    let c := if c.laneFec l then ((c.bumpLane l 6 d.cw).bumpLane l 7 d.sym).bumpLane l 8 d.unc else c
    c.bumpLane l 9 d.blk
  else c
/-- HOST_RX_FRAME (R29, R34, R237, R242, R250): a whole frame arrives on a lane, or on the gathered interface, its last bit `frac`
after the last tick. -/
def execHostRxFrame (l : Lane) (b : Bytes) (frac : Nat) (dec : LaneDec) (s : State) : Res :=
  s.act fun c =>
    if c.laneRetimed l then c.retime l b
    else
      let c := c.laneDecoded l dec
      let k := if c.hostMode = 1 then c.gatherLoop else c.laneLoop l
      if k = 1 then c
      else if k = 2 ∧ c.laneUp l then (c.modLane l fun x => { x with wire := b }).hostRx l b frac
      else c.hostRx l b frac

/-- Discards a queue's frames from place i on because their descriptor or pointer is lost, and starts the sweep (R276). -/
def Chip.linkBad (c : Chip) (q : Queue) (i : Nat) (pointers : Bool) (addr source : Nat) : Chip :=
  let s := c.quire.queues[q]
  let keep := s.frames.take i
  let t := s.release (cellsOf (storedBytes s.frames) - cellsOf (storedBytes keep))
  let c := (c.countDiscards q 3 (s.frames.drop i)).modQ q fun x => { x with
    frames := keep, rsv := t.rsv, shared := t.shared, hdrm := t.hdrm, cells := x.cells.take (cellsOf (storedBytes keep)) }
  let c := c.modQuire fun x => { x with unreached := x.unreached + (s.shared - t.shared) }
  ((c.put QUIRE QUIRE_STAT_REBUILD 1).eccUnc addr (if pointers then 2 else 1) source).qSettle

/-- What a traffic read does to a frame of queue q that is to leave (R271, R275, R276): the part after it, and whether the frame
starts (0 it does not, 1 it goes whole, 2 it is cut). `none`: the head frame; else one that Quire keeps to send again. -/
def Chip.readFrame (c : Chip) (q : Queue) (kept : Option QFrame) (r : WordRead) (started : Bool) : Chip × Nat :=
  match wordFound r with
  | .clean => (c, 1)
  | .corrected => (c.eccCorr, 1)
  | .bad =>
    if r.store = 0 then
      let c := c.eccUnc r.addr.toNat 0 0
      if started then (c.bumpQ 2 1, 2)
      else (match kept with | none => c.qSpoil q | some f => c.countDiscards q 1 [f], 0)
    else ((c.countDiscards q 3 kept.toList).linkBad q 0 (r.store == 2) r.addr.toNat 0, 0)

/-- The first class, from 7 down, that `ok` allows and whose queue holds a frame here at its head (R290, R303). -/
def Chip.pickClass (c : Chip) (dir : Fin 2) (p : Port) (ok : Queue → Bool) : Option Queue :=
  (portQueues dir p).find? fun q =>
    match c.quire.queues[q].frames with
    | f :: _ => f.spilled.isNone && ok q
    | [] => false
/-- The frame of the part's own that goes at a frame boundary: PFC frames at once, PTP frames as class 7 (R73, R211; log entry
115). -/
def ctlNext (paused7 : Bool) : List Ctl → Option (Ctl × List Ctl)
  | [] => none
  | x :: t => if x.isMac || !paused7 then some (x, t) else none

/-- A frame starts onto pair p, cut by an error block unless `whole`; under a loopback it comes back (02_line_port.md R79, R275). -/
def Chip.lineSends (c : Chip) (p : Port) (b : Bytes) (cls : Nat) (whole : Bool) (frac : Nat) : Chip :=
  let k := c.lineLoop p
  if k = 0 then c.modLink p fun x => { x with wire := b, wireCls := cls, errored := !whole }
  else if k = 3 ∨ whole = false then c
  else c.lineRx p b frac false

/-- Serves pair p (R73, R76, R211, R290). -/
def Chip.serveLine (c : Chip) (p : Port) (frac : Nat) (r : WordRead) (started : Bool) : Chip :=
  let t := c.now + frac
  if c.linkFlows p = false ∨ c.on (lpB p) PCS_STAT_TX_LPI then c
  else match ctlNext (c.bit (lpB p) PFC_STAT_RX_PAUSED 7) (c.port p).link.ctlq with
  | some (x, rest) =>
    let b := c.ctlBytes (ptpOf p) x t
    let c := c.modLink p fun k => { k with ctlq := rest }
    let c := ((c.ctlSent (ptpOf p) x t).bumpLp p 2 1).bumpLp p 3 b.length
    let c := if x.isMac then c.bumpLp p 7 1 else if ptpType b < 4 then c.bumpLp p 30 1 else c
    c.lineSends p b (if x.isMac then 0 else 7) true frac
  | none =>
    if c.quireOn = false then c
    else
      match c.pickClass 1 p fun q => !c.bit (lpB p) PFC_STAT_RX_PAUSED (qCls q).val with
      | none => c
      | some q =>
        let h := (c.quire.queues[q].frames).headD {}
        let x := c.readFrame q none r started
        if x.2 = 0 then x.1
        else
          let c := x.1.qTake q
          let c := if x.2 = 1 then (c.bumpLp p 2 1).bumpLp p 3 h.bytes.length else c
          c.lineSends p (wordSeen r h.bytes) (qCls q).val (x.2 == 1) frac

/-- A frame starts onto Hn of a PAIRED port, cut by an error block unless `whole`; under near-end loopback it comes back (R264,
R275). -/
def Chip.pairedSends (c : Chip) (n : Port) (b : Bytes) (whole : Bool) (frac : Nat) : Chip :=
  let k := c.laneLoop (hLane n)
  let c := if k = 2 then c else c.modOut (Fin.ofNat 9 n.val) fun o => { o with wire := b, errored := !whole }
  if k = 1 ∧ whole then c.hostPaired n b frac else c

/-- Serves Hn of a PAIRED port (R238, R290). -/
def Chip.servePaired (c : Chip) (n : Port) (frac : Nat) (r : WordRead) (started : Bool) : Chip :=
  let t := c.now + frac
  let l := hLane n
  let i : Fin 16 := Fin.ofNat 16 (8 + n.val)
  if c.pairedPort n = false ∨ c.laneUp l = false then c
  else match ctlNext (c.lanes[l].paused.testBit 7) c.lanes[l].ctlq with
  | some (x, rest) =>
    let b := c.ctlBytes i x t
    let c := c.modLane l fun k => { k with ctlq := rest }
    let c := ((c.ctlSent i x t).bumpLane l 2 1).bumpLane l 3 b.length
    (if x.isMac then c.bumpLane l 11 1 else c).pairedSends n b true frac
  | none =>
    if c.quireOn = false then c
    else
      match c.pickClass 0 n fun q => !(c.lanes[l].paused.testBit (qCls q).val) with
      | none => c
      | some q =>
        let h := (c.quire.queues[q].frames).headD {}
        let x := c.readFrame q none r started
        if x.2 = 0 then x.1
        else
          let c := x.1.qTake q
          let c := if x.2 = 1 then (c.bumpLane l 2 1).bumpLane l 3 h.bytes.length else c
          c.pairedSends n (wordSeen r h.bytes) (x.2 == 1) frac

/-- The credit of a stack-wide port's class covers a frame toward the host (R292, R296). -/
def Chip.creditOk (c : Chip) (q : Queue) (f : QFrame) : Bool :=
  c.quire.queues[q].limitSeen && mayStart c.quire.queues[q].limit c.quire.queues[q].count (cost f.bytes.length)
/-- Charges a frame toward the host (R292). -/
def Chip.charge (c : Chip) (q : Queue) (f : QFrame) : Chip :=
  c.modQ q fun x => { x with count := mod32 (x.count + cost f.bytes.length) }
/-- The live lane whose transmit queue empties first, the lowest on a tie (R244). -/
def Chip.bestLane (c : Chip) : Option Lane :=
  (hostLanes.filter fun l => c.on (laneB l) XN_STAT_LIVE).foldl (fun best l =>
    match best with
    | none => some l
    | some m => if c.lanes[l].txLeft < c.lanes[m].txLeft then some l else some m) none

/-- Starts a tagged frame, its bytes as read, on the output that its mode gives (R30, R244, R246): `whole` unless it is cut by
an error block. Under loopback it does not leave the balls, and under near-end loopback it comes back (R264). -/
def Chip.sendTagged (c : Chip) (x : QFrame × Nat × Nat) (seen : Bytes) (whole : Bool) (frac : Nat) : Chip :=
  let b := tagFrame x.2.1 x.2.2 { x.1 with bytes := seen }
  if c.hostMode = 1 then
    let k := c.gatherLoop
    let c := c.modOut 8 fun o => { o with
      cur := some x, wire := if k = 2 then o.wire else b, errored := !whole, left := b.length }
    if k = 1 ∧ whole then c.hostRx 0 b frac else c
  else match c.bestLane with
  | none => c
  | some l =>
    let k := c.laneLoop l
    let c := c.modOut (Fin.ofNat 9 l.val) fun o => { o with cur := some x, wire := if k = 2 then o.wire else b, errored := !whole }
    let c := c.modLane l fun y => { y with
      txLeft := y.txLeft + b.length + 20
      replay := if whole then y.replay ++ [x] else y.replay }
    let c := if whole then (c.bumpLane l 2 1).bumpLane l 3 x.1.bytes.length else c
    if k = 1 ∧ whole then c.hostRx l b frac else c

/-- The first frame waiting to be sent again that its port's order and, after a restart, the new credit allow (R246, R298). -/
def Chip.pickReplay (c : Chip) : List (QFrame × Nat × Nat) → List Nat → Option (QFrame × Nat × Nat)
  | [], _ => none
  | x :: t, seen =>
    if seen.contains x.2.1 then Chip.pickReplay c t seen
    else if c.hgrp.recharge.contains x.2 && !c.creditOk (qOf 0 (Fin.ofNat 8 x.2.1) (frameClass x.1.bytes)) x.1 then
      Chip.pickReplay c t (x.2.1 :: seen)
    else some x

/-- The queue that a numbered frame toward the host came from. -/
def keptQueue (x : QFrame × Nat × Nat) : Queue := qOf 0 (Fin.ofNat 8 x.2.1) (frameClass x.1.bytes)
/-- Sends a frame again that Quire has kept, as its words are read, charged where a restart asks for it (R275, R298). -/
def Chip.sendKept (c : Chip) (x : QFrame × Nat × Nat) (recharge : Bool) (r : WordRead) (started : Bool) (frac : Nat) : Chip :=
  let y := c.readFrame (keptQueue x) (some x.1) r started
  if y.2 = 0 then y.1
  else (if recharge then y.1.charge (keptQueue x) x.1 else y.1).sendTagged x (wordSeen r x.1.bytes) (y.2 == 1) frac
/-- The read keeps the frame from starting (R275, R276). -/
def wordSpoils (r : WordRead) (started : Bool) : Bool := wordFound r == .bad && (r.store != 0 || !started)
/-- Sends a frame again after its lane was shed (R246, R298, R500). -/
def Chip.sendReplay (c : Chip) (x : QFrame × Nat × Nat) (r : WordRead) (started : Bool) (frac : Nat) : Chip :=
  let again := c.hgrp.recharge.contains x.2
  let c := c.modHgrp fun h => { h with replayq := h.replayq.erase x, recharge := h.recharge.erase x.2 }
  let c := (if wordSpoils r started then c else c.bumpHgrp 5 1).putB HGRP HGRP_BOND_STAT_REPLAYING (!c.hgrp.replayq.isEmpty)
  c.sendKept x again r started frac

/-- The output that holds the round's deficits: one for the tagged interface (R290). -/
def Chip.drr (c : Chip) : OutSt := c.quire.outs[8]
/-- The class of port p that may go to the host now (R290): none while frames of the port wait to be sent again (R246). -/
def Chip.pickTagged (c : Chip) (p : Port) : Option Queue :=
  if c.hgrp.replayq.any fun x => x.2.1 == 8 * c.pos + p.val then none
  else c.pickClass 0 p fun q => match c.quire.queues[q].frames with | f :: _ => c.creditOk q f | [] => false
/-- Deficit round robin over the ports (R290): the round's state, and the queue that is served. -/
def Chip.drrStep (c : Chip) : Nat → OutSt → OutSt × Option Queue
  | 0, o => (o, none)
  | n + 1, o =>
    let p : Port := Fin.ofNat 8 o.ptr
    let next : OutSt := { o with ptr := (o.ptr + 1) % 8, given := false }
    match c.pickTagged p with
    | none => Chip.drrStep c n { next with deficits := o.deficits.set p.val 0 }
    | some q =>
      let len := ((c.quire.queues[q].frames).headD {}).bytes.length
      let d := o.deficits.getD p.val 0 + (if o.given then 0 else c.get (bk p.val QUIRE) QUIRE_P_WT_WT * 2048)
      if len ≤ d then ({ o with deficits := o.deficits.set p.val (d - len), given := true }, some q)
      else Chip.drrStep c n { next with deficits := o.deficits.set p.val d }

/-- Serves the tagged interface (R30, R32, R240, R244, R246, R249, R290, R292, R298, R300). -/
def Chip.serveTagged (c : Chip) (frac : Nat) (r : WordRead) (started : Bool) : Chip :=
  let up := if c.hostMode = 1 then c.on HGRP HGRP_STAT_GATHER_UP else c.bestLane.isSome
  if c.tagged = false ∨ up = false ∨ c.quireOn = false then c
  else match c.drr.cut with
  | some x =>
    if c.drr.recharge && !c.creditOk (keptQueue x) x.1 then c
    else (c.modOut 8 fun o => { o with cut := none, recharge := false }).sendKept x c.drr.recharge r started frac
  | none =>
    match c.pickReplay c.hgrp.replayq [] with
    | some x => c.sendReplay x r started frac
    | none =>
      let w := c.drrStep 128 c.drr
      let d := c.modOut 8 fun o => { o with deficits := w.1.deficits, ptr := w.1.ptr, given := w.1.given }
      match w.2 with
      | none => d
      | some q =>
        let h := (c.quire.queues[q].frames).headD {}
        let p := (qPort q).val
        let x := d.readFrame q none r started
        if x.2 = 0 then x.1
        else
          let n := x.1.quire.seqs.getD p 0
          let c := (x.1.charge q h).modQuire fun y => { y with seqs := y.seqs.set p ((n + 1) % 65536) }
          (c.qTake q).sendTagged (h, 8 * c.pos + p, n) (wordSeen r h.bytes) (x.2 == 1) frac

/-- QUEUE_SERVE (R290): an output is free: 0 to 7 the pairs, 8 to 15 Hn of PAIRED ports, 16 the tagged interface; what the
reads of the frame's words find, and whether its first byte has left by then. -/
def execQueueServe (o : Fin 17) (frac : Nat) (r : WordRead) (started : Bool) (s : State) : Res :=
  s.act fun c =>
    if o.val < 8 then c.serveLine (Fin.ofNat 8 o.val) frac r started
    else if o.val < 16 then c.servePaired (Fin.ofNat 8 o.val) frac r started
    else c.serveTagged frac r started

/-- CREDIT_SET_RX (R241, R291, R293): D1, LIMIT, CHECK and KIND of a set received on lane n, or in the gathered stream. -/
def execCreditSetRx (n : Port) (d1 : Byte) (limit : BitVec 32) (check : Byte) (kind : BitVec 4) (s : State) : Res :=
  s.act fun c =>
    let up := if c.hostMode = 1 then c.on HGRP HGRP_STAT_GATHER_UP else c.hostMode == 2 && c.laneUp (hLane n)
    if up then
      let c := c.bumpHgrp 7 1
      let port := d1.toNat % 32
      if crc8 (be 1 d1.toNat ++ be 4 limit.toNat) = check ∧ kind = 0 ∧ port / 8 = c.pos then
        c.modQ (qOf 0 (Fin.ofNat 8 port) (Fin.ofNat 8 (d1.toNat / 32))) fun x => { x with limit := limit.toNat, limitSeen := true }
      else c.bumpHgrp 8 1
    else c

/-- A credit ordered set from its block type on, for a class, a stack-wide port and a LIMIT (R291). -/
def creditSet (cls port lim : Nat) : Bytes :=
  let d := be 1 (cls * 32 + port) ++ be 4 lim
  be 1 0x4B ++ d.take 3 ++ be 4 (0xC0000000 + lim % 65536 * 4096 + (crc8 d).toNat * 16)
/-- CREDIT_SET_TX (R241, R291, R294, R295): the rotation's next set is due, or a LIMIT has risen by STEP. -/
def execCreditSetTx (rotation : Bool) (s : State) : Res :=
  s.act fun c =>
    let lanes := if c.hostMode = 1 then (c.on HGRP HGRP_STAT_GATHER_UP).toNat else if c.hostMode = 2 then hostLanes.countP fun l => c.laneUp l else 0
    if lanes = 0 then c
    else
      let risen := (allQueues.drop 64).find? fun q => decide (c.get QUIRE QUIRE_CRD_CTL_STEP ≤ sub32 c.quire.queues[q].limit c.quire.queues[q].lastSent)
      match if rotation then some (Fin.ofNat 128 (64 + c.quire.crdNext % 64)) else risen with
      | none => c
      | some q =>
        let lim := c.quire.queues[q].limit
        let c := (c.modQ q fun x => { x with lastSent := x.limit }).modQuire fun x => { x with
          crdTx := some ((qCls q).val, 8 * c.pos + (qPort q).val, lim)
          crdWire := creditSet (qCls q).val (8 * c.pos + (qPort q).val) lim
          crdNext := if rotation then (x.crdNext + 1) % 64 else x.crdNext }
        (c.bumpHgrp 9 lanes).pmcEvt 1 9 lanes

/-- The bank that the scrubber reads in from bank b on; none: b is past the last usable one, and the pass is over (R272). -/
def Chip.scrubBank (c : Chip) (b : Nat) : Option Nat := ((List.range 32).drop b).find? c.bankOk
/-- The word of a usable bank that the scrubber reads now, in the layout of QUIRE_ECC_ADDR (R272, R306). -/
def Chip.scrubWord (c : Chip) : Nat :=
  let b := c.quire.scrubAt / 131072
  if c.bankOk b then c.quire.scrubAt else (((c.scrubBank b).orElse fun _ => c.scrubBank 0).getD 0) * 131072
/-- The scrubber goes on to the word after `w`; past the last word of the last usable bank a pass is complete and the next one
starts (R272, R500). -/
def Chip.scrubOn (c : Chip) (w : Nat) : Chip :=
  let n := w + 1
  match if n % 131072 = 0 then c.scrubBank (n / 131072) else some (n / 131072) with
  | some b => c.modQuire fun x => { x with scrubAt := if n % 131072 = 0 then b * 131072 else n }
  | none => (c.modQuire fun x => { x with scrubAt := 0 }).bumpQ 10 1
/-- The scrubber finds an uncorrectable word of a cell at an address (R274). -/
def Chip.scrubBad (c : Chip) (addr : Nat) (at_ : ScrubAt) : Chip :=
  let c := c.eccUnc addr 0 1
  match at_ with
  | .free => c
  | .frame q i => ((c.modQ q fun x => { x with frames := x.frames.modify i fun f => { f with poisoned := true } }).qPurge q).qSettle
  | .lent i => c.modQuire fun x => { x with lent := x.lent.modify i fun f => { f with poisoned := true } }
/-- The scrubber finds an uncorrectable descriptor or cell pointer (R276). -/
def Chip.scrubBadLink (c : Chip) (r : WordRead) (at_ : ScrubAt) : Chip :=
  match at_ with
  | .frame q i => c.linkBad q i (r.store == 2) r.addr.toNat 1
  | .free => (c.put QUIRE QUIRE_STAT_REBUILD 1).eccUnc r.addr.toNat r.store.val 1
  | .lent i =>
    let x := c.quire.lent.getD i {}
    let gone := fun (y : Lent) => y.queue == x.queue && y.south == x.south
    let c := c.countDiscards 0 3 (((c.quire.lent.drop i).filter gone).map fun y => { bytes := y.bytes })
    let c := c.modQuire fun y => { y with lent := y.lent.take i ++ (y.lent.drop i).filter fun z => !gone z }
    (c.put QUIRE QUIRE_STAT_REBUILD 1).eccUnc r.addr.toNat r.store.val 1
/-- SCRUB_CYCLE (R271 to R274, R276, R277): the scrubber reads the next word of a usable bank, or a word of the descriptor or
pointer store; where it lies, and whether traffic writes the same word in the same cycle. -/
def execScrubCycle (r : WordRead) (at_ : ScrubAt) (traffic : Bool) (s : State) : Res :=
  s.act fun c =>
    if c.on QUIRE QUIRE_CTL_SCRUB_EN = false ∨ c.quireOn = false ∨ c.banks = 0 then c
    else
      let w := c.scrubWord
      let c := c.pmcEvt 1 7 1
      let c := if r.store = 0 then c.scrubOn w else c
      match wordFound r with
      | .clean => c
      | .corrected => if traffic then c else c.eccCorr
      | .bad => if r.store = 0 then c.scrubBad w at_ else c.scrubBadLink r at_

/-- REBUILD_DONE (R276): the sweep has returned every cell that no queue reaches. -/
def execRebuildDone (s : State) : Res :=
  s.act fun c =>
    if c.on QUIRE QUIRE_STAT_REBUILD then
      (((c.put QUIRE QUIRE_STAT_REBUILD 0).evt QUIRE QUIRE_EVT_REBUILD_DONE).modQuire fun x => { x with unreached := 0 }).qSettle
    else c

/-- The tagged interface goes down under a reset: every Hn_TX idles for 10 µs (R297). -/
def Chip.taggedIdle (c : Chip) : Chip :=
  if c.tagged then
    let c := c.modQuire fun x => { x with idleHold := true }
    let live := hostLanes.any fun l => c.on (laneB l) XN_STAT_LIVE
    let c := c.each hostLanes fun c l => (c.put (laneB l) XN_STAT_LIVE 0).laneShow l
    let c := if c.hostMode = 2 ∧ live then c.evt HGRP HGRP_EVT_ALL_SHED else c
    if c.on HGRP HGRP_STAT_GATHER_UP then c.gatherDown else c
  else c
/-- Quire's counts and its own state return to reset (R297, R306). -/
def Chip.quireClear (c : Chip) : Chip :=
  let c := c.quireLose
  let c := c.each allQueues fun c q => c.modQ q fun x => { spillSeq := x.spillSeq, spillSeqS := x.spillSeqS }
  let c := (c.resetRegs (fun a => blkOf a == 0x0A) KB).modQuire fun x => { x with crdNext := 0, crdTx := none, crdWire := [], scrubAt := 0 }
  (c.modFace .n fun x => { x with recalls := 0 }).modFace .s fun x => { x with recalls := 0 }
/-- QUIRE_CTL.SRST (R269, R297, R306). -/
def Chip.quireReset (c : Chip) : Chip := (c.quireClear.taggedIdle).poolChanged

/-- TAGGED_IDLE_HOLD_END (R297): 10 µs after the reset the lanes transmit again. -/
def execTaggedIdleHoldEnd (s : State) : Res :=
  s.act fun c =>
    if c.quire.idleHold then
      let c := (c.modQuire fun x => { x with idleHold := false }).each hostLanes Chip.laneShow
      c.gatherCheck
    else c

/-- Time passes on the lanes' transmit queues: 5 bytes each TPLL cycle (R244; log entry 59). -/
def Chip.laneTick (n : Nat) (c : Chip) (l : Lane) : Chip := if c.lanes[l].txLeft = 0 then c else c.modLane l fun x => { x with txLeft := x.txLeft - 5 * n }
/-- Time passes on the gathered interface: 40 bytes leave each TPLL cycle (R229, R300; log entry 59). -/
def Chip.gatherTick (n : Nat) (c : Chip) : Chip :=
  if c.quire.outs[8].left = 0 then c else c.modOut 8 fun o => { o with left := o.left - 40 * n }

end Sys2Proof.Machine
end

