-- ==== Sys2Proof/Machine/SpineOps.lean ====
section
/-! DEFINITION. The Spine's operations (09_spine_cascade.md): face states, control messages with their numbers and
acknowledgements, relaying, spill with the neighbour, time marks. -/

namespace Sys2Proof.Machine

/-- SPINE_STAT.ROLE: 0 head, 1 tail, 2 acting head, 3 deposed. -/
def Chip.role (c : Chip) : Nat := c.get SPINE SPINE_STAT_ROLE
/-- The other face. -/
def otherFace (f : Face) : Face := match f with | .n => .s | .s => .n
/-- STATE of a face (R313). -/
def Chip.fSt (c : Chip) (f : Face) : Nat := c.get (faceB f) SPF_STAT_STATE
/-- The face may run at this position and is enabled (R313, R334). -/
def Chip.faceMay (c : Chip) (f : Face) : Bool :=
  match f with
  | .n => c.pos != 0 && c.on SPINE SPINE_CTL_NORTH_EN
  | .s => c.pos != 3 && c.on SPINE SPINE_CTL_SOUTH_EN

/-- COUNT: devices at and south of this one (R327). -/
def Chip.spCount (c : Chip) : Nat := if c.fSt .s = 4 then 1 + c.spine.south.peerCount else 1
/-- The body of a HELLO (R326). -/
def Chip.helloBody (c : Chip) : Bytes :=
  (c.identBytes 0).take 7 ++ be 1 0xFF ++ be 1 c.pos ++ be 1 ((c.role == 2).toNat + 2 * (c.role == 3).toNat) ++ be 1 c.spCount

/-- The bytes of a /C/, from TYPE to its CRC-32 (R323). -/
def SpMsg.bytes (m : SpMsg) : Bytes :=
  let x := be 1 m.typ ++ be 1 m.seq ++ be 1 (m.src * 16 + m.dst) ++ be 1 m.body.length ++ m.body
  x ++ crcField x
/-- The message that the bytes of a /C/ spell (R323). -/
def spParse (b : Bytes) : SpMsg :=
  { typ := beAt b 0 1, seq := beAt b 1 1, src := beAt b 2 1 / 16, dst := beAt b 2 1 % 16, body := (b.drop 4).take (b.length - 8) }
/-- A received /C/ holds as many bytes as LEN says and its CRC-32 checks (R323). -/
def spOk (b : Bytes) : Bool :=
  decide (8 ≤ b.length ∧ beAt b 3 1 + 8 = b.length ∧ beAt b 3 1 ≤ 240) && crcField (b.take (b.length - 4)) == b.drop (b.length - 4)

/-- Starts the next waiting message of a face while none is outstanding (R324). -/
def Chip.spGo (c : Chip) (f : Face) : Chip :=
  match (c.face f).out, (c.face f).queue with
  | none, m :: t =>
    let n := (c.face f).seq
    let m := { m with seq := n }
    (c.modFace f fun x => { x with queue := t, out := some (m, 1), wire := m.bytes, seq := (n + 1) % 256 }).bumpFace f 3 1
  | _, _ => c
/-- Puts a message of this device's own on a face's queue. -/
def Chip.spPush (c : Chip) (f : Face) (m : SpMsg) : Chip := (c.modFace f fun x => { x with queue := x.queue ++ [m] }).spGo f
/-- A message that would leave through a face not in UP is dropped and counted (R325). -/
def Chip.spOut (c : Chip) (f : Face) (m : SpMsg) : Chip :=
  if c.fSt f = 4 then c.spPush f m else (c.bumpFace f 8 1).evt (faceB f) SPF_EVT_MSG_FAIL
/-- Sends a message of this device's own to a position, or to 15 for every device, through a face. -/
def Chip.spSend (c : Chip) (f : Face) (typ dst : Nat) (body : Bytes) : Chip :=
  c.spOut f { typ := typ, src := c.pos, dst := dst, body := body }
/-- The position beyond a face. -/
def Chip.beyond (c : Chip) (f : Face) : Nat := match f with | .n => c.pos - 1 | .s => c.pos + 1
/-- Sends HELLO (R327). -/
def Chip.spHello (c : Chip) (f : Face) : Chip :=
  (c.modFace f fun x => { x with sentCount := c.spCount }).spPush f { typ := 1, src := c.pos, dst := c.beyond f, body := c.helloBody }

/-- STACK_SIZE, and a new HELLO north when COUNT has changed (R327). -/
def Chip.countShow (c : Chip) : Chip :=
  let c := c.put SPINE SPINE_STAT_STACK_SIZE (if c.role = 0 ∨ c.role = 2 then c.spCount else 0)
  if c.fSt .n = 4 ∧ c.spine.north.sentCount ≠ c.spCount then c.spHello .n else c

/-- RECALL shows whether frames are asked back from a neighbour (R306). -/
def Chip.recallShow (c : Chip) : Chip :=
  c.putB QUIRE QUIRE_SPILL_STAT_RECALL (c.spine.north.recalls + c.spine.south.recalls != 0)
/-- The part of a queue's key in QuireSt.lentNext that names the face. -/
def faceKey (f : Face) : Nat := match f with | .n => 0 | .s => 65536
/-- The spilled frames beyond a lost face are gone, and the cells lent to it are free (R305; log entry 72). -/
def Chip.spillLost (c : Chip) (f : Face) : Chip :=
  let n := c.quire.queues.toList.foldl (fun n q => n + q.frames.countP fun x => x.at_ f) 0
  let lender := decide (0 < (c.face f).lend ∨ 0 < n)
  let c := c.each (allQueues.take 64) fun c q =>
    (c.modQ q fun x => { x.setSeq f 0 with frames := x.frames.filter fun y => !y.at_ f }).qPurge q
  let c := c.modQuire fun x => { x with
    lent := x.lent.filter fun y => y.south != (f == .s)
    lentNext := x.lentNext.filter fun y => decide (y.1 < 65536) != (f == .n) }
  let c := (c.modFace f fun x => { x with lend := 0, recalls := 0 }).recallShow
  let c := if f = c.spillFace ∧ c.quire.spill.isSome then c.spillStop else c
  if lender then (((c.bumpQ 13 n).pmcEvt 1 5 n).evt QUIRE QUIRE_EVT_SPILL_LOST).qSettle else c
/-- D is measured anew (R319). -/
def Chip.delayAnew (c : Chip) (f : Face) : Chip :=
  (c.modFace f fun x => { x with dHist := [] }).put (faceB f) SPF_STAT_DLY_VALID 0
/-- A face has left UP (R305, R319, R327): its STATE already shows it. -/
def Chip.faceLeft (c : Chip) (f : Face) : Chip :=
  let c := (c.delayAnew f).modFace f fun x => { x with queue := [], out := none, echoDue := none, fallback := none }
  (c.spillLost f).countShow

/-- Advertises the lent cells to the neighbour on FACE (R301). -/
def Chip.spLend (c : Chip) : Chip :=
  if c.fSt c.spillFace = 4 then c.spSend c.spillFace 3 (c.beyond c.spillFace) (be 2 (c.get QUIRE QUIRE_SPILL_LEND_VALUE)) else c

/-- A face goes to a state with what entry to it does (R313, R324; the lanes' fields are log entry 67). -/
def Chip.toFace (c : Chip) (f : Face) (n : Nat) : Chip :=
  let b := faceB f
  let old := c.fSt f
  let c := c.put b SPF_STAT_STATE n
  let c := if old = 4 ∧ n ≠ 4 then c.faceLeft f else c
  match n with
  | 0 => (((c.modFace f fun x => { x with clkTx := false }).put b SPF_STAT_TX_LANES 0).put b SPF_STAT_RX_LANES 0).put b SPF_STAT_CLK_OK 0
  | 3 =>
    let c := c.modFace f fun x => { x with seq := 0, lastRx := none, ackTx := none, queue := [], out := none, helloOk := false, helloAcked := false, lend := 0 }
    c.spHello f
  | 4 =>
    let c := (c.evt b SPF_EVT_UP).countShow
    if f = c.spillFace ∧ c.get QUIRE QUIRE_SPILL_LEND_VALUE ≠ 0 then c.spLend else c
  | _ => ((c.modFace f fun x => { x with clkTx := !x.stopped }).put b SPF_STAT_TX_LANES 3).put b SPF_STAT_RX_LANES 0
/-- HELLO is complete: the expected one received and the own one acknowledged (R313). -/
def Chip.helloDone (c : Chip) (f : Face) : Chip :=
  if c.fSt f = 3 ∧ (c.face f).helloOk ∧ (c.face f).helloAcked then c.toFace f 4 else c

/-- A face's enable has been written (R313, R334). -/
def Chip.faceEnabled (c : Chip) (f : Face) : Chip :=
  if c.faceMay f = false then (if c.fSt f = 0 then c else c.toFace f 0)
  else if c.fSt f = 0 ∧ c.spineOn then c.toFace f 1
  else c
/-- SPINE_CTL has been written. -/
def Chip.spineCtlWritten (c : Chip) : Chip := (c.faceEnabled .n).faceEnabled .s

/-- Position and role after the straps are sampled or the block is reset (R35, R334). -/
def Chip.spinePlace (c : Chip) : Chip :=
  let p := c.get GLB GLB_STRAP_POS
  let c := (c.put SPINE SPINE_STAT_POS p).put SPINE SPINE_STAT_ROLE (if p = 0 then 0 else 1)
  c.countShow
/-- SPINE_CTL.SRST (R334): the faces start again in CLK_WAIT with their clocks running. -/
def Chip.spineReset (c : Chip) : Chip :=
  let c := (c.toFace .n 0).toFace .s 0
  let c := (c.resetRegs (fun a => blkOf a == 0x0C) KB).modSpine fun _ => {}
  (c.spinePlace.faceEnabled .n).faceEnabled .s

/-- FN_CTL.RETRAIN (R313, R334; log entry 68). -/
def Chip.retrain (c : Chip) (f : Face) : Chip :=
  let c := c.put (faceB f) SPF_CTL_RETRAIN 0
  if 2 ≤ c.fSt f ∧ c.fSt f ≤ 4 then c.toFace f 2 else c

/-- Acknowledges a message of the neighbour on a face (R324; its destination is the neighbour, log entry 118). -/
def Chip.spAck (c : Chip) (f : Face) (seq : Nat) : Chip :=
  let m : SpMsg := { typ := 0, seq := seq, src := c.pos, dst := c.beyond f }
  (c.modFace f fun x => { x with ackTx := some seq, wire := m.bytes }).bumpFace f 3 1
/-- The face takes messages: the Spine is clocked and the face is in HELLO or UP. -/
def Chip.spHears (c : Chip) (f : Face) : Bool := c.spineOn && (c.fSt f == 3 || c.fSt f == 4)
/-- A /C/ has arrived whose row is that of TYPE `typ` (R323, R324): with a bad CRC it is counted, a good one is acknowledged
and acted on unless it repeats the last one acted on. A good message of another listed TYPE is another row's; one of an
unlisted TYPE is acknowledged and no more (log entry 118). -/
def Chip.spRx (c : Chip) (f : Face) (typ : Nat) (b : Bytes) (act : SpMsg → Chip → Chip) : Chip :=
  if c.spHears f = false then c
  else if spOk b = false then c.bumpFace f 5 1
  else
    let m := spParse b
    if m.typ ≠ typ ∧ m.typ ≤ 9 then c
    else
      let rep := (c.face f).lastRx == some m.seq
      let c := c.spAck f m.seq
      if rep then c.bumpFace f 7 1
      else
        let c := (c.modFace f fun x => { x with lastRx := some m.seq }).bumpFace f 4 1
        if m.typ = typ then act m c else c
/-- The message is for this device (R325). -/
def Chip.spMine (c : Chip) (dst : Nat) : Bool := dst == c.pos || dst == 15
/-- The face through which a message received on face f goes on to another device (R325): never the one it came by. -/
def Chip.spOnward (c : Chip) (f : Face) (dst : Nat) : Option Face :=
  let g := otherFace f
  if dst = 15 then (if c.faceMay g then some g else none)
  else if dst = c.pos then none
  else if (if dst < c.pos then Face.n else Face.s) = g then some g else none
/-- Relays a message received on face f toward its destination (R325). -/
def Chip.spRelay (c : Chip) (f : Face) (m : SpMsg) : Chip :=
  match c.spOnward f m.dst with
  | some g => c.spOut g m
  | none => c
/-- Relays a message and, addressed here, acts on it (R325); a deposed head does neither (R330). -/
def Chip.spDeliver (c : Chip) (f : Face) (act : SpMsg → Chip → Chip) (m : SpMsg) : Chip :=
  if c.role = 3 then c
  else
    let c := c.spRelay f m
    if c.spMine m.dst then act m c else c
/-- A promotion or restoration passes a face (R334). -/
def Chip.promotePass (c : Chip) (f : Face) : Chip := c.evt (faceB f) SPF_EVT_PROMOTE
/-- Sends PROMOTE to every device through a face, and shows that it passed there (R329, R330). -/
def Chip.spPromote (c : Chip) (f : Face) (p : Nat) : Chip :=
  let c := if c.fSt f = 4 then c.promotePass f else c
  c.spSend f 9 15 (be 1 p)
/-- The neighbours' clocks whose loss a STACK_RESET of kind 2 to `dst` announces (R315, R331). -/
def Chip.resetAnnounced (c : Chip) (dst : Nat) : Chip :=
  let c := if dst = 15 ∨ dst + 1 = c.pos then c.modFace .n fun x => { x with announced := true } else c
  if dst = 15 ∨ dst = c.pos + 1 then c.modFace .s fun x => { x with announced := true } else c

/-- A Spine constant of record 0x03, else nominal (R318). -/
def Chip.latSp (c : Chip) (tx : Bool) : Nat :=
  match c.nvm 3 with
  | some w => w.getD (if tx then 0 else 1) 0
  | none => if tx then 943718 else 1572864

/-- Flags of a time mark (R316, R322). -/
def Chip.markFlags (c : Chip) : Nat :=
  let tail := c.isTail
  (c.on FOLIO FOLIO_STAT_COARSE || (tail && c.on SPINE SPINE_STAT_UP_COARSE)).toNat +
    2 * (c.fState == 4 || (tail && c.on SPINE SPINE_STAT_UP_HOLD)).toNat + 4 * (c.role == 2).toNat + 8 * (c.fState == 0).toNat
/-- The 32 bytes of a time mark from its first 28 (R316). -/
def markBytes (b : Bytes) : Bytes := b ++ be 2 (crc16 b).toNat ++ be 2 0
/-- A time mark's check holds (R316, R317). -/
def markOk (b : Bytes) : Bool := b.length == 32 && crc16 (b.take 28) == BitVec.ofNat 16 (beAt b 28 2)
/-- D of a hop (R319): unsigned, held within 32 bits. -/
def Chip.hopD (c : Chip) (f : Face) : Nat := c.wide (faceB f + SPF_DLY_D.off) 2

/-- The tail's ALERT_N has changed since it was last sent to the head (R328; log entry 71). -/
def Chip.alertCheck (c : Chip) : Chip :=
  if c.isTail ∧ c.on SPINE SPINE_CTL_ALERT_FWD ∧ c.spineOn ∧ c.alertLow ≠ c.spine.alertSent then
    let a := c.alertLow
    (c.modSpine fun x => { x with alertSent := a }).spSend .n 8 0 (be 1 c.pos ++ be 1 a.toNat)
  else c

/-- The role changes to or from acting head: Folio goes on under its own SRC (R200, R329, R330). -/
def Chip.ownSource (c : Chip) : Chip :=
  if c.fState = 4 ∧ c.on FOLIO FOLIO_CTL_FORCE_HOLD = false ∧ c.get FOLIO FOLIO_CTL_SRC = 0 ∧ c.on FOLIO FOLIO_STAT_XB_LOST = false then c.toF 1 else c

/-- SPINE_CMD.STACK_RST (R331): the south neighbour's clock loss under kind 2 is announced. -/
def Chip.stackRst (c : Chip) : Chip :=
  let c := c.put SPINE SPINE_CMD_STACK_RST 0
  if c.role = 0 ∨ c.role = 2 then
    let k := c.get SPINE SPINE_CMD_RST_KIND
    let d := c.get SPINE SPINE_CMD_RST_DEST
    if d = 0 ∨ c.pos < d then
      let c := if k = 2 then c.resetAnnounced (if d = 0 then 15 else d) else c
      c.spSend .s 5 (if d = 0 then 15 else d) (be 1 k)
    else c
  else c
/-- SPINE_CMD.DEMOTE (R330). -/
def Chip.demoted (c : Chip) : Chip :=
  let c := c.put SPINE SPINE_CMD_DEMOTE 0
  if c.role = 2 then
    let c := ((c.put SPINE SPINE_STAT_ROLE 1).countShow).modSpine fun x => { x with acting := 0 }
    (c.spPromote .s 0).spPromote .n 0
  else c
/-- SPINE_CMD.WAKE_SOUTH (R332). -/
def Chip.wakeSouth (c : Chip) : Chip :=
  let c := c.put SPINE SPINE_CMD_WAKE_SOUTH 0
  c.modFace .s fun x => { x with stopped := false, clkTx := c.fSt .s != 0 }

/-- A frame lies with the neighbour on face g under a spill sequence number. -/
def QFrame.isAt (x : QFrame) (g : Face) (seq : Nat) : Bool := x.at_ g && x.spilled == some seq
/-- The frame of queue q that the neighbour holds under a number is lost (R333). -/
def Chip.spillDrop (c : Chip) (q : Queue) (g : Face) (seq : Nat) : Chip :=
  (c.modQ q fun x => { x with frames := x.frames.filter fun y => !y.isAt g seq }).qPurge q
/-- A frame comes back from the neighbour on face g into queue q (R303): it takes cells here as an arriving one does, and
without space it is discarded (R278, R284, R287). -/
def Chip.spillBack (c : Chip) (g : Face) (q : Queue) (seq : Nat) (b : Bytes) (time : Nat) : Chip :=
  let s := c.quire.queues[q]
  match s.frames.find? fun x => x.isAt g seq with
  | none => c
  | some x =>
    let back := { x with bytes := b, time := time, spilled := none, south := false, lentCells := 0 }
    let l := s.frames.map fun y => if y.isAt g seq then back else y
    let c := c.bumpQ 12 1
    match c.qCharge q (cellsOf (storedBytes l) - cellsOf (storedBytes s.frames)) with
    | some d => ((d.modQ q fun y => { y with frames := l }).qPurge q).qSettle
    | none => ((c.qNoSpace q back).spillDrop q g seq).qSettle
/-- The neighbour never stored a frame of queue q: it is lost (R333). -/
def Chip.spillGap (c : Chip) (g : Face) (q : Queue) (seq : Nat) : Chip :=
  if c.quire.queues[q].frames.any fun x => x.isAt g seq then
    (((c.spillDrop q g seq).bumpQ 13 1).pmcEvt 1 5 1).qSettle
  else c
/-- One frame fewer is awaited from the neighbour on face g. -/
def Chip.recallOne (c : Chip) (g : Face) : Chip := (c.modFace g fun x => { x with recalls := x.recalls - 1 }).recallShow

/-- The sets that answer a RECALL of n frames of a queue of the neighbour on a face, with the frames still kept, the next
number and the poisoned frames discarded in place of being returned (R274, R333). -/
def recallSets (south : Bool) (port cls : Nat) : Nat → Nat → List Lent → List Bytes × List Lent × Nat × List Lent
  | 0, seq, l => ([], l, seq, [])
  | n + 1, seq, l =>
    let this := fun x : Lent => x.south == south && x.queue == port * 8 + cls % 8 && x.seq == seq
    let found := l.find? this
    let set := match found with
      | some x => if x.poisoned then spillSet 3 port cls seq [] 0 else spillSet 2 port cls seq x.bytes x.time
      | none => spillSet 3 port cls seq [] 0
    let r := recallSets south port cls n ((seq + 1) % 65536) (l.filter fun x => !this x)
    (set :: r.1, r.2.1, r.2.2.1, (found.filter (·.poisoned)).toList ++ r.2.2.2)
/-- A received /S/ holds as many bytes as its header says and its CRC-32 checks (R333). -/
def spillOk (b : Bytes) : Bool :=
  decide (24 ≤ b.length ∧ beAt b 6 2 + 24 = b.length) && crcField (b.take (b.length - 4)) == b.drop (b.length - 4)
/-- Stores a frame of the neighbour on FACE in the lent cells, as far as they go (R301, R265). -/
def Chip.lentStore (c : Chip) (f : Face) (queue seq time : Nat) (b : Bytes) : Chip :=
  let used := c.quire.lent.foldl (fun m x => m + cellsOf x.bytes.length) 0
  if f = c.spillFace ∧ used + cellsOf b.length ≤ 64 * c.get QUIRE QUIRE_SPILL_LEND_VALUE then
    let r := c.takeBanks (cellsOf b.length) c.quire.lentRot
    c.modQuire fun x => { x with
      lent := x.lent ++ [{ queue := queue, south := f == .s, seq := seq, bytes := b, time := time, cells := r.1 }], lentRot := r.2 }
  else c

end Sys2Proof.Machine
end

