-- ==== Sys2Proof/Machine/Spine.lean ====
section
/-! DEFINITION. The meanings of the Spine's events (09_spine_cascade.md): face states, time marks, control messages, spill. -/

namespace Sys2Proof.Machine

/-- SPINE_CLOCK_PRESENT (R313): the received clock has been present for 4,096 cycles. -/
def execSpineClockPresent (f : Face) (s : State) : Res :=
  s.act fun c =>
    if c.spineOn ∧ c.fSt f = 1 then
      ((c.put (faceB f) SPF_STAT_CLK_OK 1).modFace f fun x => { x with announced := false }).toFace f 2
    else c
/-- SPINE_ALIGN_DONE (R309, R313). -/
def execSpineAlignDone (f : Face) (s : State) : Res :=
  s.act fun c => if c.fSt f = 2 then (c.toFace f 3).put (faceB f) SPF_STAT_RX_LANES 3 else c
/-- SPINE_ALIGN_TIMEOUT (R313): T_ALIGN has expired with only lanes 0–1 aligned (`low`), only lanes 2–3 (`high`), or neither
pair. -/
def execSpineAlignTimeout (f : Face) (low high : Bool) (s : State) : Res :=
  s.act fun c =>
    if c.fSt f = 2 then
      if low then (c.toFace f 3).put (faceB f) SPF_STAT_RX_LANES 1
      else if high then (c.toFace f 3).put (faceB f) SPF_STAT_RX_LANES 2
      else c.toFace f 5
    else c
/-- SPINE_HELLO_TIMEOUT (R313). -/
def execSpineHelloTimeout (f : Face) (s : State) : Res := s.act fun c => if c.fSt f = 3 then c.toFace f 5 else c
/-- SPINE_DOWN_TIMEOUT (R313). -/
def execSpineDownTimeout (f : Face) (s : State) : Res := s.act fun c => if c.fSt f = 5 then c.toFace f 1 else c
/-- SPINE_CLOCK_LOSS (R200, R313 to R315). -/
def execSpineClockLoss (f : Face) (s : State) : Res :=
  s.act fun c =>
    let n := c.fSt f
    if n = 0 then c
    else
      let c := c.put (faceB f) SPF_STAT_CLK_OK 0
      let c := if n = 4 ∧ (c.face f).announced = false then c.evt (faceB f) SPF_EVT_CLK_LOST else c
      let c := if f = .n ∧ c.isTail ∧ c.fState = 5 then c.toF 4 else c
      if 2 ≤ n ∧ n ≤ 4 then c.toFace f 1 else c
/-- SPINE_LANE_FAIL (R314): receive lanes of a face in UP fail; `errs` are the code and disparity errors counted on each
lane. -/
def execSpineLaneFail (f : Face) (failed : BitVec 4) (errs : List Nat) (s : State) : Res :=
  s.act fun c =>
    if c.fSt f = 4 then
      let c := c.each [0, 1, 2, 3] fun c (k : Nat) => if errs.getD k 0 = 0 then c else c.bumpFace f (12 + k) (errs.getD k 0)
      let rx := c.get (faceB f) SPF_STAT_RX_LANES
      let low := rx % 2 == 1 && failed.toNat % 4 == 0
      let high := decide (2 ≤ rx) && failed.toNat / 4 == 0
      if (rx % 2 = 0 ∨ low) ∧ (rx < 2 ∨ high) then c
      else if c.on (faceB f) SPF_CTL_FALLBACK_EN = false ∨ (low = false ∧ high = false) then c.toFace f 5
      else
        let k := if low then 1 else 2
        (c.modFace f fun x => { x with fallback := some k }).spSend f 7 (c.beyond f) (be 1 k)
    else c

/-- FORWARD_MARK_TX (R316, R317, R322, R330): a mark is due on a south face in UP; its reference instant lies `frac` and
LAT_SP_TX after the last tick. -/
def execForwardMarkTx (frac : Nat) (s : State) : Res :=
  s.act fun c =>
    if c.spineOn ∧ c.fSt .s = 4 ∧ c.role ≠ 3 then
      let a := c.now + frac + c.latSp true
      let d := if c.on (faceB .s) SPF_STAT_DLY_VALID then c.hopD .s else 0
      let b := be 1 1 ++ be 1 c.markFlags ++ be 1 c.spine.south.markCount ++ be 1 c.pos ++ be 12 (timeWord a) ++
        be 6 (unsigned 48 c.rate) ++ be 4 d ++ be 2 0
      (c.modFace .s fun x => { x with markTx := markBytes b, markTime := a, markCount := (x.markCount + 1) % 256 }).bumpFace .s 0 1
    else c

/-- (1 + the sender's RATE) × r − 1 in units of RATE, rounded down (R320; log entry 121). -/
def Chip.headRate (c : Chip) : Int := (2 ^ 56 + c.spine.upRate) * (2 ^ 56 + c.spine.ratio) / 2 ^ 56 - 2 ^ 56
/-- What a tail does with a mark whose D is valid: the first after UNSET or HOLDOVER is a measurement of R201, then the phase
loop of 1 kHz (bandwidth code 256) trims the rate that the sender's RATE and r give (R320; log entry 13). -/
def Chip.follow (c : Chip) (off : Int) : Chip :=
  let c := c.putWide (FOLIO + FOLIO_OFFSET_OFFSET.off) 2 (unsigned 32 (satS 32 off))
  if c.fState = 5 then
    if c.folio.slewing then c.steer 256 (some c.headRate) off
    else if c.frozen then c
    else (c.setServoRate (c.headRate + Config.phaseTrim 256 off c.freeCtr)).tickFree
  else
    let steps := decide (us1 < off.natAbs) && (c.folio.first || c.on FOLIO FOLIO_SERVO_CTL_STEP_EN) && !c.frozen
    let c := c.modFolio fun x => { x with first := false }
    if steps then
      let c := (c.stepBy off).toF 5
      c.setServoRate c.headRate
    else (c.toF 5).steer 256 (some c.headRate) off

/-- FORWARD_MARK_RX (R317, R320, R322): the 32 bytes of a mark on the north face, its reference instant LAT_SP_RX before
`frac` after the last tick, with r − 1 as measured. -/
def execForwardMarkRx (b : Bytes) (frac : Nat) (r : BitVec 48) (s : State) : Res :=
  s.act fun c =>
    if c.spineOn = false ∨ c.fSt .n ≠ 4 then c
    else if markOk b = false then (c.bumpFace .n 1 1).bumpFace .n 2 1
    else
      let c := c.bumpFace .n 1 1
      if c.isTail = false ∨ beAt b 0 1 ≠ 1 then c
      else
        let t2 := c.now + frac - c.latSp false
        let d := beAt b 22 4
        let coarse := (beAt b 1 1).testBit 0
        let c := c.modFace .n fun x => { x with echoDue := some (beAt b 2 1, t2) }
        let c := (c.putB SPINE SPINE_STAT_UP_COARSE coarse).putB SPINE SPINE_STAT_UP_HOLD ((beAt b 1 1).testBit 1)
        let c := (c.putWide (faceB .n + SPF_DLY_D.off) 2 d).putB (faceB .n) SPF_STAT_DLY_VALID (d != 0)
        let c := c.modSpine fun x => { x with upRate := signed 48 (beAt b 16 6), ratio := r.toInt }
        let c := if d = 0 ∨ c.folioClk = false then c else c.follow ((t2 : Int) - (ofTimeWord (beAt b 4 12) + d))
        if coarse then c.setCoarse else if c.fState = 5 ∧ c.on FOLIO FOLIO_STAT_COARSE then c.fine else c

/-- ECHO_MARK_TX (R316, R317): the echo of the last forward mark leaves on the north face. -/
def execEchoMarkTx (frac : Nat) (s : State) : Res :=
  s.act fun c =>
    match c.spine.north.echoDue with
    | some (n, t2) =>
      if c.spineOn ∧ c.fSt .n = 4 then
        let b := be 1 2 ++ be 1 c.markFlags ++ be 1 n ++ be 1 c.pos ++ be 12 (timeWord (c.now + frac + c.latSp true)) ++ be 12 (timeWord t2)
        (c.modFace .n fun x => { x with markTx := markBytes b, echoDue := none }).bumpFace .n 0 1
      else c
    | none => c

/-- ECHO_MARK_RX (R317, R319): the echo of the last forward mark; D is the mean of the last 64 halves of RTT. -/
def execEchoMarkRx (b : Bytes) (frac : Nat) (s : State) : Res :=
  s.act fun c =>
    if c.spineOn = false ∨ c.fSt .s ≠ 4 then c
    else if markOk b = false then (c.bumpFace .s 1 1).bumpFace .s 2 1
    else
      let c := c.bumpFace .s 1 1
      let m := c.spine.south
      if beAt b 0 1 ≠ 2 ∨ (beAt b 2 1 + 1) % 256 ≠ m.markCount then c
      else
        let t4 : Int := (c.now + frac : Nat) - (c.latSp false : Nat)
        let rtt : Int := (t4 - m.markTime) - ((ofTimeWord (beAt b 4 12) : Nat) - (ofTimeWord (beAt b 16 12) : Nat))
        let h := (rtt :: m.dHist).take 64
        let c := c.modFace .s fun x => { x with dHist := h }
        if h.length < 64 then c
        else
          let d := h.foldl (· + ·) 0 / 128
          let c := (c.putWide (faceB .s + SPF_DLY_D.off) 2 (satU 32 d.toNat)).put (faceB .s) SPF_STAT_DLY_VALID 1
          if d < 0 ∨ 144179 < d then c.evt (faceB .s) SPF_EVT_DLY_RANGE else c

/-- MARK_LOSS (R321): 100 µs without a valid forward mark while the north clock is present, with r − 1 as measured; a tail stays
in FOLLOW at the rate that r and the last received RATE give. -/
def execMarkLoss (r : BitVec 48) (s : State) : Res :=
  s.act fun c =>
    if c.isTail ∧ c.on (faceB .n) SPF_STAT_CLK_OK then
      let c := (c.modSpine fun x => { x with ratio := r.toInt }).evt (faceB .n) SPF_EVT_MARK_LOSS
      if c.fState = 5 ∧ c.folioClk ∧ c.frozen = false then c.setServoRate c.headRate else c
    else c

/-- SPINE_HELLO_RX (R313, R327, R330): HELLO is for the neighbour, whatever its destination says, and is never relayed. -/
def execSpineHelloRx (f : Face) (b : Bytes) (s : State) : Res :=
  s.act fun c => c.spRx f 1 b fun m c =>
    let k := faceB f
    let body := m.body
    let right := match f with | .n => decide (c.pos = beAt body 8 1 + 1) | .s => decide (beAt body 8 1 = c.pos + 1)
    if right = false then (c.evt k SPF_EVT_POS_ERR).toFace f 5
    else
      let acting := (beAt body 9 1).testBit 0
      let c := (c.put k SPF_STAT_PEER_POS (beAt body 8 1)).putB k SPF_STAT_PEER_ACTING acting
      let c := c.modFace f fun x => { x with peerCount := beAt body 10 1, helloOk := true }
      let c := if acting then c.modSpine fun x => { x with acting := beAt body 8 1 } else c
      let c := if acting ∧ c.pos = 0 ∧ c.role = 0 then c.put SPINE SPINE_STAT_ROLE 3 else c
      (c.helloDone f).countShow

/-- SPINE_ACK_RX (R313, R314, R323, R324). -/
def execSpineAckRx (f : Face) (b : Bytes) (s : State) : Res :=
  s.act fun c =>
    if c.spHears f = false then c
    else if spOk b = false then c.bumpFace f 5 1
    else match (c.face f).out with
      | none => c
      | some (m, _) =>
        if (spParse b).typ ≠ 0 ∨ m.seq ≠ (spParse b).seq then c
        else
          let c := (c.bumpFace f 4 1).modFace f fun x => { x with out := none }
          let c := if m.typ = 1 then (c.modFace f fun x => { x with helloAcked := true }).helloDone f else c
          let c :=
            if m.typ = 7 then
              match (c.face f).fallback with
              | some k => (((c.put (faceB f) SPF_STAT_RX_LANES k).evt (faceB f) SPF_EVT_FALLBACK).modFace f fun x => { x with fallback := none }).delayAnew f
              | none => c
            else c
          c.spGo f

/-- SPINE_MSG_RETX (R313, R324): 2 µs without an acknowledgement. -/
def execSpineMsgRetx (f : Face) (s : State) : Res :=
  s.act fun c =>
    match (c.face f).out with
    | none => c
    | some (m, n) =>
      if c.spHears f = false then c
      else if n < 8 then (c.modFace f fun x => { x with out := some (m, n + 1), wire := m.bytes }).bumpFace f 6 1
      else (c.evt (faceB f) SPF_EVT_MSG_FAIL).toFace f 5

/-- FALLBACK_RX (R314, R325): both ends change width. -/
def execFallbackRx (f : Face) (b : Bytes) (s : State) : Res :=
  s.act fun c => c.spRx f 7 b fun m c => c.spDeliver f (fun m c =>
    let lanes := beAt m.body 0 1 % 4
    if lanes = 0 then c
    else ((c.put (faceB f) SPF_STAT_TX_LANES lanes).evt (faceB f) SPF_EVT_FALLBACK).delayAnew f) m

/-- ALERT_RX (R325, R328). -/
def execAlertRx (f : Face) (b : Bytes) (s : State) : Res :=
  s.act fun c => c.spRx f 8 b fun m c => c.spDeliver f (fun m c =>
    let p := beAt m.body 0 1
    if 1 ≤ p ∧ p ≤ 3 then c.putBit SPINE SPINE_TAIL_ALERT_ALERT (p - 1) (beAt m.body 1 1 % 2 == 1) else c) m

/-- PROMOTE_RX (R325, R330): a promotion, or with 0 the head's restoration, passes this face, and the face by which it goes on; a
deposed head acts on it but relays nothing. -/
def execPromoteRx (f : Face) (b : Bytes) (s : State) : Res :=
  s.act fun c => c.spRx f 9 b fun m c =>
    let p := beAt m.body 0 1
    let c := c.promotePass f
    let c :=
      if c.role = 3 then c
      else match c.spOnward f m.dst with
        | some g => (if c.fSt g = 4 then c.promotePass g else c).spOut g m
        | none => c
    if c.spMine m.dst then
      let c := c.modSpine fun x => { x with acting := p }
      if p = 0 ∧ c.role = 3 then (c.put SPINE SPINE_STAT_ROLE 0).countShow else c
    else c

/-- PROMOTION_TIMEOUT (R329): 10 ms of unannounced loss of the north clock. -/
def execPromotionTimeout (s : State) : Res :=
  s.act fun c =>
    if c.role = 1 ∧ c.pos = 1 ∧ c.on SPINE SPINE_CTL_STACK_PROMOTE ∧ c.on (faceB .n) SPF_STAT_CLK_OK = false ∧ c.spine.north.announced = false then
      let c := ((c.put SPINE SPINE_STAT_ROLE 2).countShow).modSpine fun x => { x with acting := c.pos }
      (c.spPromote .s 1).ownSource
    else c

/-- STACK_RESET_RX (R325, R331): an addressed tail relays the message south first, whether or not it is for the others too, and
acts 10 µs after its acknowledgement; the neighbours of a tail that kind 2 resets know that its clock will stop (R315). -/
def execStackResetRx (f : Face) (b : Bytes) (s : State) : Res :=
  s.act fun c => c.spRx f 5 b fun m c =>
    if c.role = 3 then c
    else
      let k := beAt m.body 0 1
      let c := if c.isTail ∧ m.dst = c.pos ∧ f = .n ∧ c.faceMay .s then c.spOut .s m else c.spRelay f m
      let c := if k = 2 then c.resetAnnounced m.dst else c
      if c.isTail ∧ c.spMine m.dst ∧ (k = 1 ∨ k = 2) then c.modSpine fun x => { x with resetDue := some k } else c

/-- SOUTH_CLOCK_STOP (R332): 10 µs after the acknowledgement of the south neighbour's sleep announcement. -/
def execSouthClockStop (s : State) : Res :=
  s.act fun c =>
    if c.spine.stopDue then
      (c.modSpine fun x => { x with stopDue := false }).modFace .s fun x => { x with clkTx := false, stopped := true }
    else c

/-- LEND_RX (R301, R325): the neighbour lends cells on this face; those of FACE count. -/
def execLendRx (f : Face) (b : Bytes) (s : State) : Res :=
  s.act fun c => c.spRx f 3 b fun m c => c.spDeliver f (fun m c =>
    (c.modFace f fun x => { x with lend := 64 * beAt m.body 0 2 }).spillCheck) m

/-- RECALL_RX (R274, R325, R333): the lender returns frames in spill-sequence order, or gap headers; a poisoned frame is
discarded and counted. -/
def execRecallRx (f : Face) (b : Bytes) (s : State) : Res :=
  s.act fun c => c.spRx f 4 b fun m c => c.spDeliver f (fun m c =>
    let port := beAt m.body 0 1
    let cls := beAt m.body 1 1
    let key := faceKey f + port * 8 + cls % 8
    let r := recallSets (f == .s) port cls (beAt m.body 2 2) (Sparse.get c.quire.lentNext key).toNat c.quire.lent
    let c := c.modQuire fun x => { x with lent := r.2.1, lentNext := Sparse.set x.lentNext key r.2.2.1 }
    let c := c.countDiscards 0 1 (r.2.2.2.map fun x => { bytes := x.bytes })
    (c.modFace f fun x => { x with spillTx := r.1 }).bumpFace f 10 r.1.length) m

/-- SPILL_FRAME_RX (R301, R303, R333): a /S/ stores a frame of the neighbour, returns one of this device's or reports that it
was never stored. -/
def execSpillFrameRx (f : Face) (b : Bytes) (s : State) : Res :=
  s.act fun c =>
    if c.spineOn = false ∨ c.fSt f ≠ 4 then c
    else
      let c := c.bumpFace f 11 1
      let port := beAt b 1 1
      let cls := beAt b 2 1 % 8
      let seq := beAt b 4 2
      let time := ofTimeWord (beAt b 8 12)
      let frame := (b.drop 20).take (b.length - 24)
      if spillOk b = false then c
      else if beAt b 0 1 = 1 then c.lentStore f (port * 8 + cls) seq time frame
      else if port / 8 ≠ c.pos then c
      else
        let q := qOf 0 (Fin.ofNat 8 port) (Fin.ofNat 8 cls)
        if beAt b 0 1 = 2 then (c.spillBack f q seq frame time).recallOne f
        else if beAt b 0 1 = 3 then (c.spillGap f q seq).recallOne f
        else c

/-- SPILL_RECALL (R303, R326): spilled frames of a queue are asked back before the local frames ahead of them run out. -/
def execSpillRecall (q : Fin 64) (n : BitVec 16) (s : State) : Res :=
  s.act fun c =>
    let i : Queue := ⟨q.val, by omega⟩
    -- the face of the spilled frame that is next in the queue's order
    match c.quire.queues[i].frames.find? fun x => x.spilled.isSome with
    | none => c
    | some x =>
      let f : Face := if x.south then .s else .n
      let m := min n.toNat (c.quire.queues[i].frames.countP fun y => y.at_ f)
      if m = 0 ∨ c.fSt f ≠ 4 then c
      else
        let c := (c.modFace f fun y => { y with recalls := y.recalls + m }).recallShow
        c.spSend f 4 (c.beyond f) (be 1 (8 * c.pos + (qPort i).val) ++ be 1 (qCls i).val ++ be 2 m)

end Sys2Proof.Machine
end

