-- ==== Sys2Proof/Machine/Clocks.lean ====
section
/-! DEFINITION. Clocks (12_clocks.md): sources and loops, block enables, the clock monitor with its trips and recovery, and
voltage and frequency levels. -/

namespace Sys2Proof.Machine

/-- Bit k of n set to v. -/
def setB (n k : Nat) (v : Bool) : Nat := if n.testBit k = v then n else if v then n + 2 ^ k else n - 2 ^ k

/-- A loop is wanted in Run or Doze (R391). -/
def Chip.loopNeed (c : Chip) (k : Nat) : Bool :=
  decide (c.pwr.mode ≤ 1) &&
  match k with
  | 0 => true
  | 1 => true
  | 2 => c.get CLK CLK_EN0_LP % 16 != 0
  | 3 => c.get CLK CLK_EN0_LP / 16 != 0
  | 4 => (c.reg (CLK + CLK_EN1_H.off)) != 0 || c.on CLK CLK_EN0_HGRP
  | 5 => c.on CLK CLK_EN0_SPINE
  | _ => false
/-- A clock enable of the blocks of an island is set, in the order of PWR_ISLANDS (R421). -/
def Chip.islandNeed (c : Chip) (k : Nat) : Bool :=
  match k with
  | 2 => c.get CLK CLK_EN0_LP % 16 != 0
  | 3 => c.get CLK CLK_EN0_LP / 16 != 0
  | 4 => (c.reg (CLK + CLK_EN1_H.off)) != 0 || c.on CLK CLK_EN0_HGRP
  | 5 => c.on CLK CLK_EN0_QUIRE
  | 7 => c.on CLK CLK_EN0_SPINE
  | _ => true
/-- The island's bit of PWR_RUN_GATE (R449). -/
def Chip.islandGate (c : Chip) (k : Nat) : Bool := if k = 7 then c.bit PWR PWR_RUN_GATE_GATE 4 else c.bit PWR PWR_RUN_GATE_GATE (k - 2)
/-- Powers off the islands with no enable set and their gate bit 1 (R421). -/
def Chip.islandsOff (c : Chip) : Chip :=
  c.each [2, 3, 4, 5, 7] fun c (k : Nat) => if c.islandOn k ∧ c.islandNeed k = false ∧ c.islandGate k then c.putBit PWR PWR_ISLANDS_ON k false else c
/-- Stops the loops that nothing wants (R391). -/
def Chip.loopsOff (c : Chip) : Chip :=
  c.each [2, 3, 4, 5] fun c (k : Nat) =>
    if c.loopNeed k then c
    else c.modClk fun x => { x with lock := setB x.lock k false, ready := setB x.ready k false, hold := setB x.hold k false, run := setB x.run k false }

/-- A line port stops with its clock (R399). -/
def Chip.portStop (c : Chip) (p : Port) : Chip := c.portClear p
/-- The host group stops with its clock: every lane in a data mode is faulted (R399). -/
def Chip.hgrpStop (c : Chip) : Chip :=
  let c := c.each hostLanes Chip.laneEval
  let m := c.hostMode
  let w := c.get HGRP HGRP_MODE_PENDING
  let c := (c.resetRegs (fun a => blkOf a == 0x30) KB).modHgrp fun h => { h with expect := List.replicate 8 none, heldRx := List.replicate 8 [] }
  (c.put HGRP HGRP_MODE_ACTIVE m).put HGRP HGRP_MODE_PENDING w
/-- The Spine stops with its clock: both faces go OFF and the block is as after its soft reset (R399). -/
def Chip.spineStop (c : Chip) : Chip :=
  let c := (c.toFace .n 0).toFace .s 0
  let c := if c.isTail ∧ c.fState = 5 then c.toF 4 else c
  ((c.resetRegs (fun a => blkOf a == 0x0C) KB).modSpine fun _ => {}).spinePlace
/-- A Roll engine's held frames are released in order, none lost (15_self_test_and_faults.md R494). -/
def RollSt.release (e : RollSt) : RollSt := { e with held := [], delaying := false, out := e.held.map (·.bytes) }
/-- CLK_EN0.ROLL is cleared: every Roll engine stops, the fields that B does not keep return to reset (R399;
15_self_test_and_faults.md R494, R495). -/
def Chip.rollStop (c : Chip) : Chip :=
  (c.modBist fun b => { b with engines := b.engines.map RollSt.release }).resetRegs (fun a => blkOf a == 0x0D) KB

/-- The blocks that a loop or an island feeds start, as far as they are enabled and may run (R399). -/
def Chip.startPorts (c : Chip) : Chip := c.each allPorts Chip.portStart
/-- Every enabled, clocked lane that stands still starts (R230). -/
def Chip.startLanes (c : Chip) : Chip := c.each allLanes Chip.laneGo
/-- Starts what a loop's output feeds. -/
def Chip.startBlocks (c : Chip) (k : Nat) : Chip :=
  match k with
  | 0 => c.poolChanged
  | 1 => if c.folioClk then (c.folioRestart).outsBack else c
  | 2 => c.each [0, 1, 2, 3] Chip.portStart
  | 3 => c.each [4, 5, 6, 7] Chip.portStart
  | 4 => c.startLanes
  | 5 => (c.faceEnabled .n).faceEnabled .s
  | _ => c
/-- Stops what a loop's output feeds, as clearing the enables does (R396). -/
def Chip.stopBlocks (c : Chip) (k : Nat) : Chip :=
  match k with
  | 0 => if c.on CLK CLK_EN0_QUIRE then c.quireReset else c
  | 1 => if c.on CLK CLK_EN0_FOLIO then c.folioStop else c
  | 2 => c.each ([0, 1, 2, 3] : List Port) fun c p => if c.bit CLK CLK_EN0_LP p.val then c.portStop p else c
  | 3 => c.each ([4, 5, 6, 7] : List Port) fun c p => if c.bit CLK CLK_EN0_LP p.val then c.portStop p else c
  | 4 => (c.each allLanes fun c l => (c.laneClear l).laneEval l).hgrpStop
  | 5 => c.spineStop
  | _ => c

/-- CLK_EN0 and CLK_EN1 have been written; o0 and o1 are what they held (R399, R421). -/
def Chip.enWritten (c : Chip) (o0 o1 : BitVec 16) : Chip :=
  let n0 := c.reg CLK
  let n1 := c.reg (CLK + 1)
  let off := o0 &&& ~~~n0
  let on := n0 &&& ~~~o0
  let c := c.each allPorts fun c p => if off.getLsbD p.val then c.portStop p else c
  let c := c.each allLanes fun c l => if (o1 &&& ~~~n1).getLsbD l.val then (c.laneClear l).laneEval l else c
  let c := if off.getLsbD 8 then c.hgrpStop else c
  let c := if off.getLsbD 9 then c.quireReset else c
  let c := if off.getLsbD 10 then c.folioStop else c
  let c := if off.getLsbD 11 then c.spineStop else c
  let c := if off.getLsbD 12 then c.rollStop else c
  let c := (c.loopsOff.islandsOff).each allPorts fun c p => if on.getLsbD p.val then c.portStart p else c
  let c := c.each allLanes fun c l => if (n1 &&& ~~~o1).getLsbD l.val then c.laneGo l else c
  let c := if on.getLsbD 8 then c.startLanes else c
  let c := if on.getLsbD 10 ∧ c.folioClk then (c.folioRestart).outsBack else c
  if on.getLsbD 11 then (c.faceEnabled .n).faceEnabled .s else c

/-- ISLAND_POWER_UP (R421): an island whose enable has been set is powered. -/
def execIslandPowerUp (k : Fin 8) (s : State) : Res :=
  s.act fun c =>
    if c.pwr.mode = 0 ∧ c.islandOn k.val = false ∧ (c.islandNeed k.val ∨ c.islandGate k.val = false) then
      (c.putBit PWR PWR_ISLANDS_ON k.val true).startBlocks (match k.val with | 5 => 0 | 7 => 5 | n => n)
    else c

/-- CLK_STAT.XA_OK, XB_OK and FOSC_OK (R419). -/
def Chip.srcOk (c : Chip) (k : Nat) : Bool :=
  c.clk.stable.testBit k && !(k == 0 && c.on CLK CLK_MON_STAT_XA_FAIL) && !(k == 1 && c.on CLK CLK_MON_STAT_XB_FAIL)
/-- The reference of a loop is good (R391, R406): SPLL's is TPLL, which runs on while it holds. -/
def Chip.refOk (c : Chip) (k : Nat) : Bool :=
  match k with
  | 1 => if c.clk.tpllXa then c.srcOk 0 else c.srcOk 1
  | 5 => c.loopRuns 1
  | _ => c.srcOk 0

/-- The data islands run again on CPLL (R412, R418). -/
def Chip.resumeRun (c : Chip) : Chip :=
  let c := (c.put CLK CLK_CMD_RESUME 0).put CLK CLK_STAT_CTRL_SRC 0
  if c.halted then
    let c := (c.put CLK CLK_STAT_DATA_HALT 0).modClk fun x => { x with div := c.get CLK CLK_LEVEL_ACTUAL }
    c.startPorts.startLanes
  else c
/-- RESUME (R412, R413): no effect while XA fails or CPLL is not ready. -/
def Chip.resumed (c : Chip) : Chip :=
  if c.on CLK CLK_MON_STAT_XA_FAIL ∨ c.clk.ready.testBit 0 = false then c.put CLK CLK_CMD_RESUME 0 else c.resumeRun
/-- AUTO_RESUME (R412). -/
def Chip.autoResume (c : Chip) : Chip :=
  if c.halted ∧ c.on CLK CLK_MON_CTL_AUTO_RESUME ∧ c.on CLK CLK_MON_STAT_XA_FAIL = false ∧ c.clk.ready.testBit 0 then c.resumeRun else c

/-- SOURCE_STABLE (R394, R404, R405, R410): a source has passed its stability count. -/
def execSourceStable (k : Fin 4) (s : State) : Res :=
  s.act fun c =>
    let c := c.modClk fun x => { x with stable := setB x.stable k.val true }
    match k.val with
    | 1 => if c.on CLK CLK_MON_STAT_XB_FAIL then c else c.put CLK CLK_STAT_AON_SRC 0
    | 2 =>
      let c := c.put CLK CLK_MON_STAT_VS_XB 0
      if c.halted ∧ c.get CLK CLK_STAT_CTRL_SRC = 2 then c.put CLK CLK_STAT_CTRL_SRC 1 else c
    | _ => c

/-- LOOP_LOCK (R392, R395, R412): the detector of a wanted loop with a good reference reports lock. -/
def execLoopLock (k : Fin 6) (s : State) : Res :=
  s.act fun c =>
    if c.loopNeed k.val ∧ c.refOk k.val then c.modClk fun x => { x with lock := setB x.lock k.val true, hold := setB x.hold k.val false }
    else c
/-- LOOP_READY (R395, R399, R412): 4,096 reference cycles after lock. -/
def execLoopReady (k : Fin 6) (s : State) : Res :=
  s.act fun c =>
    if c.clk.lock.testBit k.val then
      let ran := c.loopRuns k.val
      let c := c.modClk fun x => { x with ready := setB x.ready k.val true, run := setB x.run k.val true }
      let c := if ran then c else c.startBlocks k.val
      if k.val = 0 then c.autoResume else c
    else c
/-- LOOP_UNLOCK (R396): a loop loses lock while its reference passes the monitor, which does not watch SPLL's. -/
def execLoopUnlock (k : Fin 6) (s : State) : Res :=
  s.act fun c =>
    if c.clk.lock.testBit k.val ∧ (k = 5 ∨ c.refOk k.val) then
      let c := (c.modClk fun x => { x with lock := setB x.lock k.val false, ready := setB x.ready k.val false, run := setB x.run k.val false }).evt
        CLK CLK_EVT_LOOP_UNLOCK
      c.stopBlocks k.val
    else c

/-- A loop holds its last control value (R392). -/
def Chip.holdLoop (c : Chip) (k : Nat) : Chip :=
  if c.loopRuns k ∨ c.clk.lock.testBit k then c.modClk fun x => { x with lock := setB x.lock k false, ready := setB x.ready k false, hold := setB x.hold k true } else c

/-- XA trips (R408, R410, R411): TPLL holds too while it runs from XA (R392, R406). -/
def Chip.tripXa (c : Chip) : Chip :=
  let c := ((c.put CLK CLK_MON_STAT_XA_FAIL 1).evt CLK CLK_EVT_XA_FAIL).evt CLK CLK_EVT_NME_CLK
  let c := c.each (if c.clk.tpllXa then [0, 1, 2, 3, 4] else [0, 2, 3, 4]) Chip.holdLoop
  let c := c.modClk fun x => { x with vsTrip := c.on CLK CLK_MON_STAT_VS_XB }
  let c := c.put CLK CLK_STAT_CTRL_SRC (if c.clk.stable.testBit 2 then 1 else 2)
  let c := c.put CLK CLK_STAT_DATA_HALT 1
  let c := c.each allPorts fun c p => if c.lState p = 0 then c else c.toLink p 0
  let c := c.each allLanes Chip.laneEval
  c.folioNme
/-- XB trips (R409, R411). -/
def Chip.tripXb (c : Chip) : Chip :=
  let c := ((c.put CLK CLK_MON_STAT_XB_FAIL 1).evt CLK CLK_EVT_XB_FAIL).evt CLK CLK_EVT_NME_CLK
  ((c.put CLK CLK_STAT_AON_SRC 1).holdLoop 1).folioXbFail.folioNme

/-- A window's count differs from the expected one by more than TOL × 0.5 %, or is 0 (R403). -/
def Chip.windowFails (c : Chip) (count want : Nat) : Bool :=
  count == 0 || decide (c.get CLK CLK_MON_CTL_TOL * want < 200 * ((count : Int) - want).natAbs)

/-- A window of FOSC cycles counts toward REF, which the first 64 windows teach (R404). -/
def Chip.refWindow (c : Chip) (count : Nat) : Chip :=
  let c := c.modClk fun x => { x with refSum := x.refSum + count, refCnt := x.refCnt + 1 }
  if c.clk.learned = false ∧ c.clk.refCnt = 64 then
    (c.put CLK CLK_MON_REF_REF (satU 10 (c.clk.refSum / 64))).modClk fun x => { x with learned := true, refSum := 0, refCnt := 0 }
  else c

/-- The monitor's windows run: in Run and Doze, and from the start of a wake (R405, R406). -/
def Chip.monRuns (c : Chip) : Bool := decide (c.pwr.mode ≤ 1) || c.pwr.wake.isSome
/-- XA_WINDOW_END (R403 to R408): the XA edges of the window: 2,000 FOSC cycles, or 192 XB cycles before FOSC's count after a
wake. Before REF is learned only a window without edges fails. -/
def execXaWindowEnd (count : Nat) (s : State) : Res :=
  s.act fun c =>
    if c.on CLK CLK_MON_CTL_XA_EN = false ∨ c.monRuns = false ∨ c.clk.stable.testBit 0 = false then c
    else
      let vs := c.on CLK CLK_MON_STAT_VS_XB
      let c := c.put CLK CLK_MON_XA_COUNT (satU 10 count)
      let fail := if vs then c.windowFails count 250 else if c.clk.learned then c.windowFails count (c.get CLK CLK_MON_REF_REF) else count == 0
      let c := if vs then c else c.refWindow count
      if fail then
        let c := c.modClk fun x => { x with xaFails := min 2 (x.xaFails + 1), xaPasses := 0 }
        if c.clk.xaFails = 2 ∧ c.on CLK CLK_MON_STAT_XA_FAIL = false then c.tripXa else c
      else
        c.modClk fun x => { x with xaFails := 0, xaPasses := min 16 (x.xaPasses + 1) }

/-- A source's failure is over: FAIL clears and its loops lock again (R412). -/
def Chip.recoverXa (c : Chip) : Chip := (c.put CLK CLK_MON_STAT_XA_FAIL 0).modClk fun x => { x with vsTrip := false }
/-- The same for XB (R216, R412). -/
def Chip.recoverXb (c : Chip) : Chip :=
  (((c.put CLK CLK_MON_STAT_XB_FAIL 0).put CLK CLK_STAT_AON_SRC 0).modClk fun x => { x with tpllXa := false }).folioXbBack

/-- XB_WINDOW_END (R403, R405, R407, R409): the XB edges of 250 XA cycles; suspended while the XA check fails. A trip of XA
taken against XB moves to XB when XA passes. -/
def execXbWindowEnd (count : Nat) (s : State) : Res :=
  s.act fun c =>
    if c.on CLK CLK_MON_CTL_XB_EN = false ∨ c.monRuns = false ∨ c.clk.xaFails ≠ 0 ∨ c.on CLK CLK_MON_STAT_VS_XB ∨
        (c.on CLK CLK_MON_STAT_XA_FAIL ∧ c.clk.xaPasses = 0) then c
    else
      let c := c.put CLK CLK_MON_XB_COUNT (satU 10 count)
      if c.windowFails count 192 then
        let c := c.modClk fun x => { x with xbFails := min 2 (x.xbFails + 1), xbPasses := 0 }
        if c.clk.xbFails = 2 ∧ c.on CLK CLK_MON_STAT_XB_FAIL = false then
          let c := if c.clk.vsTrip ∧ c.on CLK CLK_MON_STAT_XA_FAIL then c.recoverXa else c
          c.tripXb
        else c
      else c.modClk fun x => { x with xbFails := 0, xbPasses := min 16 (x.xbPasses + 1) }

/-- REF_UPDATE (R404): once per second REF moves by at most one count toward the mean of the second's windows. -/
def execRefUpdate (s : State) : Res :=
  s.act fun c =>
    if c.clk.learned ∧ c.clk.refCnt ≠ 0 ∧ c.on CLK CLK_MON_STAT_XA_FAIL = false then
      let r := c.get CLK CLK_MON_REF_REF
      let n := c.clk.refCnt
      let c := if r * n < c.clk.refSum ∧ n ≤ c.clk.refSum - r * n then c.put CLK CLK_MON_REF_REF (satU 10 (r + 1))
        else if c.clk.refSum < r * n ∧ n ≤ r * n - c.clk.refSum then c.put CLK CLK_MON_REF_REF (r - 1) else c
      c.modClk fun x => { x with refSum := 0, refCnt := 0 }
    else if c.clk.learned then c.modClk fun x => { x with refSum := 0, refCnt := 0 }
    else c

/-- SOURCE_RECOVERED (R412): a tripped source has had 16 passing windows and its stability count. -/
def execSourceRecovered (xb : Bool) (s : State) : Res :=
  s.act fun c =>
    if xb then (if c.on CLK CLK_MON_STAT_XB_FAIL ∧ c.clk.xbPasses = 16 then c.recoverXb else c)
    else if c.on CLK CLK_MON_STAT_XA_FAIL ∧ c.clk.xaPasses = 16 then c.recoverXa
    else c

/-- SWITCH_FORCED (R401): the old clock gave no edge for 64 cycles of the new one. -/
def execSwitchForced (s : State) : Res := s.act fun c => c.evt CLK CLK_EVT_SWITCH_FORCED

/-- CLK_EVT_CLR has been written (R411, R419). -/
def Chip.clkEvtClear (c : Chip) : Chip :=
  let m := c.get CLK CLK_EVT_CLR_CLR
  let cause := c.on CLK CLK_MON_STAT_XA_FAIL || c.on CLK CLK_MON_STAT_XB_FAIL
  let c := c.each [0, 1, 2, 3, 4, 5, 6] fun c (k : Nat) =>
    if m.testBit k ∧ ¬ (k = 0 ∧ cause) then c.put CLK ⟨CLK_EVT_NME_CLK.off, k, 1⟩ 0 else c
  c.put CLK CLK_EVT_CLR_CLR 0

/-- A level change begins (R416, R418): upward the voltage first, downward the divisions first. -/
def Chip.levelStart (c : Chip) (t : Nat) : Chip :=
  let a := c.get CLK CLK_LEVEL_ACTUAL
  if t = a ∧ c.on CLK CLK_LEVEL_VHIGH = false then c
  else
    let c := if t < a ∧ c.halted = false then c.modClk fun x => { x with div := t } else c
    (c.modClk fun x => { x with levelTo := some t, vsel := t, vselAt := some c.tpll }).put CLK CLK_LEVEL_BUSY 1
/-- CLK_LEVEL.TARGET has been written (R416, R418). -/
def Chip.levelWritten (c : Chip) : Chip :=
  let t := c.get CLK CLK_LEVEL_TARGET
  if c.clk.levelTo.isSome then c.modClk fun x => { x with levelNext := some t } else c.levelStart t
/-- PGOOD is high after VSEL changed: the level change ends (R416, R418). -/
def Chip.pgoodHigh (c : Chip) : Chip :=
  match c.clk.levelTo with
  | none => c
  | some t =>
    let next := c.clk.levelNext
    let c := c.modClk fun x => { x with levelTo := none, levelNext := none, div := if c.halted then x.div else t }
    let c := ((c.put CLK CLK_LEVEL_ACTUAL t).put CLK CLK_LEVEL_BUSY 0).put CLK CLK_LEVEL_VHIGH 0
    let c := c.evt CLK CLK_EVT_LEVEL_DONE
    match next with | some n => c.levelStart n | none => c
/-- PGOOD stays low: the level change fails (R417). -/
def Chip.pgoodTimeout (c : Chip) : Chip :=
  match c.clk.levelTo with
  | none => c
  | some t =>
    let a := c.get CLK CLK_LEVEL_ACTUAL
    let c := c.modClk fun x => { x with levelTo := none, levelNext := none, vsel := max t a, vselAt := some c.tpll, div := if c.halted then x.div else min t a }
    let c := ((c.put CLK CLK_LEVEL_ACTUAL (min t a)).put CLK CLK_LEVEL_TARGET (min t a)).put CLK CLK_LEVEL_BUSY 0
    (c.put CLK CLK_LEVEL_VHIGH 1).evt CLK CLK_EVT_PGOOD_FAIL
/-- PGOOD_HIGH (R416, R418): at least 10 µs after VSEL changed, PGOOD is high. -/
def execPgoodHigh (s : State) : Res := s.act Chip.pgoodHigh
/-- PGOOD_TIMEOUT (R417): PGOOD is not high 140 µs after VSEL changed. -/
def execPgoodTimeout (s : State) : Res := s.act Chip.pgoodTimeout

/-- PGOOD_LOW (R418): PGOOD low for more than 1 µs outside a change. -/
def execPgoodLow (s : State) : Res := s.act fun c => if c.clk.levelTo.isNone then c.evt CLK CLK_EVT_PGOOD_FAIL else c

/-- CLK_LOOP_STAT as it reads (R419). -/
def Chip.loopStat (c : Chip) : Nat :=
  c.clk.lock % 64 + c.clk.ready % 64 * 2 ^ 8 + 2 ^ 14 * (c.clk.hold.testBit 0).toNat + 2 ^ 15 * (c.clk.hold.testBit 1).toNat
/-- CLK_STAT as it reads (R419). -/
def Chip.clkStat (c : Chip) : Nat :=
  (c.srcOk 0).toNat + 2 * (c.srcOk 1).toNat + 4 * (c.srcOk 2).toNat + 8 * c.get CLK CLK_STAT_CTRL_SRC +
    32 * c.get CLK CLK_STAT_AON_SRC + 64 * c.get CLK CLK_STAT_DATA_HALT

end Sys2Proof.Machine
end

