-- ==== Sys2Proof/Machine/Cal.lean ====
section
/-! DEFINITION. Non-volatile records and calibration (14_calibration_and_ageing.md R450 to R462). Calibration targets are
0 to 7 for ports and 8 to 23 for lanes. -/

namespace Sys2Proof.Machine

/-- Highest die temperature in 0.125 °C steps (17_pins_and_electrical.md R527). -/
def Chip.tempMax (c : Chip) : Int :=
  (List.range 8).foldl (fun m k => max m (signed 16 (c.reg (SNS + k)).toNat)) (signed 16 (c.reg SNS).toNat)

/-- The port of a calibration target. -/
def calPortOf (t : Nat) : Port := Fin.ofNat 8 t
/-- The lane of a calibration target. -/
def calLaneOf (t : Nat) : Lane := Fin.ofNat 16 (t - 8)
/-- Trims of a target: 192 sub-ADC trims and the hybrid trim of a port (R455); 32 of a lane (log entry 84). -/
def trimCount (t : Nat) : Nat := if t < 8 then 193 else 32
/-- A trim value held within its field (02_line_port.md R79: 12 bit signed, the hybrid trim 8 bit). -/
def trimClip (t i : Nat) (v : Int) : Int :=
  if 8 ≤ t then satS 16 v else if i = 192 then max 0 (min 255 v) else satS 12 v

/-- Two 16-bit halves in one word. -/
def halves (a b : Int) : Nat := unsigned 16 a * 65536 + unsigned 16 b
/-- The signed upper half of a word. -/
def hiHalf (w : Nat) : Int := signed 16 (w / 65536)
/-- The signed lower half of a word. -/
def loHalf (w : Nat) : Int := signed 16 w

/-- The data words of a target's calibration record (R451, log entry 84). -/
def Chip.calWords (c : Chip) (t : Nat) : List Nat :=
  let v := fun i => c.cal.cur.get (256 * t + i)
  if t < 8 then (List.range 96).map (fun k => halves (v (2 * k)) (v (2 * k + 1))) ++ [halves (v 192) (c.cal.temps.get t)]
  else (List.range 16).map fun k => halves (v (2 * k)) (v (2 * k + 1))
/-- The number of a target's calibration record (R451). -/
def calRecord (t : Nat) : Nat := if t < 8 then 0x10 + t else 0x20 + (t - 8)
/-- Sets a trim with the value that background correction starts from. -/
def CalSt.setTrim (x : CalSt) (t i : Nat) (v : Int) : CalSt :=
  { x with cur := x.cur.set (256 * t + i) (trimClip t i v), tgt := x.tgt.set (256 * t + i) (trimClip t i v), fg := x.fg.set (256 * t + i) (trimClip t i v) }
/-- A calibration record in force: its trims, and the temperature of its calibration. -/
def Chip.calFrom (c : Chip) (t : Nat) (w : List Nat) : Chip :=
  let v := fun i => if i % 2 = 0 then hiHalf (w.getD (i / 2) 0) else loHalf (w.getD (i / 2) 0)
  let c := c.each (List.range (trimCount t)) fun c i => c.modCal fun x => x.setTrim t i (v i)
  if t < 8 then c.modCal fun x => { x with temps := x.temps.set t (loHalf (w.getD 96 0)) } else c

/-- A slot of a record in a store. -/
def slotOf (l : List (Nat × NvmSlot)) (k : Nat) : Option NvmSlot := (l.find? fun x => x.1 == k).map (·.2)
/-- Puts a slot into a store. -/
def slotPut (l : List (Nat × NvmSlot)) (k : Nat) (v : NvmSlot) : List (Nat × NvmSlot) := (k, v) :: l.filter fun x => x.1 != k
/-- The MTP slots of a record that hold something, the one with the higher sequence first (R452). -/
def Chip.mtpSlots (c : Chip) (n : Nat) : List NvmSlot :=
  match slotOf c.cal.mtp (2 * n), slotOf c.cal.mtp (2 * n + 1) with
  | none, none => []
  | some a, none => [a]
  | none, some b => [b]
  | some a, some b => if seqAfter a.seq b.seq then [a, b] else [b, a]
/-- The slot that the next write of a record goes to (R454): the ledger and the hour log have one slot each. -/
def Chip.mtpPlace (c : Chip) (n : Nat) : Nat :=
  if 0x60 ≤ n then 2 * n
  else match slotOf c.cal.mtp (2 * n), slotOf c.cal.mtp (2 * n + 1) with
    | none, _ => 2 * n
    | some _, none => 2 * n + 1
    | some a, some b => if seqAfter a.seq b.seq then 2 * n + 1 else 2 * n

/-- Whether OTP has the record (R451). -/
def inOtp (n : Nat) : Bool := decide (n ≤ 5 ∨ (0x10 ≤ n ∧ n ≤ 0x17) ∨ (0x20 ≤ n ∧ n ≤ 0x4F))
/-- The records that the load takes (R451, R452). -/
def nvmRecords : List Nat :=
  List.range 6 ++ (List.range 8).map (0x10 + ·) ++ (List.range 16).map (0x20 + ·) ++ (List.range 32).map (0x30 + ·) ++ [0x50]
/-- One record is loaded from its first good source (R452, R453). A factory record that the model's OTP does not list
stands for one that holds the design defaults (log entry 4). -/
def Chip.nvmLoad1 (c : Chip) (n : Nat) : Chip :=
  let m := c.mtpSlots n
  let o := slotOf c.cal.otp n
  let bad := fun (s : NvmSlot) => !s.good
  let mtpBad := (m.head?.map bad).getD false
  let allBad := m.all bad
  let src : Option NvmUse :=
    match m with
    | a :: t => if a.good then some { source := 2, words := a.words }
      else match t with
        | b :: _ => if b.good then some { source := 3, ok := false, words := b.words } else none
        | [] => none
    | [] => none
  let use : Option NvmUse :=
    match src with
    | some u => some u
    | none =>
      match o with
      | some s => if s.good then some { source := 1, ok := m.isEmpty, words := s.words } else some { source := 0, ok := false }
      | none => if m.isEmpty || inOtp n then none else some { source := 0, ok := false }
  let c := c.modCal fun x => { x with use := match use with | some u => (n, u) :: x.use | none => x.use }
  let c := if mtpBad then (c.put CAL CAL_NVM_STAT_MTP_FALLBACK 1).evt CAL CAL_EVT_NVM_FALLBACK else c
  if allBad && (o.map bad).getD false then (c.put CAL CAL_NVM_STAT_OTP_FALLBACK 1).evt CAL CAL_EVT_NVM_FALLBACK else c
/-- Every record is loaded at power-on (R452); `bad` names the slots whose check fails from now on: MTP record × 2 + slot,
OTP 65536 + record. -/
def Chip.nvmLoad (c : Chip) (bad : List Nat) : Chip :=
  let mark := fun (k : Nat) (x : Nat × NvmSlot) => if bad.contains (k + x.1) then (x.1, { x.2 with good := false }) else x
  let c := c.modCal fun x => { x with use := [], mtp := x.mtp.map (mark 0), otp := x.otp.map (mark 65536), cur := [], tgt := [], fg := [], temps := [] }
  let c := c.each nvmRecords Chip.nvmLoad1
  c.each (List.range 24) fun c t =>
    match c.nvm (calRecord t) with
    | some w => if t < 8 then (c.calFrom t w).put (lpB (calPortOf t)) PMA_STAT_ADC_CAL_VALID 1 else c.calFrom t w
    | none => c

/-- CAL_NVM_REC as it reads (R453, R472): the source in use of the selected record, and whether those before it were good. -/
def Chip.nvmRec (c : Chip) : Nat :=
  let n := c.get CAL CAL_NVM_SEL_RECORD
  match c.cal.use.find? fun x => x.1 == n with
  | some (_, u) => (match u.source with | 2 => 0 | 3 => 1 | 1 => 2 | _ => 3) + 4 * u.ok.toNat
  | none => (if inOtp n then 2 else 3) + 4
/-- CAL_NVM_WR as it reads (R454). -/
def Chip.nvmWr (c : Chip) : Nat := min 65535 (c.cal.writes.get (c.get CAL CAL_NVM_SEL_RECORD)).toNat

/-- The MTP write in progress has ended, read back well or not (R454). -/
def Chip.mtpDone (c : Chip) (ok : Bool) : Chip :=
  match c.cal.mtpq with
  | [] => c
  | w :: t =>
    let k := c.mtpPlace w.record
    let s := ((c.mtpSlots w.record).head?.map (·.seq)).getD 0
    let c := c.modCal fun x => { x with
      mtpq := t, writes := x.writes.set w.record (x.writes.get w.record + 1), mtp := slotPut x.mtp k { words := w.words, seq := (s + 1) % 65536, good := ok } }
    let c := c.putB CAL CAL_FG_STAT_SAVE_BUSY (!t.isEmpty)
    if ok then c
    else
      let c := c.evt CAL CAL_EVT_NVM_FAIL
      let c := c.modAge fun x => { x with
        ledger := x.ledger.map fun e => if 256 ≤ w.record ∧ e.words.dropLast = w.words then { e with good := false } else e
        log := x.log.map fun e => if 0x60 ≤ w.record ∧ w.record < 0x70 ∧ e.slot = w.record - 0x60 then { e with good := false } else e }
      match w.target with
      | some t => (c.put CAL CAL_FG_STAT_RESULT 6).put CAL CAL_FG_STAT_TARGET t
      | none => c

/-- A save of a target's calibration record is queued (R454). -/
def Chip.calSave (c : Chip) (t : Nat) : Chip := c.mtpAdd { record := calRecord t, words := c.calWords t, target := some t }

/-- A trim has been written by software: the next background step starts from it (R66). -/
def Chip.trimWritten (c : Chip) (p : Port) (i : Nat) (v : Int) : Chip :=
  c.modCal fun x => { x with cur := x.cur.set (256 * p.val + i) (trimClip p.val i v) }
/-- The sub-ADC trim that LPn_ADC_TRIM_SEL selects. -/
def Chip.adcTrim (c : Chip) (p : Port) : Nat := 64 * c.get (lpB p) ADC_TRIM_SEL_KIND + c.get (lpB p) ADC_TRIM_SEL_SUBADC

/-- Background correction of a target goes on (R455). -/
def Chip.bgOn (c : Chip) (t : Nat) : Bool :=
  if t < 8 then
    let p := calPortOf t
    let b := lpB p
    c.on CAL CAL_CTL_BG_PORT_EN && !c.on b DSP_CTL_FREEZE_CAL && c.lState p != 0 && c.lState p != 11 && !c.on b LPI_STAT_RX_QUIET && !c.on b OCT_STAT_PAUSED
  else
    let l := calLaneOf t
    c.on CAL CAL_CTL_BG_LANE_EN && !c.on (laneB l) XN_EQ_CTL_FREEZE_CAL && !c.laneFaulted l
/-- The receiver of a target has signal (R455). -/
def Chip.bgSignal (c : Chip) (t : Nat) : Bool :=
  if t < 8 then c.on (lpB (calPortOf t)) PMA_STAT_SIGNAL_DET else c.on (laneB (calLaneOf t)) XN_STAT_SIGNAL_DET

/-- BG_TARGET_UPDATE (R455): the estimator's targets of a port's or lane's trims; a lane's eye is measured at the same
rate (07_host_lanes_and_retimer.md R264). -/
def execBgTargetUpdate (t : Fin 24) (vals : List (BitVec 8 × BitVec 16)) (eye : BitVec 16) (s : State) : Res :=
  s.act fun c =>
    let c := if 8 ≤ t.val then c.setReg (laneB (calLaneOf t) + XN_EYE_HEIGHT.off) eye else c
    if c.bgSignal t then
      c.each vals fun c (x : BitVec 8 × BitVec 16) =>
        if x.1.toNat < trimCount t then c.modCal fun y => { y with tgt := y.tgt.set (256 * t + x.1.toNat) (trimClip t x.1.toNat x.2.toInt) } else c
    else c

/-- A trim drifts beyond CAL_BG_LIMIT from its last foreground value: its target is due (R456). -/
def Chip.bgLimit (c : Chip) (t i : Nat) (was now : Int) : Chip :=
  let f := c.cal.fg.get (256 * t + i)
  let lim := c.get CAL CAL_BG_LIMIT_LSB
  if lim < (now - f).natAbs ∧ (was - f).natAbs < (now - f).natAbs then
    (if t < 8 then c.putBit CAL CAL_BG_DUE_P_DUE t true else c.putBit CAL CAL_BG_DUE_L_DUE (t - 8) true).evt CAL CAL_EVT_BG_LIMIT
  else c
/-- BG_TRIM_STEP (R455, R456): each trim moves at most 1 LSB toward its target. -/
def execBgTrimStep (s : State) : Res :=
  s.act fun c =>
    c.each ((List.range 24).filter c.bgOn) fun c t =>
      c.each (List.range (trimCount t)) fun c i =>
        let v := c.cal.cur.get (256 * t + i)
        let g := c.cal.tgt.get (256 * t + i)
        let w := if v < g then v + 1 else if g < v then v - 1 else v
        if w = v then c else (c.modCal fun x => { x with cur := x.cur.set (256 * t + i) w }).bgLimit t i v w

/-- The lane takes a foreground calibration now (07_host_lanes_and_retimer.md R258). -/
def Chip.calLaneOk (c : Chip) (l : Lane) : Bool :=
  if c.laneRetimed l then c.trnState l == 0
  else c.laneFaulted l || (c.hostMode == 2 && decide (l.val < 8) && decide (2 ≤ hostLanes.countP fun h => h != l && c.on (laneB h) XN_STAT_LIVE))
/-- The port takes a foreground calibration now (R457, 02_line_port.md R56; log entry 82). -/
def Chip.calPortOk (c : Chip) (p : Port) : Bool :=
  let o := (c.port p).oct
  match c.lState p with
  | 0 => false
  | 7 => false
  | 6 => c.showtime p && o.swap.isNone && o.reload.isNone && o.pause.isNone
  | _ => true
/-- A foreground calibration is asked for: what it begins or refuses, and the result as R460 numbers it, 0 for begun
(R457 to R460). -/
def Chip.calStart (c : Chip) (t : Nat) : Chip × Nat :=
  if c.calRuns t then ((c.put CAL CAL_FG_STAT_RESULT 5).put CAL CAL_FG_STAT_TARGET t, 5)
  else if (if t < 8 then c.calPortOk (calPortOf t) else c.calLaneOk (calLaneOf t)) then
    let c := (c.modCal fun x => { x with running := x.running ++ [(t, c.tpll)] }).put CAL CAL_FG_STAT_BUSY 1
    if t < 8 then
      let p := calPortOf t
      if c.lState p = 6 then (c.pauseAnnounce p, 0)
      else ((c.modLink p fun x => { x with calReturn := c.lState p }).toLink p 11, 0)
    else ((c.modLane (calLaneOf t) fun x => { x with fgCal := true }).laneEval (calLaneOf t), 0)
  else (c.calEnd t 2, 2)

/-- CAL_FG_END (R456, R458 to R460): the calibration of a target ends with new trims in force; an Octavo port's after its
pause. -/
def execCalFgEnd (t : Fin 24) (vals : List (BitVec 8 × BitVec 16)) (s : State) : Res :=
  s.act fun c =>
    let p := calPortOf t
    let oct := t.val < 8 ∧ c.lState p = 6
    let o := (c.port p).oct
    if c.calRuns t ∧ (oct → o.pause = none ∧ o.cancels = 0) then
      let start := ((c.cal.running.find? fun r => r.1 == t.val).map (·.2)).getD 0
      let c := c.each vals fun c (x : BitVec 8 × BitVec 16) =>
        if x.1.toNat < trimCount t then c.modCal fun y => y.setTrim t x.1.toNat x.2.toInt else c
      let us := if oct then 2971 else (c.tpll - start) / 1250
      let h := c.tempMax
      let c := (c.put CAL CAL_FG_TIME_TIME (min 65535 us)).modCal fun x => { x with temps := x.temps.set t h, lastFg := x.lastFg.set t x.runCyc }
      let c := c.calEnd t 1
      if t.val < 8 then
        let c := (c.putBit CAL CAL_BG_DUE_P_DUE t false).put (lpB p) PMA_STAT_ADC_CAL_VALID 1
        if oct then c else c.calReturn p
      else
        let l := calLaneOf t
        ((c.putBit CAL CAL_BG_DUE_L_DUE (t - 8) false).modLane l fun x => { x with fgCal := false }).laneEval l
    else c

/-- Run goes on by n TPLL cycles: the intervals of the scheduler count (R461). -/
def Chip.calTick (n : Nat) (c : Chip) : Chip :=
  if c.pwr.mode = 0 then c.modCal fun x => { x with runCyc := x.runCyc + n } else c
/-- The scheduler names the target (R461). -/
def Chip.calSched (c : Chip) (t : Nat) : Bool :=
  if t < 8 then c.bit CAL CAL_SCHED_PORT_VALUE t else c.bit CAL CAL_SCHED_LANE_VALUE (t - 8)
/-- A target is due: by its interval in minutes of Run, or, `temp`, by the movement of the highest die temperature (R461). -/
def Chip.calDue (c : Chip) (t : Nat) (temp : Bool) : Bool :=
  if temp then
    let d := c.get CAL CAL_TEMP_DELTA
    c.on CAL CAL_CTL_TEMP_TRIG && decide (d ≠ 0 ∧ 4 * d ≤ (c.tempMax - c.cal.temps.get t).natAbs)
  else decide (75000000000 * c.get CAL CAL_SCHED_INT_VALUE ≤ c.cal.runCyc - (c.cal.lastFg.get t).toNat)
/-- What the scheduler takes as a target's state when it waits for a change of it (R461; log entry 140). -/
def Chip.calKey (c : Chip) (t : Nat) : Nat :=
  if t < 8 then
    let p := calPortOf t
    let o := (c.port p).oct
    if c.lState p = 6 then 16 + (c.showtime p).toNat + 2 * o.swap.isSome.toNat + 4 * o.reload.isSome.toNat + 8 * o.pause.isSome.toNat
    else c.lState p
  else
    let l := calLaneOf t
    ofBits [c.laneRetimed l, c.laneFaulted l, c.on (laneB l) XN_STAT_LIVE] + 8 * c.trnState l
/-- A refused target is not tried again yet (R461). -/
def Chip.calWaits (c : Chip) (t : Nat) : Bool := c.cal.held.get t == 1 + c.calKey t || decide ((c.tpll : Int) < c.cal.retryAt.get t)
/-- The scheduler would start the target's calibration now (R461): a lane in BONDED mode only while every other enabled lane is
live. -/
def Chip.calReady (c : Chip) (t : Nat) : Bool :=
  c.calSched t && (c.calDue t false || c.calDue t true) && !c.calWaits t && !c.calRuns t &&
    (t < 8 || 16 ≤ t || c.hostMode != 2 || hostLanes.all fun h => h == calLaneOf t || !c.laneOn h || c.on (laneB h) XN_STAT_LIVE)
/-- CAL_SCHEDULER_DUE (R461): the target, the lowest that is due, is due by its interval or, `temp`, by temperature; a refused
one waits for a change of its state. -/
def execCalSchedulerDue (t : Fin 24) (temp : Bool) (s : State) : Res :=
  s.act fun c =>
    if c.pwr.mode = 0 ∧ c.get CAL CAL_SCHED_INT_VALUE ≠ 0 ∧ c.cal.sched = none ∧ c.calDue t temp ∧ c.calReady t ∧
        (List.range t.val).all fun u => !c.calReady u then
      let x := c.calStart t
      x.1.modCal fun y => { y with
        sched := if x.2 = 0 then some t.val else none, held := if x.2 = 2 then y.held.set t (1 + c.calKey t) else y.held }
    else c

end Sys2Proof.Machine
end

