-- ==== Sys2Proof/Machine/Age.lean ====
section
/-! DEFINITION. Ageing (14_calibration_and_ageing.md R463 to R471): powered hours, the hourly measurement, the ledger with
its projections, and the planner. Targets are numbered as in AGE_READ: 0 to 7 islands, 8 to 15 ports, 16 to 31 lanes. -/

namespace Sys2Proof.Machine

/-- a / b rounded to the nearest, halves up (log entry 88). -/
def roundDiv (a : Int) (b : Nat) : Int := (2 * a + b) / (2 * b)

/-- The present margin of a port in 0.1 dB or eye height of a lane in mV, while it is up (R464): k from 0, ports first. -/
def Chip.ageMargin (c : Chip) (k : Nat) : Option Int :=
  if k < 8 then
    let p : Port := Fin.ofNat 8 k
    if c.lState p = 7 ∨ c.showtime p then some (c.getS (lpB p) LM_STAT_SNR_MARGIN) else none
  else
    let l : Lane := Fin.ofNat 16 (k - 8)
    if c.laneUp l then some (c.get (laneB l) XN_EYE_HEIGHT : Nat) else none
/-- The lower of two values. -/
def lowOf (a : Option Int) (b : Int) : Option Int := some (match a with | some x => min x b | none => b)
/-- A margin's hour goes on (R464; log entry 85). -/
def AgeSum.see (x : AgeSum) (m : Option Int) : AgeSum :=
  match m with
  | some v => { x with low := lowOf x.low v }
  | none => { x with whole := false }
/-- A margin's hour ends and the next begins. -/
def AgeSum.turn (x : AgeSum) (m : Option Int) : AgeSum :=
  let x := if x.whole then (match x.low with | some v => { x with sum := x.sum + v, n := x.n + 1 } | none => x) else x
  { x with whole := m.isSome, low := m }
/-- Powered hours go on by n TPLL cycles of Run or Doze (R465), and the margins are seen (R464). -/
def Chip.ageTick (n : Nat) (c : Chip) : Chip :=
  if 1 < c.pwr.mode then c
  else
    let hour := 4500000000000
    let t := c.age.cyc + n
    let l2 := c.get CLK CLK_LEVEL_ACTUAL = 2
    let u := c.age.cycL2 + if l2 then n else 0
    let h := c.tempMax
    let c := c.modAge fun x => { x with
      cyc := t % hour, cycL2 := u % hour
      sums := Vector.ofFn fun i => x.sums[i].see (c.ageMargin i.val)
      tHour := some (match x.tHour with | some v => max v h | none => h) }
    (c.putWide (AGE + AGE_HOURS_HOURS.off) 2 (c.hours + t / hour)).putWide (AGE + AGE_L2H_HOURS.off) 2 (c.hoursL2 + u / hour)

/-- First pair of each island and the pairs it has (R463). -/
def agePairs : List (Nat × Nat) := [(0, 2), (2, 6), (8, 8), (16, 8), (24, 8), (32, 8), (40, 4), (44, 4)]
/-- The largest of a list of values. -/
def maxOf (l : List Int) : Int := l.tail.foldl max (l.headD 0)

/-- DUE of a proposal: powered hours until it is due (R469). -/
def Chip.propLeft (c : Chip) (a : AgeProp) : Nat := a.dueAt - c.hours
/-- The proposal waits for approval: with APPROVE = 1, and a VGUARD always (R469, R470). -/
def Chip.propWaits (c : Chip) (a : AgeProp) : Bool := (a.kind == 1 || c.on AGE AGE_POLICY_APPROVE) && !a.approved
/-- A proposal's action may be taken at this hourly step (R469); a VGUARD's is taken by its check (R470). -/
def Chip.propDue (c : Chip) (a : AgeProp) : Bool :=
  a.kind != 1 && !c.propWaits a && (c.on AGE AGE_POLICY_APPROVE || c.propLeft a == 0)

/-- One due proposal at an hourly step (R468, R471); `mode` says that REG_LOCK.MODE locks the lanes' rates. -/
def Chip.propTry (mode : Bool) (c : Chip) (i : Fin 4) : Chip :=
  match c.age.props[i] with
  | none => c
  | some a =>
    if c.propDue a = false then c
    else
      let retry := fun (c : Chip) (a : AgeProp) =>
        if 24 ≤ a.tries + 1 then c.ageFailed i a else c.modProp i fun _ => some { a with tries := a.tries + 1 }
      if a.kind = 2 then
        let p : Port := Fin.ofNat 8 (a.target - 8)
        let b := lpB p
        if a.inReload ∧ (c.port p).oct.reload.isSome then c
        else
          let a := { a with inReload := false }
          if 24 ≤ a.tries then c.ageFailed i a
          else if c.showtime p = false ∨ (c.port p).oct.master = false ∨ c.reloadHeld p ≠ 0 ∨ (c.port p).oct.reload.isSome then retry c a
          else
            let c :=
              if a.value = 0xFF then (if a.wrote then c else c.put b OCT_MARGIN_TARGET (c.get b OCT_MARGIN_TARGET - 5))
              else if c.on b OCT_STAT_DUPLEX_ACT then c.put b OCT_PART_RX_RATE a.value
              else c.put b OCT_CTL_GRADE a.value
            let c := c.reloadWritten p
            if (c.port p).oct.reload.isSome then c.modProp i fun _ => some { a with tries := a.tries + 1, inReload := true, wrote := true }
            else retry c { a with wrote := true }
      else
        let l : Lane := Fin.ofNat 16 (a.target - 16)
        if mode ∨ (c.hostMode = 0 ∧ l.val < 8 ∨ c.hostMode = 4 ∧ l.val < 4) = false then retry c a
        else
          let on := c.laneOn l
          let old := c.reg (laneB l + XN_CTL_ENABLE.off)
          let c := if on then (c.put (laneB l) XN_CTL_ENABLE 0).laneCtlWritten l old else c
          let c := c.put (laneB l) XN_CTL_RATE a.value
          let old := c.reg (laneB l + XN_CTL_ENABLE.off)
          let c := if on then (c.put (laneB l) XN_CTL_ENABLE 1).laneCtlWritten l old else c
          c.ageTaken i a

/-- AGEING_HOURLY_STEP (R463, R464, R469, R471): d of the 48 pairs in ppm (log entry 81), then the due actions. -/
def execAgeingHourlyStep (d : List Int) (s : State) : Res :=
  let mode := s.lock.bits.getLsbD 1
  s.act fun c =>
    if c.pwr.mode ≠ 0 then c
    else
      let h := c.tempMax
      let c := c.modAge fun x =>
        let t := max h (x.tHour.getD h)
        { x with
          d := agePairs.map fun (a, n) => maxOf ((d.drop a).take n)
          sums := Vector.ofFn fun i => x.sums[i].turn (c.ageMargin i.val)
          tMax := if x.tN = 0 then t else max x.tMax t
          tSum := x.tSum + t, tN := x.tN + 1, tHour := none }
      c.each ([0, 1, 2, 3] : List (Fin 4)) (Chip.propTry mode)

/-- HOUR_LOG_WRITE (R454, R465): the counts and the running sums go to the next place of the hour log. -/
def execHourLogWrite (s : State) : Res :=
  s.act fun c =>
    let n := match c.age.log with | r :: _ => (r.slot + 1) % 16 | [] => 0
    let r : HourRec := { hours := c.hours, l2 := c.hoursL2, sums := c.age.sums, temp := (c.age.tSum, c.age.tN, c.age.tMax), slot := n }
    (c.modAge fun x => { x with log := (r :: x.log.filter fun y => y.slot != n) }).mtpAdd { record := 0x60 + n, words := [r.hours, r.l2] }
/-- The counts and sums go on from the newest good hour-log record (R465). -/
def Chip.ageResume (c : Chip) : Chip :=
  match c.age.log.find? fun r => r.good with
  | some r =>
    let c := c.modAge fun x => { x with sums := r.sums, tSum := r.temp.1, tN := r.temp.2.1, tMax := r.temp.2.2, cyc := 0, cycL2 := 0 }
    (c.putWide (AGE + AGE_HOURS_HOURS.off) 2 r.hours).putWide (AGE + AGE_L2H_HOURS.off) 2 r.l2
  | none =>
    let c := c.modAge fun x => { x with sums := Vector.replicate 24 {}, tSum := 0, tN := 0, tMax := 0, cyc := 0, cycL2 := 0 }
    (c.putWide (AGE + AGE_HOURS_HOURS.off) 2 0).putWide (AGE + AGE_L2H_HOURS.off) 2 0

/-- Ledger entries and hour-log records whose check fails at power-on, by their slots as Chip.nvmLoad numbers them, are good no
more (R453, R465; log entry 87). -/
def Chip.ageLoad (c : Chip) (bad : List Nat) : Chip :=
  let c := c.modAge fun x => { x with
    ledger := x.ledger.map fun e => if bad.contains (2 * (256 + e.words.getD 0 0 % 65536 % 192)) then { e with good := false } else e
    log := x.log.map fun r => if bad.contains (2 * (0x60 + r.slot)) then { r with good := false } else r }
  if c.age.ledger.all (·.good) && c.age.log.all (·.good) then c
  else (c.put CAL CAL_NVM_STAT_MTP_FALLBACK 1).evt CAL CAL_EVT_NVM_FALLBACK

/-- 1 in the fixed point of the fits, with 40 fraction bits (log entry 88). -/
abbrev fx : Nat := 2 ^ 40
/-- ln 2. -/
abbrev ln2 : Nat := 762123384786
/-- ln x for x ≥ 1, in fixed point: twice the area hyperbolic tangent of (m − 1) / (m + 1), with x = m × 2^e. -/
def lnFx (x : Nat) : Int :=
  let e := Nat.log2 x
  let m := x * fx / 2 ^ e
  let z := (m - fx) * fx / (m + fx)
  let z2 := z * z / fx
  let (_, a) := (List.range 20).foldl (fun (p, a) k => (p * z2 / fx, a + p / (2 * k + 1))) (z, 0)
  ((e * ln2 + 2 * a : Nat) : Int)
/-- e to the y in fixed point, y at most 64. -/
def expFx (y : Int) : Nat :=
  let y := min y (64 * fx : Nat)
  let k := y / ln2
  let r := (y - k * ln2).toNat
  let (_, a) := (List.range 24).foldl (fun (p, a) j => (p * r / fx / (j + 1), a + p)) (fx, 0)
  if 0 ≤ k then a * 2 ^ k.toNat else a / 2 ^ (-k).toNat

/-- Sums of a least-squares fit: n, Σx, Σy, n Σxy − Σx Σy, n Σxx − (Σx)². -/
def fitSums (l : List (Int × Int)) : Int × Int × Int × Int × Int :=
  let n : Int := l.length
  let sx := l.foldl (fun a p => a + p.1) 0
  let sy := l.foldl (fun a p => a + p.2) 0
  (n, sx, sy, n * l.foldl (fun a p => a + p.1 * p.2) 0 - sx * sy, n * l.foldl (fun a p => a + p.1 * p.1) 0 - sx * sx)

/-- The good entries, newest first (R453). -/
def Chip.ageGood (c : Chip) : List AgeEntry := c.age.ledger.filter (·.good)
/-- Powered hours of an entry. -/
def AgeEntry.hours (e : AgeEntry) : Nat := e.words.getD 1 0
/-- d of island k in an entry. -/
def AgeEntry.island (e : AgeEntry) (k : Nat) : Nat := e.words.getD (5 + k / 2) 0 / 2 ^ (16 * (k % 2)) % 2 ^ 16
/-- The margin of a port or lane in an entry, if measured: 0.01 dB or 0.1 mV. -/
def AgeEntry.margin (e : AgeEntry) (k : Nat) : Option Int :=
  if k < 8 then
    let v := e.words.getD (9 + k / 4) 0 / 2 ^ (8 * (k % 4)) % 256
    if v = 0x80 then none else some (25 * signed 8 v)
  else
    let v := e.words.getD (11 + (k - 8) / 4) 0 / 2 ^ (8 * (k % 4)) % 256
    if v = 0xFF then none else some (10 * v)

/-- The rate of R467 as hours and the seconds they took, and whether it is the assumed one. -/
def Chip.ageRate (c : Chip) : Nat × Nat × Bool :=
  let l := c.ageGood.filter fun e => e.words.getD 3 0 != 0
  match c.ageGood, l.getLast? with
  | a :: _, some o =>
    let s := a.words.getD 3 0 - o.words.getD 3 0
    if a.words.getD 3 0 ≠ 0 ∧ 31557600 ≤ s then (a.hours - o.hours, s, false) else (3000, 31557600, true)
  | _, _ => (3000, 31557600, true)
/-- Years to limit in tenths from the hours left a / b, limited to 0 to 999.9 (R467). -/
def Chip.ytlOf (c : Chip) (a : Int) (b : Nat) : Nat :=
  let (h, s, _) := c.ageRate
  if h = 0 then (if a ≤ 0 then 0 else 9999)
  else (max 0 (min 9999 (roundDiv (10 * a * s) (b * h * 31557600)))).toNat

/-- Limit and guard credit of an island in ppm (R467; log entry 81). -/
def Chip.dLim (c : Chip) (k : Nat) : Nat × Nat :=
  match c.nvm 5 with
  | some w => (w.getD (48 + k) 25000, w.getD (56 + k) 4000)
  | none => (25000, 4000)
/-- The projection of an island: YTL, 0xFFFF unknown, and trend in ppm per 1,000 h (R467). -/
def Chip.islandFit (c : Chip) (k : Nat) : Nat × Int :=
  let l := c.ageGood.filter fun e => e.island k != 0 && e.hours != 0
  if l.length < 3 then (0xFFFF, 0)
  else
    let hNow := ((c.ageGood.head?).map AgeEntry.hours).getD 0
    let (n, sx, sy, p, q) := fitSums (l.map fun e => (lnFx e.hours, lnFx (e.island k)))
    let slope := if q = 0 then Config.ageSlope c.freeCtr else p * fx / q
    let m : Int := max ((fx / 10 : Nat) : Int) (min ((fx / 2 : Nat) : Int) slope)
    let lnA := (sy * fx - m * sx) / (n * fx)
    let lim := (c.dLim k).1 + c.age.guard * (c.dLim k).2
    let h := expFx ((lnFx lim - lnA) * fx / m)
    let at_ := fun (t : Nat) => (expFx (lnA + m * lnFx t / fx) : Int)
    (c.ytlOf ((h : Int) - hNow * fx) fx, satS 16 (roundDiv (at_ (hNow + 1000) - at_ hNow) fx))
/-- The limit of a port in 0.01 dB or of a lane in 0.1 mV (R467). -/
def Chip.mLim (c : Chip) (k : Nat) : Int :=
  if k < 8 then
    let p : Port := Fin.ofNat 8 k
    if c.lState p = 6 then 10 * c.get (lpB p) OCT_MARGIN_MIN else 10 * c.getS (lpB p) LM_CTL_SNR_MIN
  else 10 * c.get AGE AGE_LANE_LIM_LIM
/-- The projection of port or lane k: YTL and trend in 0.01 dB or 0.1 mV per 1,000 h (R467). -/
def Chip.marginFit (c : Chip) (k : Nat) : Nat × Int :=
  let since := (c.age.sinceSeq.get (8 + k)).toNat
  let l := if since = 0 then c.age.ledger else c.age.ledger.take (c.age.total + 1 - since)
  let l := ((l.filter (·.good)).filterMap fun e => (e.margin k).map fun m => ((e.hours : Int), m)).take 12
  if l.length < 3 then (0xFFFF, 0)
  else
    let hNow := ((c.ageGood.head?).map AgeEntry.hours).getD 0
    let (n, sx, sy, p, q) := fitSums l
    let (p, q) := if q = 0 then (Config.ageSlope c.freeCtr, 1) else (p, q)
    let trend := satS 16 (roundDiv (1000 * p) q.toNat)
    if 0 ≤ p then (9999, trend)
    else (c.ytlOf (-(c.mLim k * n * q - q * sy - p * (n * hNow - sx))) (n * -p).toNat, trend)
/-- The projection of a target. -/
def Chip.ageFit (c : Chip) (t : Nat) : Nat × Int := if t < 8 then c.islandFit t else c.marginFit (t - 8)

/-- The lane may have its rate lowered by the planner in the active mode (R468). -/
def Chip.ageLane (c : Chip) (l : Nat) : Bool := (c.hostMode == 0 && decide (l < 8)) || (c.hostMode == 4 && decide (l < 4))
/-- Kind and new value of the action that the planner may propose on a target, none where R468 gives none. -/
def Chip.ageAction (c : Chip) (t : Nat) : Option (Nat × Nat) :=
  if t < 8 then
    if [1, 4, 5, 6].contains t ∧ c.on AGE AGE_POLICY_VGUARD ∧ c.age.guard < 4 then some (1, c.age.guard + 1) else none
  else if t < 16 then
    let p : Port := Fin.ofNat 8 (t - 8)
    let b := lpB p
    if c.on AGE AGE_POLICY_OCT = false ∨ c.showtime p = false ∨ (c.port p).oct.master = false then none
    else if c.on b OCT_STAT_DUPLEX_ACT then
      let r := c.get b OCT_PART_RX_RATE
      if 6 ≤ r then some (2, r - 4) else none
    else
      let g := c.get b OCT_STAT_GRADE_ACT
      if 1 < g then some (2, g - 1)
      else if c.get b OCT_MARGIN_MIN + 10 ≤ c.get b OCT_MARGIN_TARGET then some (2, 0xFF) else none
  else
    let l := t - 16
    let r := c.get (laneB (Fin.ofNat 16 l)) XN_CTL_RATE
    if c.on AGE AGE_POLICY_LANE ∧ c.ageLane l ∧ r < 2 then some (3, r + 1) else none

/-- A target whose proposal is pending, or whose action was taken or failed within the last ledger period (R469). -/
def Chip.ageBusy (c : Chip) (t : Nat) : Bool :=
  (c.age.props.toList.any fun x => match x with | some a => a.target == t | none => false) ||
    (let h := (c.age.lastAt.get t).toNat
     decide (h ≠ 0 ∧ c.hours + 1 - h < 720))
/-- Queues a proposal in a free slot (R468, R469). -/
def Chip.propose (c : Chip) (t : Nat) : Chip :=
  match c.ageAction t, ([0, 1, 2, 3] : List (Fin 4)).find? fun i => c.age.props[i].isNone with
  | some (k, v), some i =>
    let w := k * 2 ^ 28 + t * 2 ^ 16 + v * 2 ^ 8 + c.age.propSeq
    let due := c.hours + c.get AGE AGE_POLICY_NOTICE
    let c := (c.modProp i fun _ => some { word := w, dueAt := due }).modAge fun x => { x with propSeq := (x.propSeq + 1) % 256 }
    (c.evt AGE AGE_EVT_PROPOSED).plannerSave
  | _, _ => c
/-- Puts a target into a list ordered by its YTL, lowest first. -/
def ytlInsert (x : Nat × Nat) : List (Nat × Nat) → List (Nat × Nat)
  | [] => [x]
  | y :: t => if x.1 < y.1 then x :: y :: t else y :: ytlInsert x t

/-- The words 0 to 14 of a ledger entry written now (R466; log entry 87). -/
def Chip.ledgerWords (c : Chip) : List Nat :=
  let a := c.age
  let unset := c.fState = 0
  let w0 := 0xA6 * 2 ^ 24 + a.guard * 2 ^ 20 + a.acted.toNat * 2 ^ 16 + (unset || c.on FOLIO FOLIO_STAT_COARSE).toNat * 2 ^ 17 + a.seq
  let mean := if a.tN = 0 then c.tempMax else roundDiv a.tSum a.tN
  let top := if a.tN = 0 then c.tempMax else a.tMax
  let dd := fun k => max 0 (min 65535 (a.d.getD k 0)) |>.toNat
  let port := fun k => match a.sums[k]? with
    | some x => if x.n = 0 then 0x80 else unsigned 8 (max (-127) (min 127 (roundDiv (2 * x.sum) (5 * x.n))))
    | none => 0x80
  let lane := fun k => match a.sums[8 + k]? with
    | some x => if x.n = 0 then 0xFF else (max 0 (min 254 (roundDiv x.sum x.n))).toNat
    | none => 0xFF
  let four := fun (f : Nat → Nat) k => f (4 * k) + 2 ^ 8 * f (4 * k + 1) + 2 ^ 16 * f (4 * k + 2) + 2 ^ 24 * f (4 * k + 3)
  [w0, c.hours, c.hoursL2, if unset then 0 else c.now / 65536000000000 % 2 ^ 32, unsigned 16 mean * 2 ^ 16 + unsigned 16 top] ++
    (List.range 4).map (fun k => dd (2 * k) + 2 ^ 16 * dd (2 * k + 1)) ++ (List.range 2).map (four port) ++ (List.range 4).map (four lane)

/-- A ledger entry is written, the years to limit are projected and proposals are queued (R466 to R469). -/
def Chip.ledgerEntry (c : Chip) : Chip :=
  let w := c.ledgerWords
  let crc := (crc32 (w.flatMap (be 4))).toNat
  let seq := c.age.seq
  let now := fun (k : Nat) => c.age.sums[k]?.bind fun x => if x.n = 0 then none else some (roundDiv x.sum x.n)
  let c := c.modAge fun x => { x with
    ledger := ({ words := w ++ [crc] } :: x.ledger).take 192, seq := (x.seq + 1) % 65536, total := x.total + 1, acted := false
    tSum := 0, tN := 0, tMax := 0, sums := x.sums.map fun y => { y with sum := 0, n := 0 } }
  let c := (c.mtpAdd { record := 256 + seq % 192, words := w }).evt AGE AGE_EVT_ENTRY
  let est := c.ageRate.2.2
  let c := c.modAge fun x => { x with rateEst := est }
  let c := c.each (List.range 32) fun c t =>
    let (y, r) := c.ageFit t
    let c := (c.put (bk t AGE) AGE_YTL_VALUE y).putS (bk t AGE) AGE_TREND_VALUE r
    if t < 8 then c.put (bk t AGE) AGE_NOW_VALUE (max 0 (min 65535 (c.age.d.getD t 0))).toNat
    else match now (t - 8) with
      | some v => c.putS (bk t AGE) AGE_NOW_VALUE v
      | none => c
  let due := ((List.range 32).filter fun t => decide (c.get (bk t AGE) AGE_YTL_VALUE < c.get AGE AGE_CTL_HORIZON)).filter fun t =>
    (c.ageAction t).isSome && !c.ageBusy t
  let due := due.foldl (fun l t => ytlInsert (c.get (bk t AGE) AGE_YTL_VALUE, t) l) []
  (c.each (due.map (·.2)) Chip.propose).tickFree
/-- LEDGER_ENTRY (R466): 720 powered hours after the last. -/
def execLedgerEntry (s : State) : Res := s.act Chip.ledgerEntry

/-- A proposal is approved (R469, R470). -/
def Chip.propApprove (c : Chip) (i : Fin 4) : Chip :=
  match c.age.props[i] with
  | some a => (c.modProp i fun _ => some { a with approved := true }).plannerSave
  | none => c
/-- A proposal is vetoed (R469). -/
def Chip.propVeto (c : Chip) (i : Fin 4) : Chip :=
  match c.age.props[i] with
  | some _ => ((c.modProp i fun _ => none).evt AGE AGE_EVT_VETOED).plannerSave
  | none => c
/-- The slot that AGE_PROP_SEL selects. -/
def Chip.propSel (c : Chip) : Fin 4 := Fin.ofNat 4 (c.get AGE AGE_PROP_SEL_SLOT)

/-- VGUARD_CHECK (R470): the means of VDD_CORE in µV over the second before an approval and the second after it. -/
def execVguardCheck (before after : Nat) (s : State) : Res :=
  s.act fun c =>
    match ([0, 1, 2, 3] : List (Fin 4)).find? fun i => match c.age.props[i] with | some a => a.kind == 1 && a.approved | none => false with
    | none => c
    | some i =>
      match c.age.props[i] with
      | none => c
      | some a =>
        if before + 5000 ≤ after then (c.modAge fun x => { x with guard := min 4 (x.guard + 1) }).ageTaken i a
        else
          let h := c.hours
          (((c.modProp i fun _ => none).modAge fun x => { x with lastAt := x.lastAt.set a.target (h + 1) }).evt AGE AGE_EVT_GUARD_FAIL).plannerSave

/-- AGE_POLICY has been written (R454, R469): the proposals of a kind now off are dropped. -/
def Chip.policyWritten (c : Chip) : Chip :=
  let on := fun (a : AgeProp) => if a.kind = 1 then c.on AGE AGE_POLICY_VGUARD else if a.kind = 2 then c.on AGE AGE_POLICY_OCT else c.on AGE AGE_POLICY_LANE
  (c.each ([0, 1, 2, 3] : List (Fin 4)) fun c (i : Fin 4) => c.modProp i fun x => x.filter on).plannerSave

/-- AGE_STAT as it reads (R472). -/
def Chip.ageStat (c : Chip) : Nat :=
  c.age.ledger.length + 2 ^ 8 * c.age.guard + 2 ^ 11 * (c.age.props.toList.countP (·.isSome)) + 2 ^ 14 * c.age.rateEst.toNat
/-- The selected proposal's action word as it reads. -/
def Chip.propWord (c : Chip) : Nat := match c.age.props[c.propSel] with | some a => a.word | none => 0
/-- AGE_PROP_DUE of the selected slot as it reads. -/
def Chip.propDueRead (c : Chip) : Nat :=
  match c.age.props[c.propSel] with
  | some a => if c.propWaits a then 0xFFFF else c.propLeft a
  | none => 0

/-- The planner state comes from its record (R451, R453): with none good, the register defaults. -/
def Chip.plannerLoad (c : Chip) : Chip :=
  let clear := fun (c : Chip) => c.modAge fun x => { x with guard := 0, props := Vector.replicate 4 none, propSeq := 0, seq := x.total % 65536 }
  match c.nvm 0x50 with
  | some w =>
    let g := fun i => w.getD i 0
    let c := clear (c.setReg (AGE + AGE_POLICY_VGUARD.off) (BitVec.ofNat 16 (g 0)))
    c.modAge fun x => { x with
      guard := g 1, propSeq := g 15, seq := g 14
      props := Vector.ofFn fun i =>
        if g (2 + 3 * i.val) = 0 then none
        else some { word := g (2 + 3 * i.val), dueAt := g (3 + 3 * i.val), approved := g (4 + 3 * i.val) % 2 == 1, tries := g (4 + 3 * i.val) / 2 } }
  | none => clear (c.setReg (AGE + AGE_POLICY_VGUARD.off) (resetOf (AGE + AGE_POLICY_VGUARD.off)))

end Sys2Proof.Machine
end

