-- ==== Sys2Proof/Machine/Bist.lean ====
section
/-! DEFINITION. Self test (15_self_test_and_faults.md R473 to R489): memory BIST with repair, and the TAP. -/

namespace Sys2Proof.Machine

/-- Words of a BIST target (R473). -/
def bistWords (t : Nat) : Nat := if t < 32 then 131072 else if t < 36 then 8192 else 6144
/-- The line port whose DSP memories a target is. -/
def bistPort (t : Nat) : Port := Fin.ofNat 8 (t - 36)

/-- A spare of a Quire bank: rows are 0 to 7, columns 8 and 9; what it replaces (R475, R484). -/
def Chip.spare (c : Chip) (t k : Nat) : Option Nat :=
  let v := (c.bist.spares.get (16 * t + k)).toNat
  if v = 0 then none else some (v - 1)
/-- The spares of a range that are in use. -/
def Chip.spareUse (c : Chip) (t a n : Nat) : List Nat := ((List.range n).filter fun k => (c.spare t (a + k)).isSome)
/-- Gives the first free spare of a range to a row or bit position; whether one was free. -/
def Chip.spareGive (c : Chip) (t a n v : Nat) : Chip × Bool :=
  match (List.range n).find? fun k => (c.spare t (a + k)).isNone with
  | some k => (c.modBist fun x => { x with spares := x.spares.set (16 * t + a + k) (v + 1) }, true)
  | none => (c, false)
/-- BIST_RES shows the spares in use (R495). -/
def Chip.spareShow (c : Chip) (t : Nat) : Chip :=
  (c.put (bk t BIST) BIST_RES_ROWS (c.spareUse t 0 8).length).put (bk t BIST) BIST_RES_COLS (c.spareUse t 8 2).length
/-- The data words of a bank's repair record (R484). -/
def Chip.repairWords (c : Chip) (t : Nat) : List Nat :=
  let e := fun k => match c.spare t k with | some v => 32768 + v | none => 0
  (List.range 5).map fun i => 65536 * e (2 * i) + e (2 * i + 1)
/-- A bank's repair map from its record (R480, R484). -/
def Chip.repairFrom (c : Chip) (t : Nat) (w : List Nat) : Chip :=
  c.each (List.range 10) fun c k =>
    let e := w.getD (k / 2) 0 / (if k % 2 = 0 then 65536 else 1) % 65536
    let v := if 32768 ≤ e then (if k < 8 then e % 1024 else e % 256) + 1 else 0
    c.modBist fun x => { x with spares := x.spares.set (16 * t + k) v }

/-- Rows with a failing cell in bit position b; the row of word address a is a / 128 (R475). -/
def rowsOfBit (fails : List (Nat × Nat)) (b : Nat) : List Nat := ((fails.filter fun f => f.2 == b).map fun f => f.1 / 128).eraseDups
/-- Spares for the failing cells of pass 1, columns first (R477); whether all are covered and whether any spare was given. -/
def Chip.assignSpares (c : Chip) (t : Nat) (fails : List (Nat × Nat)) : Chip × Bool × Bool :=
  let free := 8 - (c.spareUse t 0 8).length
  let wide := (List.range 145).filter fun b => free < (rowsOfBit fails b).length
  let (c, left, any) := wide.foldl (fun (x : Chip × List (Nat × Nat) × Bool) b =>
    let (c, ok) := x.1.spareGive t 8 2 b
    if ok then (c, x.2.1.filter fun f => f.2 != b, true) else x) (c, fails, false)
  let rows := (left.map fun f => f.1 / 128).eraseDups
  rows.foldl (fun (x : Chip × Bool × Bool) r =>
    let (c, ok) := x.1.spareGive t 0 8 r
    (c, x.2.1 && ok, x.2.2 || ok)) (c, true, any)
/-- A manual request for a spare row of this bank (R485); whether a spare was given. -/
def Chip.bistMan (c : Chip) (t : Nat) : Chip × Bool :=
  if c.on BIST BIST_MAN_VALID ∧ c.get BIST BIST_MAN_BANK = t then
    let r := c.get BIST BIST_MAN_ROW
    let c := c.put BIST BIST_MAN_VALID 0
    if (c.spareUse t 0 8).any fun k => c.spare t k == some r then (c, false)
    else
      let (c, ok) := c.spareGive t 0 8 r
      if ok then (c, true) else (c.evt BIST BIST_EVT_MAN_DROP, false)
  else (c, false)

/-- The fallback of keep bank K1, K2 or K3 (13_power_and_reset.md R438). -/
def Chip.bankLost (c : Chip) (k : Nat) : Chip :=
  match k with
  | 1 => c.each allPorts fun c p => (c.modLink p fun x => { x with snap := none }).put (lpB p) DSP_STAT_SNAP_VALID 0
  | 2 => c.each allPorts fun c p => c.modOct p fun x => { x with k2 := none }
  | 3 => c.servoRestart.ageResume
  | _ => c

/-- Why a test of a target is refused (R481), as the result codes of R380 name it: 1 BUSY, 2 BAD_PARAM, 3 BLOCK_OFF,
4 REFUSED for a target in use; 0 for accepted. `cells`: the Quire bank holds a cell. -/
def Chip.bistRefusal (c : Chip) (t : Nat) (force cells : Bool) : Nat :=
  if c.bist.run.isSome then 1
  else if t = 32 ∨ 44 ≤ t then 2
  else if c.pwr.mode ≠ 0 then 3
  else
    let used := if t < 32 then cells else if t < 36 then true else c.lState (bistPort t) != 0
    if used && !force then 4 else 0
/-- A test of a target is asked for: it is refused, or the target leaves service (R476, R481, R482). -/
def Chip.bistStart (c : Chip) (t : Nat) (force cells : Bool) : Chip × Nat :=
  let r := c.bistRefusal t force cells
  if r ≠ 0 then
    ((c.put BIST BIST_STAT_RESULT 4).put BIST BIST_STAT_TARGET t, r)
  else
    let c := c.modBist fun x => { x with
      run := some t, bank := if t < 32 then some t else none, passes := 0, bad := false, sigBad := false, first := none }
    let c := (c.put BIST BIST_STAT_BUSY 1).put BIST BIST_STAT_PHASE (if t < 32 && cells then 1 else 2)
    let c := (c.putWide (bk t (BIST + BIST_COUNT_VALUE.off)) 2 0).putWide (bk t (BIST + BIST_EXP_VALUE.off)) 2 (10 * bistWords t)
    (if t < 32 then c.poolChanged.qSettle else if 36 ≤ t then c.toLink (bistPort t) 0 else c, 0)

/-- The places of the frames of a queue that have a cell in bank b: frames are packed from the first byte of the first cell on
(08_quire_buffer.md R266; log entry 91). -/
def framesIn (b : Nat) (cells : List Nat) : Nat → Nat → List QFrame → List Nat
  | _, _, [] => []
  | i, at_, f :: t =>
    let n := storedBytes [f]
    let here := decide (0 < n) && ((cells.drop (at_ / 256)).take ((at_ + n + 255) / 256 - at_ / 256)).contains b
    (if here then [i] else []) ++ framesIn b cells (i + 1) (at_ + n) t
/-- Every frame that still has a cell in the forced bank leaves Quire whole, discarded and counted, the neighbour's frames too
(R482, 08_quire_buffer.md R274). -/
def Chip.bistDiscard (c : Chip) : Chip :=
  match c.bist.bank with
  | none => c
  | some b =>
    let c := c.each allQueues fun c q =>
      let s := c.quire.queues[q]
      let idx := framesIn b s.cells 0 0 s.frames
      if idx = [] then c
      else
        let fs := s.frames.zipIdx
        let gone := (fs.filter fun f => idx.contains f.2).map (·.1)
        let kept := (fs.filter fun f => !idx.contains f.2).map (·.1)
        let k := cellsOf (storedBytes kept)
        let cells := s.cells.filter (· != b)
        (c.countDiscards q 14 gone).modQ q fun x => { x.release (cellsOf (storedBytes s.frames) - k) with
          frames := kept, cells := cells.take k ++ (c.takeBanks (k - cells.length) x.rot).1 }
    let lost := c.quire.lent.filter fun x => x.cells.contains b
    ((c.countDiscards 0 14 (lost.map fun x => { bytes := x.bytes })).modQuire fun x => { x with
      lent := x.lent.filter fun y => !y.cells.contains b }).qSettle
/-- BIST_DRAIN_END (R476, R482): the time for the bank's cells to leave is over. -/
def execBistDrainEnd (s : State) : Res :=
  s.act fun c => if c.get BIST BIST_STAT_PHASE = 1 then c.bistDiscard.put BIST BIST_STAT_PHASE 2 else c

/-- A test ends with its result for the target, which returns to service, a port's adapted values zero when the test came to its
end (R476, R478 to R482; log entry 141). -/
def Chip.bistEnd (c : Chip) (t res : Nat) : Chip :=
  let b := bk t BIST
  let c := (c.put b BIST_RES_RESULT (res - 1)).spareShow t
  let c := if res = 2 then (c.put b BIST_RES_UNUSABLE 1).putBit BIST ⟨BIST_UNUSABLE_MAP.off + t / 16, 0, 16⟩ (t % 16) true else c
  let c := (((c.put BIST BIST_STAT_BUSY 0).put BIST BIST_STAT_PHASE 0).put BIST BIST_STAT_RESULT res).put BIST BIST_STAT_TARGET t
  let c := (c.modBist fun x => { x with run := none, bank := none }).evt BIST BIST_EVT_DONE
  let c := if res = 2 then c.evt BIST BIST_EVT_FAIL else c
  if t < 32 then c.poolChanged.qSettle else if t < 36 then c.bankLost (t - 32)
  else
    let p := bistPort t
    (if res = 3 then c else (c.modLink p fun x => { x with taps := [], centres := [] }).modOct p fun x => { x with weq0 := [], weq := [] }).portStart p
/-- A running test is cut short (R483). -/
def Chip.bistAbort (c : Chip) : Chip := match c.bist.run with | some t => c.bistEnd t 3 | none => c

/-- BIST_ADDR and BIST_BIT of a target (R479). -/
def Chip.bistFirst (c : Chip) (t : Nat) (first : Option (Nat × Nat)) (sigOnly : Bool) : Chip :=
  let b := bk t BIST
  match first with
  | some (a, n) => (c.putWide (b + BIST_ADDR_VALUE.off) 2 a).put b BIST_BIT_VALUE n
  | none => (c.putWide (b + BIST_ADDR_VALUE.off) 2 (2 ^ 32 - 1)).put b BIST_BIT_VALUE (if sigOnly then 0xFE else 0xFF)
/-- The first failing word with its lowest failing bit (R479). -/
def firstFail (fails : List (Nat × Nat)) : Option (Nat × Nat) :=
  match fails with
  | [] => none
  | f :: _ => some (f.1, ((fails.filter fun g => g.1 == f.1).map (·.2)).foldl min f.2)

/-- BIST_PASS_END (R474, R476 to R480, R485): a pass, or the reinitialisation, of the running test ends. `count`: operations
the pass completed; `fails`: word and bit of the failing cells, in the order found; `sig`: the signature; `sigOk`: it is that
of a fault-free target. -/
def execBistPassEnd (count : Nat) (fails : List (BitVec 17 × Fin 145)) (sig : BitVec 32) (sigOk : Bool) (s : State) : Res :=
  s.act fun c =>
    match c.bist.run with
    | none => c
    | some t =>
      let b := bk t BIST
      let fails := fails.map fun f => (f.1.toNat, f.2.val)
      let ph := c.get BIST BIST_STAT_PHASE
      if ph = 2 ∨ ph = 3 then
        let want := 10 * bistWords t
        let c := c.putWide (b + BIST_COUNT_VALUE.off) 2 (c.wide (b + BIST_COUNT_VALUE.off) 2 + min count want)
        let c := (c.putWide (b + BIST_SIG_VALUE.off) 2 sig.toNat).modBist fun x => { x with passes := x.passes + 1, sigBad := x.sigBad || !sigOk }
        if ph = 2 then
          let c := c.modBist fun x => { x with first := firstFail fails }
          let (c, man) := if t < 32 then c.bistMan t else (c, false)
          let (c, ok, any) := if t < 32 then c.assignSpares t fails else (c, fails.isEmpty, false)
          let c := c.modBist fun x => { x with bad := !ok }
          if man || any then (c.putWide (b + BIST_EXP_VALUE.off) 2 (2 * want)).put BIST BIST_STAT_PHASE 3 else c.put BIST BIST_STAT_PHASE 4
        else (c.modBist fun x => { x with bad := x.bad || !fails.isEmpty }).put BIST BIST_STAT_PHASE 4
      else if ph = 4 then
        let done := c.wide (b + BIST_COUNT_VALUE.off) 2 = c.wide (b + BIST_EXP_VALUE.off) 2
        let bad := c.bist.bad || c.bist.sigBad
        let c := c.bistFirst t c.bist.first (done && c.bist.sigBad && !c.bist.bad && c.bist.first.isNone)
        c.bistEnd t (if done then (if bad then 2 else 1) else 3)
      else c

/-- The power-on test of one target (R480): the failing cells of pass 1, and whether the second pass or a signature fails. -/
def Chip.bistPor1 (c : Chip) (t : Nat) (fails : List (Nat × Nat)) (second : Bool) : Chip :=
  let b := bk t BIST
  let (c, ok, any) := if t < 32 then c.assignSpares t fails else (c, fails.isEmpty, false)
  let n := 10 * bistWords t * (if any then 2 else 1)
  let c := (c.putWide (b + BIST_COUNT_VALUE.off) 2 n).putWide (b + BIST_EXP_VALUE.off) 2 n
  let c := c.putWide (b + BIST_SIG_VALUE.off) 2 (Config.bistSig t c.freeCtr).toNat
  let c := (c.bistFirst t (firstFail fails) (ok && second && fails.isEmpty)).spareShow t
  if ok && !second then c.put b BIST_RES_RESULT 0
  else
    let c := ((c.put b BIST_RES_RESULT 1).put b BIST_RES_UNUSABLE 1).putBit BIST ⟨BIST_UNUSABLE_MAP.off + t / 16, 0, 16⟩ (t % 16) true
    let c := c.evt BIST BIST_EVT_FAIL
    if t = 32 then c.evt BIST BIST_EVT_K0_FAIL else c
/-- The power-on test of every memory (R480): `fails` by target, `second`: targets whose second pass or signature fails,
`stores`: the descriptor or pointer store fails. -/
def Chip.bistPor (c : Chip) (fails : List (Nat × Nat × Nat)) (second : List Nat) (stores : Bool) : Chip :=
  let c := c.modBist fun x => { x with run := none, bank := none, spares := [] }
  let c := c.each (List.range 32) fun c t => match c.nvm (0x30 + t) with | some w => c.repairFrom t w | none => c
  let c := c.each (List.range 44) fun c t => c.bistPor1 t ((fails.filter fun f => f.1 == t).map (·.2)) (second.contains t)
  let c := if stores then c.putBit BIST ⟨BIST_UNUSABLE_MAP.off + 2, 0, 16⟩ 12 true else c
  (c.evt BIST BIST_EVT_DONE).tickFree

/-- The instruction that a TAP code stands for: every code not listed is BYPASS (R487). -/
def tapInstr (code : Nat) : Nat := if [0x00, 0x01, 0x02, 0x04, 0x05, 0x08, 0x09].contains code then code else 0xFF
/-- TAP_INSTRUCTION_UPDATE (R487 to R489): an instruction takes effect, and the core loses or regains its balls. -/
def execTapInstructionUpdate (code : Byte) (s : State) : Res :=
  s.act fun c =>
    let n := tapInstr code.toNat
    ((c.put TAP TAP_STAT_INSTR n).putB TAP TAP_STAT_CORE_OFF ([0x00, 0x04, 0x05, 0x08, 0x09].contains n)).put TAP TAP_STAT_TLR 0
/-- TAP_RESET (R486). -/
def execTapReset (s : State) : Res :=
  s.act fun c => ((c.put TAP TAP_STAT_INSTR 0x01).put TAP TAP_STAT_CORE_OFF 0).put TAP TAP_STAT_TLR 1

/-- Frames and bytes that a Roll engine holds (R493). -/
def RollSt.room (e : RollSt) (n : Nat) : Bool :=
  decide (e.held.length + 1 ≤ 4 ∧ e.held.foldl (fun a f => a + f.bytes.length) 0 + n ≤ 16384)
/-- One step of a Roll engine's LFSR, polynomial x^32 + x^22 + x^2 + x + 1 (R492; its form is log entry 94). -/
def rollStep (x : Nat) : Nat :=
  let y := BitVec.ofNat 32 x
  ((y <<< 1) ^^^ (if y.getLsbD 31 then 0x00400007#32 else 0)).toNat
/-- A frame with byte k, or its last byte, inverted; the check sequence is recomputed when `fix` (R491). -/
def rollCorrupt (b : Bytes) (k : Nat) (fix : Bool) : Bytes :=
  let b := b.modify (min k (b.length - 1)) fun x => ~~~x
  if fix then b.take (b.length - 4) ++ fcs (b.take (b.length - 4)) else b
/-- What a codeword of a code takes with PARAM = 0 (R491). -/
def rollCode (n : Nat) : Nat := match n with | 0 => 16 | 1 => 18 | 2 => 8 | _ => 64

/-- A later frame passes an engine: frames held by REORDER count it and leave behind it when their count is reached (R491). -/
def RollSt.pass (e : RollSt) (fs : List Bytes) : RollSt :=
  if fs = [] then { e with out := [] }
  else
    let h := e.held.map fun x => { x with left := x.left - fs.length }
    { e with held := h.filter fun x => x.left != 0, out := fs ++ ((h.filter fun x => x.left == 0).map (·.bytes)) }
/-- A frame that an engine does not act on: it passes, or joins the frames held by DELAY while there is room
(R491, R493; log entry 92). -/
def RollSt.later (e : RollSt) (b : Bytes) : RollSt :=
  if e.delaying then (if e.room b.length then { e with held := e.held ++ [{ bytes := b }], out := [] } else { e with out := [b] })
  else e.pass [b]

/-- Changes a Roll engine. -/
abbrev Chip.modRoll (c : Chip) (e : Fin 26) (f : RollSt → RollSt) : Chip :=
  c.modBist fun b => { b with engines := b.engines.set e.val (f b.engines[e]) }
/-- The event is one that the engine selects by its operation, direction and classes (R491). -/
def Chip.rollSelects (c : Chip) (e : Fin 26) (ev : RollEvt) : Bool :=
  let b := bk e.val ROLL
  let op := c.get b ROLL_CTL_OP
  let retimed := decide (8 ≤ e.val ∧ e.val < 24) && c.laneRetimed (Fin.ofNat 16 (e.val - 8))
  match ev with
  | .frame tx k _ => decide (1 ≤ op ∧ op ≤ 5) && tx == c.on b ROLL_CTL_DIR && (decide (24 ≤ e.val) || c.bit b ROLL_CLASS_MASK k.val) && !retimed
  | .symbol tx => op == 6 && tx == c.on b ROLL_CTL_DIR
  | .codeword tx _ => op == 7 && tx == c.on b ROLL_CTL_DIR && decide (e.val < 24)
  | .pip => op == 8 && decide (e.val < 8)
/-- The engine acts on this event (R492): every Nth, or when the LFSR's new value is below N. -/
def Chip.rollActs (c : Chip) (e : Fin 26) : Chip × Bool :=
  let b := bk e.val ROLL
  let n := c.wide (b + ROLL_N_LO_VALUE.off) 2
  if c.on b ROLL_CTL_MODE then
    let x := rollStep c.bist.engines[e].lfsr
    (c.modRoll e fun r => { r with lfsr := x }, decide (x < n))
  else
    let k := c.bist.engines[e].count + 1
    (c.modRoll e fun r => { r with count := k }, k % n == 0)
/-- A frame event that the engine acts on (R491, R493); none: it would exceed what the engine holds. -/
def RollSt.act (e : RollSt) (op param : Nat) (fix : Bool) (b : Bytes) : Option RollSt :=
  match op with
  | 1 => some (e.pass [])
  | 2 => some (if e.delaying then e.later (rollCorrupt b param fix) else e.pass [rollCorrupt b param fix])
  | 3 => if e.room b.length then some (e.pass [b, b]) else none
  | 4 => if e.room b.length then some { e with held := e.held ++ [{ bytes := b }], delaying := true, out := [] } else none
  | 5 => if e.room b.length then some { e with held := e.held ++ [{ bytes := b, left := param }], out := [] } else none
  | _ => none
/-- A counter of an engine, 48 bit (R493, R495). -/
def Chip.rollBump (c : Chip) (e : Fin 26) (off : Nat) : Chip :=
  let a := bk e.val ROLL + off
  c.putWide a 3 ((c.wide a 3 + 1) % 2 ^ 48)
/-- ROLL_ENGINE_EVENT (R490 to R493). -/
def execRollEngineEvent (e : Fin 26) (ev : RollEvt) (s : State) : Res :=
  s.act fun c =>
    let b := bk e.val ROLL
    let tx := fun (t : Bool) => t == c.on b ROLL_CTL_DIR
    if c.rollOn = false ∨ c.on b ROLL_CTL_EN = false then
      match ev with
      | .frame _ _ f => c.modRoll e fun r => { r with out := [f] }
      | _ => c
    else if c.rollSelects e ev = false then
      match ev with
      | .frame t _ f => if tx t then c.modRoll e fun r => r.later f else c.modRoll e fun r => { r with out := [f] }
      | _ => c
    else
      let (c, acts) := c.rollActs e
      let op := c.get b ROLL_CTL_OP
      let param := c.get b ROLL_PARAM_PARAM
      match ev with
      | .frame _ _ f =>
        if acts then
          match c.bist.engines[e].act op param (c.on b ROLL_CTL_FCS_FIX) f with
          | some r => (c.modRoll e fun _ => r).rollBump e ROLL_HITS_COUNT.off
          | none => (c.modRoll e fun r => r.later f).rollBump e ROLL_SKIP_COUNT.off
        else c.modRoll e fun r => r.later f
      | .symbol _ => if acts then (c.modRoll e fun r => { r with altered := param }).rollBump e ROLL_HITS_COUNT.off else c
      | .codeword _ k =>
        if acts then (c.modRoll e fun r => { r with altered := if param = 0 then rollCode k.val else param }).rollBump e ROLL_HITS_COUNT.off else c
      | .pip => if acts then (c.modRoll e fun r => { r with altered := 1 }).rollBump e ROLL_HITS_COUNT.off else c

/-- ROLL_HOLD_RELEASE (R491): the time of the oldest held frame is reached: PARAM µs for DELAY, 100 µs without the later
frames for REORDER. -/
def execRollHoldRelease (e : Fin 26) (s : State) : Res :=
  s.act fun c => c.modRoll e fun r =>
    match r.held with
    | [] => r
    | h :: t => { r with held := t, delaying := r.delaying && !t.isEmpty, out := [h.bytes] }

/-- ROLL_CTL has been written (R492, R494); `old` is what it held. -/
def Chip.rollCtlWritten (c : Chip) (e : Fin 26) (old : BitVec 16) : Chip :=
  let on := c.on (bk e.val ROLL) ROLL_CTL_EN
  if on && !old.getLsbD 0 then c.modRoll e fun r => { r with count := 0 }
  else if !on && old.getLsbD 0 then c.modRoll e RollSt.release else c
/-- Stops one engine (R494). -/
def Chip.rollHalt (c : Chip) (e : Fin 26) : Chip := (c.put (bk e.val ROLL) ROLL_CTL_EN 0).modRoll e RollSt.release
/-- All engines in order. -/
def allEngines : List (Fin 26) := List.finRange 26
/-- Stops every engine: ROLL_CMD.STOP_ALL (R494). -/
def Chip.rollStopAll (c : Chip) : Chip := c.each allEngines Chip.rollHalt
/-- ROLL_SEED has been written (R492). -/
def Chip.rollSeedWritten (c : Chip) (e : Fin 26) : Chip :=
  let v := c.wide (bk e.val ROLL + ROLL_SEED_LO_VALUE.off) 2
  c.modRoll e fun r => { r with lfsr := v }
/-- The engine is acting (R490, R495). -/
def Chip.rollActive (c : Chip) (e : Fin 26) : Bool := c.rollOn && c.on (bk e.val ROLL) ROLL_CTL_EN
/-- ROLL_STAT of an engine as it reads. -/
def Chip.rollStat (c : Chip) (e : Fin 26) : Nat := (c.rollActive e).toNat + 2 * c.bist.engines[e].held.length

end Sys2Proof.Machine
end

