-- ==== Sys2Proof/Machine/Counters.lean ====
section
/-! DEFINITION. The privileged counter units as time passes (16_counters.md R502 to R507), the sensors
(17_pins_and_electrical.md R527 to R529), and the tick of the model's time (01_architecture.md R43). -/

namespace Sys2Proof.Machine

/-- Cycles of a unit's root in kHz (R502): CTRL on CPLL, FOSC or SOSC; QUIRE at the level whose divisions run (R414). -/
def Chip.rootKHz (c : Chip) (u : Fin 2) : Nat :=
  if u = 0 then
    if 1 < c.pwr.mode then 0 else match c.get CLK CLK_STAT_CTRL_SRC with | 0 => 400000 | 1 => 200000 | _ => 32
  else if c.quireOn then (match c.clk.div with | 0 => 625000 | 1 => 1000000 | _ => 1250000) else 0

/-- A job slot is in use: RUNNING or DONE (11_binder_mailboxes.md R374). -/
def Chip.jobUsed (c : Chip) (j : Nat) : Bool := c.get (bk j MBX) MBX_JOB_STAT_STATE != 0
/-- The queue that QUIRE_Q_SEL selects. -/
def Chip.qSel (c : Chip) : Queue :=
  Fin.ofNat 128 (c.get QUIRE QUIRE_Q_SEL_CLASS + 8 * c.get QUIRE QUIRE_Q_SEL_PORT + 64 * c.get QUIRE QUIRE_Q_SEL_DIR)
/-- An occupancy event's occupancy, with the cells or descriptors of one unit of THR (R503, R507). -/
def Chip.pmcOcc (c : Chip) (u : Fin 2) (sel : Nat) : Option (Nat × Nat) :=
  if u = 0 then
    match sel with
    | 10 => some (c.binder.mbs.toList.countP (·.waiting), 1)
    | 11 => some ((List.range 8).countP c.jobUsed, 1)
    | 12 => some (c.cal.mtpq.length, 1)
    | _ => none
  else
    match sel with
    | 10 => some (c.quire.queues.toList.foldl (fun n q => n + q.shared) 0, 64)
    | 11 => some (c.quire.queues[c.qSel].occ, 64)
    | 12 => some (c.hdrmUse c.qSel, 64)
    | 13 => some (c.quire.queues.toList.foldl (fun n q => n + q.frames.length) 0, 16)
    | 14 => some (c.quire.queues.toList.countP (·.held), 1)
    | _ => none
/-- A unit's cycle counter and the counters of its cycles as n TPLL cycles pass (R502, R503, R507). -/
def Chip.pmcTick (n : Nat) (c : Chip) (u : Fin 2) : Chip :=
  let t := c.pmc[u].frac + n * c.rootKHz u
  let k := t / 1250000
  let c := { c with pmc := c.pmc.set u.val { c.pmc[u] with frac := t % 1250000 } }
  let a := pmcB u + PMC_CYC_CYC.off
  let c := c.putWide a 4 ((c.wide a 4 + k) % 2 ^ 64)
  if c.get (pmcB u) PMC_CTL_EN = 0 then c
  else c.each (List.range 8) fun c j =>
    let sel := c.get (pmcB u + j) PMC_SEL_EVENT
    if c.bit (pmcB u) PMC_CTL_EN j = false ∨ c.pmcChained u j then c
    else if sel = 1 then c.pmcAdd u j k
    else match c.pmcOcc u sel with
      | some (o, unit) => if c.get (pmcB u + j) PMC_THR_THR * unit < o then c.pmcAdd u j k else c
      | none => c

/-- PMC_OVERFLOW (R503 to R505): counter k of unit u (0 the Binder's, 1 Quire's) counts n events of the event it selects,
and passes 0xFFFF_FFFF. -/
def execPmcOverflow (u : Fin 2) (k : Fin 8) (n : BitVec 32) (s : State) : Res :=
  s.act fun c =>
    if c.bit (pmcB u) PMC_CTL_EN k.val ∧ c.pmcChained u k.val = false ∧ c.get (pmcB u + k.val) PMC_SEL_EVENT ≠ 0 ∧
        2 ^ 32 ≤ c.wide (pmcB u + PMC_CNT_COUNT.off + 2 * k.val) 2 + n.toNat then c.pmcAdd u k.val n.toNat
    else c
/-- A committed write of counter k of unit u with the increments of the same cycle, n of its own, among them a carry that
arrives (R506). -/
def Chip.pmcCntWritten (c : Chip) (u : Fin 2) (k n : Nat) : Chip :=
  let v := c.wide (pmcB u + PMC_CNT_COUNT.off + 2 * k) 2
  let c := { c with pmc := c.pmc.set u.val { c.pmc[u] with last := c.pmc[u].last.set k v } }
  if n = 0 then c else c.pmcAdd1 u k n
/-- A write of 1 to CYC_CLR: the cycle counter holds that cycle's increment (R506). -/
def Chip.cycCleared (c : Chip) (u : Fin 2) : Chip :=
  (c.putWide (pmcB u + PMC_CYC_CYC.off) 4 (if c.rootKHz u = 0 then 0 else 1)).put (pmcB u) PMC_CTL_CYC_CLR 0

/-- A rail's operating range in 10 µV (R517, R528; log entry 95): VDD_CORE's of the code in force with its guard; VDD_AON
has none. -/
def Chip.railRange (c : Chip) (j : Nat) : Nat × Nat :=
  match j with
  | 0 =>
    let v := match c.clk.vsel with | 0 => 650 | 1 => 750 | 2 => 850 | _ => 550
    (97 * v, 103 * v + 1000 * c.age.guard)
  | 1 => (77600, 82400)
  | 2 => (87300, 92700)
  | 3 => (116400, 123600)
  | 4 => (171000, 189000)
  | _ => (0, 10000000)
/-- Readings of VDD_CORE are ignored: a level change, or less than 150 µs since VSEL changed (R528). -/
def Chip.railQuiet (c : Chip) : Bool :=
  c.clk.levelTo.isSome || (match c.clk.vselAt with | some t => decide (c.tpll < t + 187500) | none => false)
/-- The sensors show new readings, in steps of 0.125 °C and mV, and their thresholds are checked (R528). -/
def Chip.sensorsSeen (c : Chip) (temps rails : List (BitVec 16)) : Chip :=
  let c := c.each ((List.range 8).zip temps) fun c (x : Nat × BitVec 16) => c.setReg (SNS + x.1) x.2
  let c := c.each ((List.range 6).zip rails) fun c (x : Nat × BitVec 16) => c.setReg (SNS + 8 + x.1) x.2
  let hi := signed 16 (c.reg (SNS + SNS_TEMP_HI_HI.off)).toNat
  let t := fun (c : Chip) (k : Nat) => signed 16 (c.reg (SNS + k)).toNat
  let c := c.each (List.range 8) fun c k =>
    let v := t c k
    if hi ≤ v then (if c.bit SNS SNS_STAT_TEMP_HI k then c else (c.putBit SNS SNS_STAT_TEMP_HI k true).evt SNS SNS_EVT_TEMP_HI)
    else if v ≤ hi - 16 then c.putBit SNS SNS_STAT_TEMP_HI k false else c
  let c := c.each (List.range 6) fun c j =>
    if j = 0 ∧ c.railQuiet then c
    else
      let v := 100 * (c.reg (SNS + 8 + j)).toNat
      let r := c.railRange j
      if r.1 ≤ v ∧ v ≤ r.2 then c.putBit SNS SNS_STAT_RAIL_OUT j false
      else if c.bit SNS SNS_STAT_RAIL_OUT j then c else (c.putBit SNS SNS_STAT_RAIL_OUT j true).evt SNS SNS_EVT_RAIL_OUT
  let m := c.tempMax
  let c := if 1000 ≤ m then (c.put SNS SNS_STAT_THERM 1).evt SNS SNS_EVT_NME_THERM else if m < 960 then c.put SNS SNS_STAT_THERM 0 else c
  c.alertCheck
/-- SENSOR_UPDATE (R527, R528): temperatures in 0.125 °C steps and rails in mV. -/
def execSensorUpdate (temps rails : List (BitVec 16)) (s : State) : Res :=
  s.act fun c => if c.pwr.mode ≤ 1 then c.sensorsSeen temps rails else c
/-- SNS_EVT_CLR has been written (R529). -/
def Chip.snsEvtClear (c : Chip) : Chip :=
  let m := c.get SNS SNS_EVT_CLR_CLR
  let c := c.each ([0, 1, 2] : List Nat) fun c k =>
    if m.testBit k ∧ ¬ (k = 2 ∧ c.on SNS SNS_STAT_THERM) then c.put SNS ⟨SNS_EVT_TEMP_HI.off, k, 1⟩ 0 else c
  c.put SNS SNS_EVT_CLR_CLR 0

/-- n TPLL cycles pass (R43, R193): Folio's time, Pip bursts, superframes, quiet time, patterns, lane queues, counters and
powered hours go on. -/
def Chip.tick (c : Chip) (n : Nat) : Chip :=
  let c := c.alertCheck
  let run := decide (c.pwr.mode ≤ 1)
  let c := if run && c.loopRuns 1 then c.advance n else c
  let c := if run then
      let c := c.each allPorts (Chip.pipTick n)
      let c := if c.pwr.mode = 0 then c.each allPorts fun c p => Chip.quietTick n (Chip.sfTick n c p) p else c
      let c := if c.pwr.mode = 0 then c.each allLanes fun c l => Chip.laneTick n (Chip.patTick n c l) l else c
      let c := if c.pwr.mode = 0 then c.gatherTick n else c
      ((Chip.pmcTick n (Chip.pmcTick n c 0) 1).ageTick n).calTick n
    else c
  { c with tpll := c.tpll + n }.alertCheck
/-- TIME_TICK (R43, R193): n TPLL cycles of 0.8 ns. -/
def execTimeTick (n : Nat) (s : State) : Res := s.act fun c => c.tick n

end Sys2Proof.Machine
end

