-- ==== Sys2Proof/Machine/Folio.lean ====
section
/-! DEFINITION. The meanings of Folio's events (06_folio_time.md): PTP messages, timeouts, captures and output edges. -/

namespace Sys2Proof.Machine

/-- A PTP message of type `typ` is for Folio on port i (R209). -/
def Chip.ptpFor (c : Chip) (i : Fin 16) (b : Bytes) (typ : Nat) : Bool :=
  c.folioOn && c.ptpOwn b && c.ptpEn i && ptpType b == typ

/-- SYNC_RX (R210): `frac` is the stamp instant after the last tick. -/
def execSyncRx (i : Fin 16) (b : Bytes) (frac : Nat) (s : State) : Res :=
  s.act fun c => if c.ptpFor i b 0 then (c.ptpCount i).syncRx i b (c.now + frac) else c

/-- FOLLOW_UP_RX (R210). -/
def execFollowUpRx (i : Fin 16) (b : Bytes) (frac : Nat) (s : State) : Res :=
  s.act fun c => if c.ptpFor i b 8 then (c.ptpCount i).followRx i b (c.now + frac) else c

/-- ANNOUNCE_RX (R212). -/
def execAnnounceRx (i : Fin 16) (b : Bytes) (s : State) : Res :=
  s.act fun c => if c.ptpFor i b 0xB then (c.ptpCount i).announceRx i b else c

/-- PDELAY_MSG_RX (R208): a Pdelay_Req, Pdelay_Resp or Pdelay_Resp_Follow_Up. -/
def execPdelayMsgRx (i : Fin 16) (b : Bytes) (frac : Nat) (s : State) : Res :=
  s.act fun c =>
    if c.ptpFor i b 2 || c.ptpFor i b 3 || c.ptpFor i b 0xA then (c.ptpCount i).pdelayRx i b (c.now + frac) else c

/-- PTP_OTHER_RX (R208, R209): Signaling without the TLV of R207, management and every other message of the own domain is
counted and discarded. -/
def execPtpOtherRx (i : Fin 16) (b : Bytes) (s : State) : Res :=
  s.act fun c => if c.folioOn && c.ptpOwn b && c.ptpEn i then c.ptpCount i else c

/-- SYNC_TIMEOUT (R200): SYNC_TIMEOUT Sync intervals have passed on the source port without a Sync. -/
def execSyncTimeout (s : State) : Res := s.act fun c => if c.srcPtp.isSome then c.srcLost else c

/-- CAPTURE_SOURCE_TIMEOUT (R200): a capture source has given no edge for 2 s. -/
def execCaptureSourceTimeout (s : State) : Res :=
  s.act fun c => if c.isTail = false ∧ c.get FOLIO FOLIO_CTL_SRC = 3 then c.srcLost else c

/-- The offset of a one-pulse-per-second edge: its distance from the nearest whole second (R200, R201). DESIGN CHOICE (log
entry 120): the spec does not say which whole second an edge is measured against. -/
def ppsOffset (t : Nat) : Int :=
  let r := t % 65536000000000
  if 32768000000000 < r then (r : Int) - 65536000000000 else r

/-- CAPTURE_EDGE (R204, R222, R223): an edge reaches the sampler of CAPi `frac` after the last tick; its stamp, the input constant
removed, lies within ±250 ps of the crossing of the ball (a free value, log entry 12). -/
def execCaptureEdge (i : Fin 4) (rising : Bool) (frac : Nat) (s : State) : Res :=
  s.act fun c =>
    let sel := c.get FOLIO FOLIO_CAP_CTL_EDGE / 4 ^ i.val % 4
    if c.folioClk = false ∨ (if rising then sel % 2 = 0 else sel / 2 = 0) then c
    else
      let t := ((c.now + frac : Nat) : Int) - c.latCap + ((Config.jitter c.freeCtr).val : Int) - 16384
      let c := c.tickFree
      let c :=
        if c.folio.caps[i].queue.length < 8 then c.modCap i fun x => { x with queue := x.queue ++ [(t.toNat, rising)] }
        else (c.put (bk i.val FOLIO) FOLIO_CAP_STAT_OVF 1).evt FOLIO FOLIO_EVT_CAP_OVF
      if c.isTail = false ∧ c.get FOLIO FOLIO_CTL_SRC = 3 ∧ c.get FOLIO FOLIO_CTL_SRC_IDX = i.val ∧ c.folioOn then
        c.measure (ppsOffset t.toNat)
      else c

/-- SYNC_TX (R211, R212): a master port's Sync is due under TC = 0; its times are written as it starts. -/
def execSyncTx (i : Fin 16) (s : State) : Res :=
  s.act fun c =>
    if c.ptpMaster i ∧ c.on FOLIO FOLIO_CTL_TC = false then
      let c := c.queueCtl i { kind := 1, bytes := c.ptpFrame i 0 0 0 c.folio.ptp[i].seqSync 0 (c.logSync i) (be 10 0) }
      c.modPtp i fun x => { x with seqSync := (x.seqSync + 1) % 2 ^ 16 }
    else c

/-- ANNOUNCE_TX (R212). -/
def execAnnounceTx (i : Fin 16) (s : State) : Res :=
  s.act fun c =>
    if c.ptpMaster i then
      let c := c.queueCtl i { bytes := padded (c.ptpFrame i 0xB 0 0 c.folio.ptp[i].seqAnn 5 0 c.annBody) }
      c.modPtp i fun x => { x with seqAnn := (x.seqAnn + 1) % 2 ^ 16 }
    else c

/-- PDELAY_REQ_TX (R208): a request is due; more than 9 in a row without an answer end asCapable (log entry 29). -/
def execPdelayReqTx (i : Fin 16) (s : State) : Res :=
  s.act fun c =>
    if c.folioOn ∧ c.ptpEn i ∧ c.ptpUp i then
      let c := if c.folio.ptp[i].req.isSome then c.modPtp i fun x => { x with lost := x.lost + 1, req := none, resp := none } else c
      let c := if 9 < c.folio.ptp[i].lost then c.setAsCap i false else c
      let c := c.queueCtl i { kind := 3, bytes := c.ptpFrame i 2 0 0 c.folio.ptp[i].seqPd 5 (c.logPdelay i) (be 20 0) }
      c.modPtp i fun x => { x with seqPd := (x.seqPd + 1) % 2 ^ 16 }
    else c

/-- EVENT_OUTPUT_EDGE (R204, R224, R226): the compare of output o finds that its next edge is due, the output constant ahead of
the instant at which the edge crosses the ball; while FOLIO is unclocked the edge is lost. -/
def execEventOutputEdge (o : Fin 4) (s : State) : Res :=
  s.act fun c =>
    let e := c.folio.outs[o]
    if e.armed ∧ c.folioClk ∧ e.next ≤ c.now + c.latEvt then
      c.modEvo o fun x => { x with pulse := true, armed := x.periodic, next := if x.periodic then x.next + x.per else x.next }
    else c

/-- EVENT_OUTPUT_PULSE_END (R224): FOLIO_OUT_WIDTH has passed and EVTn returns to its idle level. -/
def execEventOutputPulseEnd (o : Fin 4) (s : State) : Res :=
  s.act fun c => c.modEvo o fun x => { x with pulse := false }

end Sys2Proof.Machine
end

