-- ==== Sys2Proof/Machine/Fabric.lean ====
section
/-! DEFINITION. The register fabric without the effects of its writes (10_register_fabric.md R335 to R363): selectors, the
causes of a refusal with the error log, locks, masked writes by access code, staging and posting. -/

namespace Sys2Proof.Machine

/-- The key of the store that an address reaches: registers behind a selector have one copy for each value of it. -/
def Chip.keyOf (c : Chip) (a : Nat) : Nat :=
  let o := a % 0x1000
  let q := c.get QUIRE QUIRE_Q_SEL_CLASS + 8 * c.get QUIRE QUIRE_Q_SEL_PORT + 64 * c.get QUIRE QUIRE_Q_SEL_DIR
  match a / 0x1000 with
  | 0x02 => if o = 0x11 ∨ o = 0x12 then bk (c.get PWR PWR_THR_SEL_SEL) a else a
  | 0x04 => if 0x11 ≤ o ∧ o ≤ 0x13 then bk (c.get AGE AGE_SEL_TARGET) a else a
  | 0x05 => if 2 ≤ o ∧ o ≤ 0xB then bk (c.get BIST BIST_CTL_TARGET) a else a
  | 0x08 => if (0x411 ≤ o ∧ o ≤ 0x413) ∨ (0x440 ≤ o ∧ o ≤ 0x47B) then bk (c.get MBX MBX_JOB_SEL_SLOT) a else a
  | 0x0A => if 0x21 ≤ o ∧ o ≤ 0x23 then bk q a else if o = 0x28 then bk (q / 8) a else if o = 0x2A then bk (q / 8 % 8) a else a
  | 0x0B => if 0x80 ≤ o ∧ o ≤ 0x8C then bk (c.get FOLIO FOLIO_OUT_CTL_SEL) a else a
  | 0x0D => if 1 ≤ o ∧ o ≤ 0x16 then bk (c.get ROLL ROLL_SEL_ENGINE) a else a
  | b => if 0x10 ≤ b ∧ b < 0x18 ∧ o = 0x711 then bk (c.get (0x1000 * b) OCT_TONE_SEL_TONE) a else a

/-- The register at an address of the fabric (R358, 18_register_map.md R531). -/
def mapped (a : Nat) : Option RegDef := if a < 0x7E000 then findReg a else none

/-- Why an access to a block is refused: 1 GATED, 2 POWERED_OFF, 0 not (R358, 12_clocks.md R398, 13_power_and_reset.md R421,
R422). -/
def Chip.gate (c : Chip) (a : Nat) : Nat :=
  let f := fun (island : Nat) (en : Bool) (loop : Nat) (doze : Bool) =>
    if !c.islandOn island then 2 else if !en || !c.loopRuns loop || (doze && c.pwr.mode == 1) then 1 else 0
  match a / 0x1000 with
  | 0x0A => f 5 (c.on CLK CLK_EN0_QUIRE) 0 true
  | 0x0B => if c.on CLK CLK_EN0_FOLIO && c.loopRuns 1 then 0 else 1
  | 0x0C => f 7 (c.on CLK CLK_EN0_SPINE) 5 false
  | 0x0D => if c.on CLK CLK_EN0_ROLL then 0 else 1
  | 0x30 => f 4 (c.on CLK CLK_EN0_HGRP) 4 true
  | b =>
    if 0x10 ≤ b ∧ b < 0x18 then
      let p : Port := Fin.ofNat 8 b
      f (portIsland p) (c.bit CLK CLK_EN0_LP p.val) (portIsland p) true
    else if 0x20 ≤ b ∧ b < 0x30 then f 4 ((c.reg (CLK + CLK_EN1_H.off)).getLsbD (b - 0x20)) 4 true
    else 0

/-- The cause of a refusal of any access at all: 5 UNMAPPED, 2 POWERED_OFF, 1 GATED, 0 none (R358). -/
def Chip.refusal (c : Chip) (a : Nat) : Nat := if (mapped a).isNone then 5 else c.gate a

/-- The code of an interface in REG_ERRLOG_CAUSE (R363). -/
abbrev ifcCode (i : Ifc) : Nat := (ifcNum i).val
/-- A refused access enters the error log (R359). -/
def Chip.errLog (c : Chip) (i : Ifc) (a cause : Nat) (wr : Bool) : Chip :=
  if c.on REGB REG_ERRLOG_CAUSE_VALID then c.put REGB REG_ERRLOG_CNT_CNT (satU 16 (c.get REGB REG_ERRLOG_CNT_CNT + 1))
  else
    let c := (c.put REGB REG_ERRLOG_CAUSE_VALID 1).put REGB REG_ERRLOG_CAUSE_CAUSE cause
    let c := (c.put REGB REG_ERRLOG_CAUSE_SOURCE (ifcCode i)).putB REGB REG_ERRLOG_CAUSE_WRITE wr
    (c.putWide (REGB + REG_ERRLOG_ADDR_ADDR.off) 2 a).put REGB REG_ERRLOG_CNT_CNT 0

/-- The bits of a field as a mask. -/
abbrev Fld.mask (f : Fld) : BitVec 16 := fieldMask f.lo f.w
/-- The bits of a register that REG_LOCK's set fields lock (R361, R363). -/
def lockedBits (lk : BitVec 16) (a : Nat) : BitVec 16 :=
  let b := a / 0x1000
  let o := a % 0x1000
  if lk.getLsbD 0 ∧ a = REGB + REG_OBSERVE_EN_COUNTERS.off then 0xFFFF
  else if lk.getLsbD 1 ∧ a = HGRP + HGRP_MODE_MODE.off then HGRP_MODE_MODE.mask
  else if lk.getLsbD 1 ∧ 0x10 ≤ b ∧ b < 0x18 ∧ o = LINK_CTL_MODE_SEL.off then LINK_CTL_MODE_SEL.mask
  else if lk.getLsbD 1 ∧ 0x20 ≤ b ∧ b < 0x30 ∧ o = XN_CTL_RATE.off then XN_CTL_RATE.mask
  else if lk.getLsbD 2 ∧ (a = FOLIO + FOLIO_CTL_SRC.off ∨ a = FOLIO + FOLIO_PTP_CTL_DOMAIN.off) then 0xFFFF
  else if lk.getLsbD 2 ∧ a = FOLIO + FOLIO_CMD_SET.off then FOLIO_CMD_SET.mask ||| FOLIO_CMD_ADD.mask
  else if lk.getLsbD 3 ∧ (a = SPINE + SPINE_CTL_NORTH_EN.off ∨ a = SPINE + SPINE_CMD_STACK_RST.off) then 0xFFFF
  else if (lk.getLsbD 4 ∧ b = 0x03) ∨ (lk.getLsbD 5 ∧ b = 0x0D) ∨ (lk.getLsbD 6 ∧ b = 0x05) then 0xFFFF
  else 0

/-- Base of a mailbox (11_binder_mailboxes.md R389). -/
abbrev mbB (m : Fin 4) : Nat := MBX + 0x100 * m.val
/-- An interface owns a mailbox's request registers (11_binder_mailboxes.md R367). -/
def mbOwner (i : Ifc) (m : Fin 4) : Bool :=
  match m with
  | 0 | 1 => i == .spi0 || i == .mdio
  | 2 => false
  | 3 => i == .twm
/-- The bits of a mailbox's request registers that are locked for an interface (11_binder_mailboxes.md R367, R368). -/
def Chip.mbLocked (c : Chip) (i : Ifc) (a : Nat) : BitVec 16 :=
  let o := a % 0x1000
  let m : Fin 4 := Fin.ofNat 4 (o / 0x100)
  let r := o % 0x100
  if a / 0x1000 = 0x08 ∧ o < 0x400 ∧ (r < 3 ∨ (0x40 ≤ r ∧ r < 0x80)) then
    if !mbOwner i m then 0xFFFF else if r ≠ 2 ∧ c.on (mbB m) MBN_CTL_DOORBELL then 0xFFFF else 0
  else 0

/-- A field takes the masked bits of a write by its access code; a reserved encoding leaves it unchanged (R13, R18, R354). -/
def fieldWrite (mask data w : BitVec 16) (f : FieldDef) : BitVec 16 :=
  let m := mask &&& fieldMask f.lo f.w
  let v := match f.acc with
    | .rw | .rwp => (w &&& ~~~m) ||| (data &&& m)
    | .w1c => w &&& ~~~(data &&& m)
    | .w1s => w ||| (data &&& m)
    | .ro | .wo | .wl => w
  let n := v.toNat / 2 ^ f.lo % 2 ^ f.w
  if f.min ≤ n ∧ n ≤ f.max then v else w
/-- A register takes a masked write. -/
def mergeWord (fs : List FieldDef) (mask data w : BitVec 16) : BitVec 16 := fs.foldl (fieldWrite mask data) w
/-- The bits of a register that a write can affect, posted ones or not. -/
def writable (fs : List FieldDef) (posted : Bool) : BitVec 16 :=
  fs.foldl (fun m f => if f.acc = .ro ∨ (posted ∧ f.acc ≠ .rwp) then m else m ||| fieldMask f.lo f.w) 0
/-- The fields of a register at a place from bit lo to bit hi. -/
def RegDef.span (d : RegDef) (lo hi : Nat) : List FieldDef := d.fields.filter fun f => decide (lo ≤ f.lo ∧ f.lo ≤ hi)
/-- A masked write reaches the store. The selectors of FOLIO_OUT_CTL and FOLIO_CAP_STAT lie in the register itself: the fields
beside them are those of the output or input that the selector names after the write (06_folio_time.md R228). -/
def Chip.merge (c : Chip) (a : Nat) (mask data : BitVec 16) : Chip :=
  match mapped a with
  | none => c
  | some d =>
    if a = FOLIO + FOLIO_OUT_CTL_SEL.off ∨ a = FOLIO + FOLIO_CAP_STAT_SEL.off then
      let c := c.setReg a (mergeWord (d.span 0 1) mask data (c.reg a))
      let k := bk ((c.reg a).toNat % 4) a
      c.setReg k (mergeWord (d.span 2 15) mask data (c.reg k))
    else
      let k := c.keyOf a
      c.setReg k (mergeWord d.fields mask data (c.reg k))

/-- Place of a register in its wide value, whose lowest register is that much below (R336). -/
def RegDef.place (d : RegDef) (a : Nat) : Nat := (d.pos + (a % 0x1000 - d.off)) % d.wide
/-- The posted block of an address: 0 CLK, 1 PWR, 2 SNS (R357). -/
def postedBlock (a : Nat) : Option (Fin 3) :=
  match a / 0x1000 with | 0x01 => some 0 | 0x02 => some 1 | 0x07 => some 2 | _ => none
/-- A posted block is busy. -/
def Chip.posting (c : Chip) (a : Nat) : Bool := match postedBlock a with | some k => c.fab.posted[k].isSome | none => false
/-- The status byte of an access (R341): MARK 0x5, ALERT, BSY, and the given IGN and ERR. -/
def Chip.statusByte (c : Chip) (a e : Nat) : Nat := 0x50 + 8 * c.alertLow.toNat + 4 * (c.posting a).toNat + e

/-- The words of a commit: what the interface staged for the value, then the highest register's word (R337). -/
def Chip.commitWords (c : Chip) (i : Ifc) (d : RegDef) (a mask data : Nat) : List (Nat × Nat × Nat) :=
  let pl := if d.wide = 0 then 0 else d.place a
  match c.fab.ifcs[ifcNum i].stage with
  | some s =>
    if d.wide ≠ 0 ∧ s.base = a - pl then
      (((List.range pl).filterMap fun k => s.words.find? fun w => w.1 == k).map fun w => (a - pl + w.1, w.2.1, w.2.2)) ++ [(a, mask, data)]
    else [(a, mask, data)]
  | none => [(a, mask, data)]
/-- A word enters the staging buffer; words of another value leave it (R337). -/
def Stage.add (s : Option Stage) (base place mask data : Nat) : Stage :=
  let l := match s with | some s => if s.base = base then s.words else [] | none => []
  let old := (l.find? fun w => w.1 == place).getD (place, 0, 0)
  let m := old.2.1 ||| mask
  { base := base, words := (place, m, (data &&& mask) ||| (old.2.2 &&& (m - mask))) :: l.filter fun w => w.1 != place }

/-- A write to REG_LOCK: a field takes its one write and locks (00_scope.md R14, R356, R361). -/
def LockSt.write (l : LockSt) (mask data : BitVec 16) : LockSt :=
  let m := mask &&& 0x7F#16 &&& ~~~l.written
  { bits := l.bits ||| (data &&& m), written := l.written ||| m }
/-- A write to REG_LOCK covers a field that is locked. -/
def LockSt.refuses (l : LockSt) (mask : BitVec 16) : Bool := (mask &&& l.written) != 0

end Sys2Proof.Machine
end

