-- ==== Sys2Proof/Machine/BinderOps.lean ====
section
/-! DEFINITION. Mailboxes and jobs (11_binder_mailboxes.md R364 to R381, R387): the catalogue's parameter ranges and the
registers each command names, taking a doorbell with the checks of R381, completion with its record, job slots. The commands'
own effects are in Commands.lean. -/

namespace Sys2Proof.Machine

/-- What the catalogue says of one request (R382, R383). -/
structure CmdSpec where
  /-- a long command -/
  long : Bool := false
  /-- NPARAM and every parameter are in range -/
  ok : Bool := true
  /-- it runs only on a head or acting head -/
  head : Bool := false
  /-- the fields it writes: address and mask -/
  writes : List (Nat × BitVec 16) := []
  /-- registers that it reads, one for each block -/
  reads : List Nat := []
  /-- the access that BLOCK_OFF stands for, and whether it is a write, where it is not the first of these -/
  first : Option (Nat × Bool) := none
  /-- what the job addresses: 0 to 7 a line port, 8 to 23 a lane, 32 and up a BIST target (R375) -/
  targets : List Nat := []
deriving DecidableEq, Repr

/-- Parameter word i of a request. -/
abbrev MbReq.p (r : MbReq) (i : Nat) : Nat := r.par.getD i 0
/-- A value fits a field: no reserved encoding, no bit beyond it (R18, R382). -/
def fitsFld (a : Nat) (f : Fld) (v : Nat) : Bool :=
  decide (v < 2 ^ f.w) &&
  match findReg a with
  | some d => d.fields.all fun x => x.lo != f.lo || (decide (x.min ≤ v) && decide (v ≤ x.max))
  | none => false
/-- A value fits a whole register. -/
def fitsReg (a v : Nat) : Bool :=
  match findReg a with
  | some d =>
    decide (v < 65536) && (BitVec.ofNat 16 v &&& ~~~(writable d.fields false)) == 0 &&
    d.fields.all fun x => decide (x.min ≤ v / 2 ^ x.lo % 2 ^ x.w) && decide (v / 2 ^ x.lo % 2 ^ x.w ≤ x.max)
  | none => false

/-- The ports that the low byte of a word names. -/
def portsOf (w : Nat) : List Port := allPorts.filter fun p => w.testBit p.val
/-- A port by its number. -/
abbrev portNo (n : Nat) : Port := Fin.ofNat 8 n
/-- A lane by its number. -/
abbrev laneNum (n : Nat) : Lane := Fin.ofNat 16 n
/-- A whole register of LPn as a write. -/
def lpW (n off : Nat) (m : BitVec 16) : Nat × BitVec 16 := (lpB (portNo n) + off, m)

/-- The event counter areas (16_counters.md R499): an offset that is the lowest register of a counter. -/
def counterAt (a : Nat) : Bool :=
  let b := a / 0x1000
  let o := a % 0x1000
  let lp := decide (0x10 ≤ b ∧ b < 0x18) && decide (0xC00 ≤ o ∧ o < 0xDF0)
  let ln := (decide (0x20 ≤ b ∧ b ≤ 0x30) || b == 0x0A) && decide (0x200 ≤ o ∧ o < 0x2F0)
  let sp := b == 0x0C && (decide (0x200 ≤ o ∧ o < 0x270) || decide (0x280 ≤ o ∧ o < 0x2F0))
  (lp || ln || sp) && o % 4 == 0 && (match mapped a with | some d => d.wide == 4 | none => false)

/-- A Roll operation is in an engine's column (15_self_test_and_faults.md R491). -/
def rollOpOk (e op : Nat) : Bool := decide (op ≤ 6) || (op == 7 && decide (e < 24)) || (op == 8 && decide (e < 8))
/-- The range of PARAM of an operation (15_self_test_and_faults.md R491). -/
def rollParamOk (op v : Nat) : Bool :=
  match op with
  | 4 => decide (1 ≤ v ∧ v ≤ 1000)
  | 5 | 6 => decide (1 ≤ v ∧ v ≤ 15)
  | _ => true
/-- A record of NVM_READ: of the OTP, or one that has been written to the MTP (14_calibration_and_ageing.md R451). -/
def Chip.nvmPresent (c : Chip) (space n : Nat) : Bool :=
  if space = 0 then inOtp n else (decide (0x10 ≤ n ∧ n ≤ 0x17) || decide (0x20 ≤ n ∧ n ≤ 0x50)) && c.cal.mtp.any fun x => x.1 / 2 == n

/-- A pattern that a lane rate has (07_host_lanes_and_retimer.md R260). -/
def patOk (rate pat : Nat) : Bool := if pat ≤ 4 then rate != 0 else if pat ≤ 7 then rate == 0 else pat == 8

/-- The catalogue (R383). -/
def Chip.cmdSpec (c : Chip) (r : MbReq) : Option CmdSpec :=
  let n := r.par.length
  let P := r.p
  let port := decide (P 0 ≤ 7)
  let lane := decide (P 0 ≤ 15)
  let lp := lpB (portNo (P 0))
  let la := laneB (laneNum (P 0))
  let all : BitVec 16 := 0xFFFF
  match r.cmd with
  | 0x0101 => some { ok := n == 1 && port, reads := [lp + LINK_STAT_STATE.off] }
  | 0x0102 => some { ok := n == 2 && decide (P 0 < 256 ∧ P 1 < 256), writes := (portsOf (P 0)).map fun p => (lpB p + PMA_CTL_ENABLE.off, PMA_CTL_ENABLE.mask) }
  | 0x0103 => some { ok := n == 1 && decide (P 0 < 256), writes := (portsOf (P 0)).map fun p => (lpB p + LINK_CTL_RESTART.off, LINK_CTL_RESTART.mask) }
  | 0x0104 => some { ok := n == 3 && port && fitsFld (lp + LINK_CTL_MODE_SEL.off) LINK_CTL_MODE_SEL (P 1) && fitsReg (lp + AN_ADV_ADV_EEE.off) (P 2),
                     writes := [lpW (P 0) LINK_CTL_MODE_SEL.off LINK_CTL_MODE_SEL.mask, lpW (P 0) AN_ADV_ADV_EEE.off all] }
  | 0x0105 => some { long := true, ok := n == 2 && port && decide (1 ≤ P 1 ∧ P 1 ≤ 60000), reads := [lp + LINK_STAT_STATE.off], targets := [P 0] }
  | 0x0106 => some { ok := n == 5 && port && decide (P 1 < 128) && fitsReg (lp + OCT_CTL_DUPLEX.off) (P 1) && fitsReg (lp + OCT_PART_TX_RATE.off) (P 2) &&
                       fitsReg (lp + OCT_MARGIN_TARGET.off) (P 3) && fitsReg (lp + OCT_SWAP_TRIG.off) (P 4),
                     writes := [lpW (P 0) OCT_CTL_DUPLEX.off 0x7F, lpW (P 0) OCT_PART_TX_RATE.off all, lpW (P 0) OCT_MARGIN_TARGET.off all, lpW (P 0) OCT_SWAP_TRIG.off all] }
  | 0x0107 => some { long := true, ok := n == 1 && port, writes := [lpW (P 0) OCT_CTL_RELOAD.off OCT_CTL_RELOAD.mask], targets := [P 0] }
  | 0x0108 => some { ok := n == 3 && port && decide (8 ≤ P 1 ∧ P 1 ≤ 2039 ∧ 1 ≤ P 2 ∧ P 2 ≤ 256), reads := [lp + OCT_TONE_BITS_RX_BITS.off] }
  | 0x0109 => some { long := true, ok := n == 19 && port && decide (P 1 < 256 ∧ P 2 ≤ 61), writes := [lpW (P 0) PIP_CTL_DIAG_REQ.off PIP_CTL_DIAG_REQ.mask], targets := [P 0] }
  | 0x010A => some { ok := n == 2 && decide (P 0 < 256 ∧ 1 ≤ P 1 ∧ P 1 ≤ 1023),
                     writes := (portsOf (P 0)).flatMap fun p => [(lpB p + PIP_WAKE_BURST.off, PIP_WAKE_BURST.mask), (lpB p + PIP_CTL_WAKE_REQ.off, PIP_CTL_WAKE_REQ.mask)] }
  | 0x010B => some { long := true, ok := n == 3 && fitsFld (HGRP + HGRP_MODE_MODE.off) HGRP_MODE_MODE (P 0) && decide (P 1 < 65536) &&
                       allLanes.all (fun l => fitsFld (laneB l + XN_CTL_RATE.off) XN_CTL_RATE (P 2 / 4 ^ l.val % 4)),
                     writes := allLanes.map (fun l => (laneB l + XN_CTL_RATE.off, XN_CTL_RATE.mask ||| XN_CTL_ENABLE.mask)) ++ [(HGRP + HGRP_MODE_MODE.off, HGRP_MODE_MODE.mask)],
                     targets := (List.range 16).map (8 + ·) }
  | 0x010C => some { ok := n == 1 && lane, reads := [la + XN_STAT_UP.off] }
  | 0x0201 => some { ok := n == 0, reads := [FOLIO + FOLIO_TIME_TIME.off] }
  | 0x0202 => some { ok := n == 4 && decide (P 0 < 65536 ∧ P 2 < 1000000000 ∧ P 3 < 65536), writes := [(FOLIO + FOLIO_SET_VALUE.off, all), (FOLIO + FOLIO_CMD_SET.off, FOLIO_CMD_SET.mask)] }
  | 0x0203 => some { ok := n == 2, writes := [(FOLIO + FOLIO_ADD_VALUE.off, all), (FOLIO + FOLIO_CMD_ADD.off, FOLIO_CMD_ADD.mask)] }
  | 0x0204 => some { long := true, ok := n == 3 && decide (1 ≤ P 2 ∧ P 2 ≤ 100000), writes := [(FOLIO + FOLIO_RATE_RATE.off, all)], first := some (FOLIO + FOLIO_STAT_STATE.off, false) }
  | 0x0205 => some { ok := n == 2 && decide (P 0 < 65536), writes := [(FOLIO + FOLIO_RATE_RATE.off, all)] }
  | 0x0206 => some { ok := n == 1 && decide (P 0 < 1024) && fitsReg (FOLIO + FOLIO_CTL_SRC.off) (P 0) && !(P 0 / 2 ^ FOLIO_CTL_SRC.lo % 2 ^ FOLIO_CTL_SRC.w == 3 && decide (4 ≤ P 0 / 2 ^ FOLIO_CTL_SRC_IDX.lo % 2 ^ FOLIO_CTL_SRC_IDX.w)), writes := [(FOLIO + FOLIO_CTL_SRC.off, 0x3FF)] }
  | 0x0207 => some { long := true, ok := n == 1 && decide (1 ≤ P 0 ∧ P 0 ≤ 600000), reads := [FOLIO + FOLIO_STAT_STATE.off] }
  | 0x0208 => some { ok := n == 9 && decide (P 0 ≤ 3 ∧ P 1 < 4 ∧ P 2 < 65536 ∧ P 5 < 65536 ∧ P 6 < 65536), writes := [(FOLIO + FOLIO_OUT_CTL_ARM.off, all)], first := some (FOLIO + FOLIO_OUT_START_TIME.off, true) }
  | 0x0209 => some { ok := n == 2 && decide (P 0 ≤ 3 ∧ 1 ≤ P 1 ∧ P 1 ≤ 7), reads := [FOLIO + FOLIO_CAP_STAT_LEVEL.off] }
  | 0x020A => some { ok := n == 1 && port, reads := [lp + TS_STAT_AS_CAPABLE.off] }
  | 0x0301 => some { long := true, ok := n == 1 && port, writes := [lpW (P 0) DIAG_CTL_TDR_START.off DIAG_CTL_TDR_START.mask], targets := [P 0] }
  | 0x0302 => some { ok := n == 1 && decide (P 0 < 256), writes := (portsOf (P 0)).map fun p => (lpB p + DIAG_CTL_E_CLR.off, DIAG_CTL_E_CLR.mask) }
  | 0x0303 => some { ok := n == 1 && decide (P 0 < 2) }
  | 0x0304 => some { ok := n == 3 && decide (P 0 < 0x80 ∧ P 1 < 0x1000 ∧ 1 ≤ P 2 ∧ P 2 ≤ 16) && (List.range (P 2)).all (fun i => P 1 + 4 * i < 0x1000 && counterAt (0x1000 * P 0 + P 1 + 4 * i)),
                     reads := [0x1000 * P 0 + P 1] }
  | 0x0305 => some { ok := n == 0 }
  | 0x0306 => some { ok := n == 0 }
  | 0x0307 => some { ok := n == 2 && decide (P 0 ≤ 7 ∧ P 1 < 2) && c.get (bk (P 0) MBX) MBX_JOB_STAT_STATE != 0 }
  | 0x0308 => some { ok := n == 0, reads := [QUIRE + QUIRE_STAT_BANKS.off] }
  | 0x0309 => some { ok := n == 0 }
  | 0x0401 => some { long := true, ok := n == 1 && port, reads := [lp + PMA_STAT_SIGNAL_DET.off], targets := [P 0] }
  | 0x0402 => some { long := true, ok := n == 1 && lane, reads := [la + XN_STAT_UP.off], targets := [8 + P 0] }
  | 0x0403 => some { ok := n == 2 && decide (P 0 < 2 ^ 24 ∧ P 1 ≤ 10080),
                     writes := [(CAL + CAL_SCHED_PORT_VALUE.off, all), (CAL + CAL_SCHED_LANE_VALUE.off, all), (CAL + CAL_SCHED_INT_VALUE.off, all)] }
  | 0x0404 => some { ok := n == 4 && decide (P 0 ≤ 1 ∧ 1 ≤ P 3 ∧ P 3 ≤ 31) && c.nvmPresent (P 0) (P 1) }
  | 0x0405 => some { long := true, ok := n == 1 && decide (P 0 ≤ 23), targets := [P 0] }
  | 0x0406 => some { ok := n == 1 && decide (P 0 ≤ 31) }
  | 0x0407 => some { ok := n == 1 && decide (P 0 < c.age.ledger.length) }
  | 0x0408 => some { ok := n == 2 && decide (P 0 < 16 ∧ 1 ≤ P 1 ∧ P 1 ≤ 720), writes := [(AGE + AGE_POLICY_APPROVE.off, all)] }
  | 0x0409 => some { ok := n == 2 && decide (P 1 ≤ 1) && quad.any (fun i => match c.age.props[i] with | some a => a.word == P 0 | none => false) }
  | 0x040A => some { long := true, ok := n == 0 }
  | 0x0501 => some { ok := n == 2 && decide (1 ≤ P 0 ∧ P 0 ≤ 3 ∧ P 1 < 65536) }
  | 0x0502 => some { ok := n == 1 && decide (P 0 < 16), writes := [(PWR + PWR_KEEP_KEEP.off, all)] }
  | 0x0503 => some { ok := n == 1 && decide (P 0 ≤ 2), writes := [(CLK + CLK_LEVEL_TARGET.off, CLK_LEVEL_TARGET.mask)] }
  | 0x0504 => some { ok := n == 0 }
  | 0x0505 => some { ok := n == 3 && decide (1 ≤ P 0 ∧ P 0 ≤ 1000 ∧ 200 ≤ P 1 ∧ P 1 ≤ 1000 ∧ P 2 < 256), writes := [(PWR + PWR_WATCH_PERIOD.off, all)] }
  | 0x0506 => some { ok := n == 1 && decide (P 0 < 256), writes := [(PWR + PWR_WAKE_SRC_PIP.off, 0xFF)] }
  | 0x0507 => some { ok := n == 1 && decide (P 0 < 2), writes := [(PWR + PWR_PARTNER_SLEEP_EN_EN.off, all)] }
  | 0x0508 => some { ok := n == 3 && decide (P 0 ≤ 13) && decide (-32768 ≤ signed 32 (P 1) ∧ signed 32 (P 1) ≤ signed 32 (P 2) ∧ signed 32 (P 2) ≤ 32767),
                     writes := [(PWR + PWR_THR_LO_LOW.off, all)] }
  | 0x0601 => some { long := true, ok := n == 2 && decide (P 0 ≤ 43 ∧ P 0 ≠ 32 ∧ P 1 < 2), reads := if 36 ≤ P 0 then [lpB (bistPort (P 0))] else if P 0 < 32 then [QUIRE] else [],
                     first := some (BIST + BIST_CTL_TARGET.off, true), targets := [if 36 ≤ P 0 then P 0 - 36 else 32 + P 0] }
  | 0x0602 => some { ok := n == 1 && decide (P 0 ≤ 43 ∧ P 0 ≠ 32) }
  | 0x0603 => some { long := true, ok := n == 1 && decide (P 0 ≤ 31), targets := [32 + P 0] }
  | 0x0604 => some { long := true, ok := n == 3 && lane && fitsFld (la + XN_PAT_CTL_GEN_PAT.off) XN_PAT_CTL_GEN_PAT (P 1) && patOk (c.heldRate (laneNum (P 0))) (P 1) && decide (1 ≤ P 2 ∧ P 2 ≤ 60000),
                     writes := [(la + XN_PAT_CTL_GEN_EN.off, all)], first := some (la + XN_PAT_BITS_COUNT.off, false), targets := [8 + P 0] }
  | 0x0605 => some { ok := n == 5 && decide (P 0 ≤ 25 ∧ P 2 ≤ 1) && rollOpOk (P 0) (P 1) && P 3 != 0 && P 4 != 0, writes := [(ROLL + ROLL_CTL_EN.off, all)] }
  | 0x0606 => some { ok := n == 1 && decide (P 0 ≤ 25 ∨ P 0 = 255), writes := [if P 0 = 255 then (ROLL + ROLL_CMD_STOP_ALL.off, all) else (ROLL + ROLL_CTL_EN.off, all)] }
  | 0x0607 => some { ok := decide (n ≤ 32) }
  | 0x0608 =>
    let q := portNo (P 0)
    let l := laneNum (P 0 - 8)
    some (if P 0 < 8 then { ok := n == 2 && fitsFld (lpB q + PMA_CTL_LPBK.off) PMA_CTL_LPBK (P 1), writes := [(lpB q + PMA_CTL_LPBK.off, PMA_CTL_LPBK.mask)] }
          else { ok := n == 2 && decide (P 0 ≤ 23) && fitsFld (laneB l + XN_CTL_LPBK.off) XN_CTL_LPBK (P 1), writes := [(laneB l + XN_CTL_LPBK.off, XN_CTL_LPBK.mask)] })
  | 0x0701 => some { long := true, head := true, reads := [SPINE + SPINE_STAT_POS.off],
                     ok := n == 32 && decide (P 1 / 256 % 256 ≤ 30) && decide (P 0 % 4 ≠ c.pos ∧ P 0 / 4 % 64 = 0 ∧ P 0 / 256 ≤ 31) }
  | 0x0702 => some { ok := n == 0, reads := [SPINE + SPINE_STAT_POS.off] }
  | 0x0703 => some { head := true, ok := n == 2 && decide (1 ≤ P 0 ∧ P 0 ≤ 2) && fitsFld (SPINE + SPINE_CMD_RST_DEST.off) SPINE_CMD_RST_DEST (P 1), writes := [(SPINE + SPINE_CMD_STACK_RST.off, all)] }
  | 0x0704 => some { ok := n == 1 && decide (P 0 < 2), writes := [(SPINE + SPINE_CTL_STACK_PROMOTE.off, SPINE_CTL_STACK_PROMOTE.mask)] }
  | 0x0705 => some { ok := n == 0, writes := [(SPINE + SPINE_CMD_DEMOTE.off, SPINE_CMD_DEMOTE.mask)] }
  | 0x0706 => some { ok := n == 4 && decide (P 0 < 4) && fitsReg (QUIRE + QUIRE_SPILL_ON_VALUE.off) (P 1) && fitsReg (QUIRE + QUIRE_SPILL_OFF_VALUE.off) (P 2) &&
                       fitsReg (QUIRE + QUIRE_SPILL_LEND_VALUE.off) (P 3) && decide (P 1 ≤ P 2), writes := [(QUIRE + QUIRE_SPILL_LEND_VALUE.off, all), (QUIRE + QUIRE_SPILL_OFF_VALUE.off, all), (QUIRE + QUIRE_SPILL_ON_VALUE.off, all), (QUIRE + QUIRE_SPILL_CTL_EN.off, all)] }
  | 0x0707 => some { long := true, head := true, reads := [SPINE + SPINE_STAT_POS.off], ok := n == 31 && decide (P 0 / 256 % 256 ≤ 30) }
  | _ => none

/-- The Binder runs: Run or Doze, out of reset, its RAM usable (R364, 15_self_test_and_faults.md R480). -/
def Chip.binderOn (c : Chip) : Bool := decide (c.pwr.mode ≤ 1) && !c.pwr.rstLow && !c.unusable 32
/-- All mailboxes. -/
def allMbs : List (Fin 4) := [0, 1, 2, 3]
/-- All job slots. -/
def allJobs : List (Fin 8) := [0, 1, 2, 3, 4, 5, 6, 7]
/-- Key of a job slot's registers. -/
abbrev jobB (j : Fin 8) : Nat := bk j.val MBX
/-- A slot's STATE: 0 free, 1 running, 2 DONE (R389). -/
def Chip.jobState (c : Chip) (j : Fin 8) : Nat := c.get (jobB j) MBX_JOB_STAT_STATE
/-- The mailbox whose short command the Binder runs. -/
def Chip.mbRunning (c : Chip) : Option (Fin 4) := allMbs.find? fun m => c.binder.mbs[m].running.isSome

/-- Why a request is refused before it runs, 0 for accepted (R381): BAD_CMD 2, BAD_PARAM 3, NOT_HEAD 13, LOCKED 6,
BLOCK_OFF 5, BUSY 7. -/
def Chip.cmdCheck (c : Chip) (lk : BitVec 16) (r : MbReq) : Nat :=
  match c.cmdSpec r with
  | none => 2
  | some x =>
    if !x.ok then 3
    else if x.head && c.role != 0 && c.role != 2 then 13
    else if x.writes.any fun w => (lockedBits lk w.1 &&& w.2) != 0 then 6
    else if (x.writes.map (·.1) ++ x.reads).any fun a => c.gate a != 0 then 5
    else if x.long && (allJobs.all (fun j => c.jobState j != 0) || allJobs.any fun j =>
        c.jobState j == 1 && match c.cmdSpec c.binder.jobs[j].req with | some y => y.targets.any x.targets.contains | none => false) then 7
    else 0
/-- The access that BLOCK_OFF stands for enters the error log: the first that the command makes of a block that is off (R360; log
entry 125). -/
def Chip.cmdLogOff (c : Chip) (r : MbReq) : Chip :=
  match c.cmdSpec r with
  | none => c
  | some x =>
    match (x.writes.map fun w => (w.1, true)) ++ (x.reads.map fun a => (a, false)) |>.find? fun w => c.gate w.1 != 0 with
    | some w => let a := x.first.getD w; c.errLog .binder a.1 (c.gate w.1) a.2
    | none => c

/-- The words of a request's checksum (R371). -/
def MbReq.sum (r : MbReq) : Nat := (crc32 (be 2 r.cmd ++ be 1 r.par.length ++ r.par.flatMap (be 4))).toNat
/-- The MB2 result message (R387). -/
def mb2Result (cmd tag code : Nat) (dup : Bool) (res : List Nat) : Bytes :=
  be 2 cmd ++ be 1 tag ++ be 1 (128 + res.length) ++ be 1 code ++ be 1 dup.toNat ++ be 2 0 ++ res.flatMap (be 4)
/-- A message leaves toward a position through the face on that side; its own position takes none (R325). -/
def Chip.spToward (c : Chip) (dst : Nat) (body : Bytes) : Chip :=
  if dst < c.pos then c.spSend .n 2 dst body else if c.pos < dst then c.spSend .s 2 dst body else c

/-- A result of a remote request reaches the job that sent it: REMOTE and STACK_ALL keep what each position answered (R386).
`keep` holds, for each answer, the position, the code, DUPLICATE, the number of result words and the words. -/
def Chip.remoteResult (c : Chip) (src cmd tag code : Nat) (dup : Bool) (res : List Nat) : Chip :=
  let waits := fun (j : Fin 8) =>
    let r := c.binder.jobs[j].req
    let w := if r.cmd = 0x0701 then r.p 1 else r.p 0
    c.jobState j == 1 && c.binder.jobs[j].keep == [] && w / 65536 == cmd && w % 256 == tag && r.cmd == 0x0701 && r.p 0 % 4 == src
  let all := fun (j : Fin 8) =>
    let r := c.binder.jobs[j].req
    c.jobState j == 1 && r.cmd == 0x0707 && r.p 0 / 65536 == cmd && r.p 0 % 256 == tag && c.binder.jobs[j].keep.getD src (-1) == -1
  match allJobs.find? waits with
  | some j => c.modJob j fun x => { x with keep := [(code : Int), dup.toNat, res.length] ++ res.map fun v => (v : Int) }
  | none =>
    match allJobs.find? all with
    | some j => c.modJob j fun x => { x with keep := (List.range 4).map fun k => if k = src then (code : Int) else x.keep.getD k (-1) }
    | none => c

/-- A request completes in its mailbox (R370, R372). -/
def Chip.mbDone (c : Chip) (m : Fin 4) (r : MbReq) (code : Nat) (res : List Nat) (dup store : Bool) : Chip :=
  let b := mbB m
  let c := c.each (List.range 32) fun c i => c.putWide (b + 0x80 + 2 * i) 2 (res.getD i 0)
  let c := ((c.put b MBN_STAT_RESULT code).putB b MBN_STAT_DUPLICATE dup).put b MBN_STAT_STATE 3
  let c := ((c.put b MBN_RTAG_RTAG r.tag).put b MBN_RTAG_NRESULT res.length).put b MBN_RCMD_ID r.cmd
  let c := c.putBit MBX MBX_EVT_DONE m.val true
  let c := c.modMb m fun x => { x with running := none }
  let c := if store ∧ r.tag ≠ 0 then c.modMb m fun x => { x with record := some { tag := r.tag, sum := r.sum, cmd := r.cmd, code := code, res := res } } else c
  let c := if code = 1 then c else c.pmcEvt 0 5 1
  let c : Chip := { c with pmc := c.pmc.set 0 { c.pmc[0] with cmd := 0 } }
  if m = 2 then
    let src := r.src
    if src = c.pos then c.remoteResult c.pos r.cmd r.tag code dup res else c.spToward src (mb2Result r.cmd r.tag code dup res)
  else c

/-- A mailbox's doorbell is set: its request waits (R368, R369). -/
def Chip.mbSet (c : Chip) (m : Fin 4) : Chip :=
  let b := mbB m
  let c := (c.put b MBN_CTL_DOORBELL 1).modMb m fun x => { x with waiting := true }
  if c.binder.mbs[m].running.isSome then c.put b MBN_STAT_PENDING 1 else c.put b MBN_STAT_STATE 1
/-- A request from a position of the stack is placed in MB2 and its doorbell set (R387). -/
def Chip.mb2Fill (c : Chip) (r : MbReq) : Chip :=
  let b := mbB 2
  let c := ((c.put b MBN_CMD_ID r.cmd).put b MBN_REQ_TAG r.tag).put b MBN_REQ_NPARAM r.par.length
  let c := c.each ((List.range 32).zip r.par) fun c (x : Nat × Nat) => c.putWide (b + 0x40 + 2 * x.1) 2 x.2
  (c.modMb 2 fun x => { x with source := r.src }).mbSet 2
/-- A request of STACK_ALL for this device that waits for MB2 takes its registers once they are free (R383; log entry 126). -/
def Chip.mbOwn (c : Chip) : Chip :=
  match c.binder.own with
  | r :: l => if c.on (mbB 2) MBN_CTL_DOORBELL then c else (c.modBinder fun x => { x with own := l }).mb2Fill r
  | [] => c

/-- The Binder takes a mailbox's doorbell: it copies the request, decides it against the record and checks it (R368, R372,
R381). A request that passes runs. -/
def Chip.mbTake (c : Chip) (lk : BitVec 16) (m : Fin 4) : Chip :=
  let b := mbB m
  let r : MbReq := { cmd := c.get b MBN_CMD_ID, tag := c.get b MBN_REQ_TAG, src := c.binder.mbs[m].source, par := (List.range (c.get b MBN_REQ_NPARAM)).map fun i => c.wide (b + 0x40 + 2 * i) 2 }
  let c := (((c.put b MBN_CTL_DOORBELL 0).put b MBN_STAT_PENDING 0).put b MBN_STAT_STATE 2).pmcEvt 0 4 1
  let c := (c.modMb m fun x => { x with waiting := false, running := some r }).modBinder fun x => { x with rr := (m.val + 1) % 4 }
  let c := if m = 2 then c.mbOwn else c
  let c : Chip := { c with pmc := c.pmc.set 0 { c.pmc[0] with cmd := r.cmd } }
  match c.binder.mbs[m].record with
  | some x =>
    if r.tag ≠ 0 ∧ r.tag = x.tag then
      if r.sum = x.sum then c.mbDone m r x.code x.res true false
      else (c.mbDone m r 4 [] false false).evt MBX MBX_EVT_TAG_REUSE
    else
      let e := c.cmdCheck lk r
      if e = 0 then c else (if e = 5 then c.cmdLogOff r else c).mbDone m r e [] false true
  | none =>
    let e := c.cmdCheck lk r
    if e = 0 then c else (if e = 5 then c.cmdLogOff r else c).mbDone m r e [] false true
/-- The Binder takes waiting doorbells in round-robin order until a command runs (R365). -/
def Chip.mbNext (lk : BitVec 16) : Nat → Chip → Chip
  | 0, c => c
  | n + 1, c =>
    if !c.binderOn || c.mbRunning.isSome then c
    else
      match ((List.range 4).map fun i => Fin.ofNat 4 (c.binder.rr + i)).find? fun m => c.binder.mbs[m].waiting with
      | some m => Chip.mbNext lk n (c.mbTake lk m)
      | none => c
/-- The Binder looks for a doorbell. -/
abbrev Chip.mbServe (c : Chip) (lk : BitVec 16) : Chip := Chip.mbNext lk 4 c
/-- A mailbox's doorbell is rung (R368, R369). -/
abbrev Chip.mbRing (c : Chip) (lk : BitVec 16) (m : Fin 4) : Chip := (c.mbSet m).mbServe lk
/-- The short command that runs completes with a result, and the Binder takes the next doorbell (R365, R370). -/
def Chip.cmdDone (c : Chip) (lk : BitVec 16) (m : Fin 4) (r : MbReq) (code : Nat) (res : List Nat) : Chip :=
  (c.mbDone m r code res false true).mbServe lk

/-- A job starts in the first free slot, and its command completes with STARTED (R374). -/
def Chip.jobStart (c : Chip) (lk : BitVec 16) (m : Fin 4) (r : MbReq) (keep : List Int) : Chip :=
  match allJobs.find? fun j => c.jobState j == 0 with
  | none => c.cmdDone lk m r 7 []
  | some j =>
    let b := jobB j
    let c := ((c.put b MBX_JOB_STAT_STATE 1).put b MBX_JOB_STAT_MAILBOX m.val).put b MBX_JOB_STAT_RESULT 0
    let c := (c.put b MBX_JOB_CMD_ID r.cmd).put b MBX_JOB_CTL_TAG r.tag
    let c := c.modJob j fun _ => { req := r, mb := m.val, keep := keep }
    c.cmdDone lk m r 1 [j.val]
/-- A job ends: its slot shows the result (R376). -/
def Chip.jobDone (c : Chip) (j : Fin 8) (code : Nat) (res : List Nat) : Chip :=
  let b := jobB j
  let r := c.binder.jobs[j].req
  let c := c.each (List.range 30) fun c i => c.putWide (b + 0x440 + 2 * i) 2 (res.getD i 0)
  let c := ((c.put b MBX_JOB_STAT_RESULT code).put b MBX_JOB_STAT_STATE 2).put b MBX_JOB_CMD_ID r.cmd
  let c := (c.put b MBX_JOB_CTL_TAG r.tag).modJob j fun x => { x with res := res.take 30 }
  (c.evt MBX MBX_EVT_JOB_DONE).pmcEvt 0 6 1
/-- A slot in DONE is freed (R376). -/
def Chip.jobRelease (c : Chip) (j : Fin 8) : Chip :=
  let c := c.put (jobB j) MBX_JOB_CTL_RELEASE 0
  if c.jobState j = 2 then (c.put (jobB j) MBX_JOB_STAT_STATE 0).modJob j fun _ => {} else c
/-- Every running job ends with a result (R377, R378). -/
def Chip.jobsEnd (c : Chip) (code : Nat) : Chip := c.each allJobs fun c j => if c.jobState j = 1 then c.jobDone j code [] else c

end Sys2Proof.Machine
end

