-- ==== Sys2Proof/Machine/Power.lean ====
section
/-! DEFINITION. Power states, wake and resets (13_power_and_reset.md): requests, entry to Doze, Nap and Watch, wake sources and
wake steps, keep banks, and the power-on, pin and global soft resets; with the events of other chapters that act through
them. -/

namespace Sys2Proof.Machine

/-- PWR_STAT.STATE follows the pending request and the state (R425, R449). -/
def Chip.pwrShow (c : Chip) : Chip := c.put PWR PWR_STAT_STATE (if 2 ≤ c.pwr.mode then 3 else if c.pwr.req.isSome then 2 else c.pwr.mode)
/-- An accepted request becomes pending (R424, R425): 1 Doze, 2 Nap, 3 Watch. -/
def Chip.pwrRequest (c : Chip) (target delay by_ : Nat) : Chip :=
  if 2 ≤ c.pwr.mode ∨ c.pwr.rstLow ∨ c.pwr.dozeDue ∨ target = 0 ∨ (target = 1 ∧ c.pwr.mode = 1) then c
  else (c.modPwr fun x => { x with req := some { target := target, delay := delay, by_ := by_ }, due := false }).pwrShow
/-- A pending request is cancelled. -/
def Chip.pwrCancel (c : Chip) : Chip := (c.modPwr fun x => { x with req := none, due := false }).pwrShow

/-- A wake source is enabled (R431). -/
def Chip.wakeEnabled (c : Chip) (code : Nat) : Bool :=
  match code with
  | 1 => c.on PWR PWR_WAKE_SRC_PIP
  | 2 => c.on PWR PWR_WAKE_SRC_TWM
  | 7 => c.on PWR PWR_WAKE_SRC_THR
  | 8 => c.on PWR PWR_WAKE_SRC_SPINE
  | 9 | 10 => true
  | n => decide (3 ≤ n ∧ n ≤ 6) && c.bit PWR PWR_WAKE_SRC_CAP (n - 3)
/-- The states in which a source is detected: 1 Doze, 2 Nap, 3 Watch (R431). -/
def wakeIn (code mode : Nat) : Bool :=
  match code with
  | 1 => mode == 1 || mode == 3
  | 7 => mode == 3
  | 8 | 9 => mode == 2 || mode == 3
  | 10 => mode == 1
  | n => decide (2 ≤ n ∧ n ≤ 6 ∧ 1 ≤ mode ∧ mode ≤ 3)
/-- PWR_WAKE_CAUSE records a source (R432). -/
def Chip.wakeCause (c : Chip) (code idx : Nat) (during : Bool) : Chip :=
  ((c.put PWR PWR_WAKE_CAUSE_SRC code).put PWR PWR_WAKE_CAUSE_INDEX (if code = 1 ∨ code = 7 then idx else 0)).putB PWR PWR_WAKE_CAUSE_DURING_ENTRY during
/-- A wake from Nap or Watch starts: the regulator and the oscillators (R434); until FOSC's count the monitor checks XA against
XB (R405). -/
def Chip.wakeBegin (c : Chip) : Chip :=
  let t := c.get CLK CLK_LEVEL_TARGET
  ((c.modPwr fun x => { x with wake := some 0, wakeAt := c.tpll }).modClk fun x => { x with vsel := t, vselAt := some c.tpll }).put CLK CLK_MON_STAT_VS_XB 1
/-- The sources of one AON cycle, each with its index (R425, R431 to R433): the lowest code is recorded. -/
def Chip.wakeSources (c : Chip) (l : List (Nat × Nat)) (during : Bool) : Chip :=
  let on := l.filter fun x => c.wakeEnabled x.1
  let first := fun (m : List (Nat × Nat)) => m.foldl (fun (a : Option (Nat × Nat)) x => match a with | some y => if x.1 < y.1 then some x else some y | none => some x) none
  let c :=
    match first on with
    | some x => if c.pwr.req.isSome ∧ c.pwr.mode ≤ 1 then c.pwrCancel.wakeCause x.1 x.2 false else c
    | none => c
  let hits := on.filter fun x => wakeIn x.1 c.pwr.mode
  match first hits with
  | none => c
  | some x =>
    if c.pwr.rstLow then c
    else
      let c := c.each hits fun c y => c.put PWR ⟨PWR_WAKE_SEEN_SEEN.off, y.1, 1⟩ 1
      if c.pwr.mode = 1 then
        if c.pwr.dozeDue then c else (c.wakeCause x.1 x.2 during).modPwr fun y => { y with dozeDue := true }
      else if c.pwr.wake.isSome then c
      else (c.wakeCause x.1 x.2 during).wakeBegin
/-- One source. -/
abbrev Chip.wakeSource (c : Chip) (code idx : Nat) : Chip := c.wakeSources [(code, idx)] false

/-- Body bias of an island's logic (R441). -/
inductive BodyBias where
  | none | reverse | off
deriving DecidableEq, Repr
/-- The bias of island k, in the order of PWR_ISLANDS: the data islands that Doze stops take reverse bias, an island without power
none at all (R422, R441). -/
def Chip.islandBias (c : Chip) (k : Nat) : BodyBias :=
  if c.islandOn k = false then .off else if c.pwr.mode = 1 ∧ 2 ≤ k ∧ k ≤ 5 then .reverse else .none
/-- The keep banks' arrays hold on 0.55 V, their periphery at reverse bias (R441). -/
def Chip.keepRetained (c : Chip) : Bool := c.pwr.mode == 2 || c.pwr.mode == 3
/-- The read assist of the memories on VDD_CORE: on at L0, off at L1 and L2, none in Nap, Watch and Off (R441). -/
def Chip.readAssist (c : Chip) : Option Bool :=
  if c.pwr.mode ≤ 1 then some (c.get CLK CLK_LEVEL_ACTUAL == 0) else none

/-- Entry to Doze (R422). -/
def Chip.dozeEnter (c : Chip) : Chip :=
  let c := (c.modPwr fun x => { x with mode := 1, req := none, due := false }).pwrShow
  let c := c.put PWR PWR_WAKE_SEEN_SEEN 0
  let c := c.each allPorts fun c p => if c.lState p = 0 then c else c.toLink p 0
  let c := c.each allLanes fun c l => if c.laneOn l then c.laneStop l else c
  (c.modQuire fun x => { x with spill := none }).put QUIRE QUIRE_SPILL_STAT_ACTIVE 0
/-- Doze ends: the stopped islands run again (R423). -/
def Chip.dozeLeave (c : Chip) : Chip :=
  let c := c.modPwr fun x => { x with mode := 0, dozeDue := false, req := none, due := false }
  let c := ((c.put PWR PWR_STAT_LAST 1).put PWR PWR_CTL_REQ 0).pwrShow
  ((c.startPorts).startLanes).qSettle

/-- The mailbox records, results and job slots are gone (11_binder_mailboxes.md R373, R377; R438). -/
def Chip.mbxLost (c : Chip) : Chip := (c.resetRegs (fun a => blkOf a == 0x08) KB).modBinder fun _ => {}
/-- What a part of the chip loses with its power, the keep banks' contents and the AON island aside. -/
def Chip.islandsLost (c : Chip) (letter : Nat) : Chip :=
  let c := c.bistAbort
  let c := c.each allPorts Chip.portClear
  let c := c.each allLanes Chip.laneClear
  let c := (c.quireClear).modQuire fun x => { queues := x.queues.map fun _ => {} }
  let c := (c.ptpRestart).each quad fun c i => c.modCap i fun _ => {}
  let c := c.each (c.cal.running.map (·.1)) Chip.calAbort
  let c := (c.rollStopAll).modBist fun x => { x with engines := Vector.replicate 26 {} }
  let c := c.modBinder fun b => { b with rr := 0, mbs := b.mbs.map fun m => { m with running := none, waiting := false } }
  let c := c.resetRegs (fun a => blkOf a != 0x06) letter
  let c := c.put HGRP HGRP_STAT_GATHER_UP 0
  { c with hgrp := {}, pmc := Vector.replicate 2 {}, fab := { mmd := c.fab.mmd } }

/-- Bits 127 to 0 of every word of a keep bank in address order (R437, R438; log entry 122): K0 the mailbox records, results and
job slots, K1 the snapshots, K2 the loading tables, K3 servo state and ledger cache. -/
def Chip.keepWords (c : Chip) (k : Nat) : List (BitVec 128) :=
  (List.range 8192).map fun a =>
    match k with
    | 0 => Config.keepWord 0 (c.binder, c.regs.filter fun x => blkOf x.1 == 0x08) a
    | 1 => Config.keepWord 1 (c.ports.toList.map fun x => x.link.snap) a
    | 2 => Config.keepWord 2 (c.ports.toList.map fun x => x.oct.k2) a
    | _ => Config.keepWord 3 (c.folio.first, c.folio.fined, c.folio.since, c.folio.hist, c.age) a
/-- The signature of a bank's words: CRC-32 over their data bits (R437), the most significant byte first (log entry 122). -/
def keepSigOf (l : List (BitVec 128)) : BitVec 32 := crc32 (l.flatMap fun w => be 16 w.toNat)
/-- PWR_KEEP selects bank k; the bit of an unusable K1, K2 or K3 reads 0 (15_self_test_and_faults.md R480). -/
def Chip.keeps (c : Chip) (k : Nat) : Bool := c.bit PWR PWR_KEEP_KEEP k && (k == 0 || !c.unusable (32 + k))
/-- PWR_KEEP as it reads. -/
def Chip.keepMap (c : Chip) : Nat := ofBits ((List.range 4).map c.keeps)
/-- Step 5 of entry stores the signatures of the banks that PWR_KEEP selects (R437). -/
def Chip.keepSign (c : Chip) : Chip :=
  c.modPwr fun x => { x with
    keepSig := (List.range 4).map fun k => if c.keeps k then some (keepSigOf (c.keepWords k)) else none }

/-- Entry to Nap or Watch (R427, R428, R437): announcement, abort of jobs, loss of the islands, signatures, retention. -/
def Chip.sleepEnter (c : Chip) (target : Nat) : Chip :=
  let c := (c.put PWR PWR_WAKE_SEEN_SEEN 0).jobsEnd 14
  let c := c.each [Face.n, Face.s] fun c f => if c.fSt f = 4 then c.spSend f 6 c.pos (be 1 (target - 1) ++ be 2 0) else c
  let sent := c.spine
  let c := ((c.folioSleep).toFace .n 0).toFace .s 0
  let c := c.islandsLost (if target = 2 then KN else KW)
  -- the announcements stay visible as the messages last handed to the faces
  let said := fun (x : FaceSt) => ({ out := x.out, queue := x.queue, wire := x.wire } : FaceSt)
  let c := c.modSpine fun _ => { north := said sent.north, south := said sent.south }
  let c := c.modClk fun x => { x with
    stable := setB (setB x.stable 0 false) 2 false, lock := 0, ready := 0, hold := 0, run := 0, xaFails := 0, xbFails := 0, xaPasses := 0, xbPasses := 0,
    refSum := 0, refCnt := 0, vsTrip := false, levelTo := none, levelNext := none, vsel := 3 }
  let c := ((c.put CLK CLK_MON_STAT_XA_FAIL 0).put CLK CLK_MON_STAT_VS_XB 0).put CLK CLK_STAT_DATA_HALT 0
  let c := (c.put PWR PWR_ISLANDS_ON 1).modPwr fun x => { x with mode := target, req := none, due := false, dozeDue := false, wake := none, rdy := false }
  c.keepSign.pwrShow
/-- A pending request's entry begins, unless an MTP write or a short command is in progress: then it waits for its end
(R385, R425, R426). `during`: the wake sources that arrive while entry runs (R433). -/
def Chip.entryBegin (c : Chip) (during : List (Nat × Nat)) : Chip :=
  match c.pwr.req with
  | none => c
  | some r =>
    if !c.cal.mtpq.isEmpty || c.mbRunning.isSome then c.modPwr fun x => { x with due := true }
    else
      let c := if r.target = 1 then c.dozeEnter else c.sleepEnter r.target
      c.wakeSources during true
/-- An entry that waits goes on when nothing holds it any longer (R385, R426). -/
def Chip.entryDue (c : Chip) : Chip := if c.pwr.due then c.entryBegin [] else c

/-- A keep bank fails its check, or is not kept: its fallback (R438, R439). -/
def Chip.keepLost (c : Chip) (k : Nat) : Chip := if k = 0 then c.mbxLost else c.bankLost k
/-- The kept bank k is read through its code with these wrong bits, by word (R438): whether a word was corrected, and whether the
bank is lost, with an uncorrectable word or another signature than the one stored. -/
def Chip.keepRead (c : Chip) (k : Nat) (errs : List (Fin 8192 × BitVec 145)) : Bool × Bool :=
  let seen := errs.map fun e => (e.1.val, wordErr e.2)
  let words := (c.keepWords k).zipIdx.map fun w => seen.foldl (fun v e => if e.1 = w.2 then v ^^^ e.2.2 else v) w.1
  (seen.any fun e => e.2.1 == .corrected,
    (seen.any fun e => e.2.1 == .bad) || c.pwr.keepSig.getD k none != some (keepSigOf words))
/-- Step 3 of a wake: the kept banks' checks (R438, R439); `errs`: the wrong bits of the kept banks' words. -/
def Chip.keepCheck (c : Chip) (errs : List (Fin 4 × Fin 8192 × BitVec 145)) : Chip :=
  let of := fun (k : Nat) => c.keepRead k ((errs.filter fun e => e.1.val == k).map (·.2))
  let kept := c.keeps
  let map := fun (f : Nat → Bool) => ofBits ((List.range 4).map fun k => kept k && f k)
  let lost := fun (k : Nat) => (of k).2
  let d := (c.put PWR PWR_KEEP_LOST_CORR (map fun k => (of k).1)).put PWR PWR_KEEP_LOST_LOST (map lost)
  d.each (List.range 4) fun d k => if kept k ∧ lost k = false then d else d.keepLost k
/-- The islands that the enables and PWR_RUN_GATE have powered (R421). -/
def Chip.islandsUp (c : Chip) : Chip :=
  let c := c.put PWR PWR_ISLANDS_ON 0x43
  c.each [2, 3, 4, 5, 7] fun c (k : Nat) => if c.islandNeed k ∨ c.islandGate k = false then c.putBit PWR PWR_ISLANDS_ON k true else c
/-- The clocks run again after sleep: CPLL and TPLL ready, level TARGET (R434, R436); with XA failed CPLL does not lock and the
CTRL island stays on FOSC (R410). -/
def Chip.clocksUp (c : Chip) : Chip :=
  let t := c.get CLK CLK_LEVEL_TARGET
  let xa := c.on CLK CLK_MON_STAT_XA_FAIL
  let n := if xa then 2 else 3
  let c := c.modClk fun x => { x with lock := n, ready := n, hold := 0, run := n, div := t, vsel := t }
  let c := c.put CLK CLK_STAT_CTRL_SRC (if xa then 1 else 0)
  ((c.put CLK CLK_LEVEL_ACTUAL t).put CLK CLK_LEVEL_BUSY 0).put CLK CLK_LEVEL_VHIGH 0
/-- Step 4 of a wake: the logic runs, RDY rises (R219, R434, R436). -/
def Chip.wakeDone (c : Chip) : Chip :=
  let was := c.pwr.mode
  let xb := c.on CLK CLK_MON_STAT_XB_FAIL
  let c := c.modPwr fun x => { x with mode := 0, wake := none, rdy := true }
  let c := (c.clocksUp.islandsUp).modClk fun x => { x with tpllXa := xb }
  let c := c.put PWR PWR_WAKE_TIME_TIME (satU 16 ((c.tpll - c.pwr.wakeAt) / 1250))
  let c := ((c.put PWR PWR_STAT_LAST was).put PWR PWR_CTL_REQ 0).put GLB GLB_RST_CAUSE_WAKE 1
  let c := (c.folioWake xb).pwrShow
  (c.spinePlace).poolChanged

/-- The straps are sampled at the end of a reset (17_pins_and_electrical.md R512), and the pool is computed for the banks and
settings that it leaves (08_quire_buffer.md R279). -/
def Chip.strapSample (c : Chip) (straps : BitVec 8) : Chip :=
  ((c.setReg (GLB + GLB_STRAP_POS.off) (straps.setWidth 16)).spinePlace).poolChanged
/-- Everything that a pin reset clears is cleared (R442, R447). -/
def Chip.pinClear (c : Chip) : Chip :=
  let aon := c.get CLK CLK_STAT_AON_SRC
  let xb := c.get CLK CLK_MON_STAT_XB_FAIL
  let regs := c.regs.keep (fun a => blkOf a != 0x06) fun f => f.kept &&& KP != 0 && decide (f.kept < 64)
  let new : Chip := {
    regs := regs, cal := { c.cal with mtpq := [], running := [], sched := none }, age := c.age, bist := { spares := c.bist.spares }, tpll := c.tpll, freeCtr := c.freeCtr
    clk := { stable := setB (setB c.clk.stable 0 true) 2 true, learned := c.clk.learned, tpllXa := c.clk.tpllXa, xbFails := c.clk.xbFails }
    pwr := { rstLow := c.pwr.rstLow, wakeAt := c.pwr.wakeAt, rdy := false } }
  (((new.put CLK CLK_STAT_AON_SRC aon).put CLK CLK_MON_STAT_XB_FAIL xb).ageResume)
/-- A pin reset begins: in sleep it follows the wake steps (R444, R446). -/
def Chip.pinAssert (c : Chip) : Chip :=
  let c := (c.put GLB GLB_RST_CAUSE_PIN 1).modPwr fun x => { x with rstLow := true, rdy := false }
  if 2 ≤ c.pwr.mode then (c.modPwr fun x => { x with pinDue := true }).wakeBegin else c.pinClear
/-- A pin reset ends (R442, R444). -/
def Chip.pinRelease (c : Chip) (straps : BitVec 8) : Chip :=
  (c.modPwr fun x => { x with rstLow := false, rdy := decide (x.mode ≤ 1) }).strapSample straps

/-- A global soft reset (R445): everything is reset but what G keeps, and ports, lanes, faces and servo start again. -/
def Chip.glbReset (c : Chip) : Chip :=
  if 2 ≤ c.pwr.mode then c
  else
    let c := if c.pwr.mode = 1 then c.dozeLeave else c
    let c := c.bistAbort
    let c := c.each (c.cal.running.map (·.1)) Chip.calAbort
    let c := c.folioSrst
    let c := c.each allPorts Chip.portClear
    let c := c.each allLanes Chip.laneClear
    let c := (c.quireClear).modQuire fun x => { queues := x.queues.map fun _ => {} }
    let c := c.rollStopAll
    let c := c.modBinder fun _ => {}
    let c := c.resetRegs (fun a => blkOf a != 0x06) KG
    let c := c.put HGRP HGRP_STAT_GATHER_UP 0
    let c : Chip := { c with hgrp := {}, pmc := Vector.replicate 2 {}, fab := { mmd := c.fab.mmd } }
    let c := ((c.modPwr fun x => { x with req := none, due := false, dozeDue := false }).pwrShow).spineReset
    let c := ((c.taggedIdle).poolChanged).startPorts
    c.startLanes

/-- The power-on reset sequence to its end (R442, R443): NVM is loaded, every memory tested, the straps sampled, RDY high.
`bad`: NVM slots whose check fails, `fails`, `second`, `stores`: what the memory test finds. -/
def Chip.powerOn (c : Chip) (straps : BitVec 8) (bad : List Nat) (fails : List (Nat × Nat × Nat)) (second : List Nat) (stores : Bool) : Chip :=
  let serial := c.wide (GLB + GLB_SERIAL_SERIAL.off) 3
  let new : Chip := {
    cal := { otp := c.cal.otp, mtp := c.cal.mtp, writes := c.cal.writes }
    age := { ledger := c.age.ledger, seq := c.age.seq, total := c.age.total, log := c.age.log }
    tpll := c.tpll, freeCtr := c.freeCtr }
  let c := (new.putWide (GLB + GLB_SERIAL_SERIAL.off) 3 serial).nvmLoad bad
  let c := ((c.ageLoad bad).plannerLoad).ageResume
  (c.bistPor fails second stores).strapSample straps
/-- A supply has left its range: the part is Off (R420, 17_pins_and_electrical.md R518). -/
def Chip.powerOff (c : Chip) : Chip :=
  let serial := c.wide (GLB + GLB_SERIAL_SERIAL.off) 3
  let new : Chip := {
    cal := { otp := c.cal.otp, mtp := c.cal.mtp, writes := c.cal.writes }
    age := { ledger := c.age.ledger, seq := c.age.seq, total := c.age.total, log := c.age.log }
    clk := { stable := 0, lock := 0, ready := 0, run := 0 }, pwr := { mode := 4, rdy := false }, tpll := c.tpll, freeCtr := c.freeCtr }
  (new.putWide (GLB + GLB_SERIAL_SERIAL.off) 3 serial).put PWR PWR_ISLANDS_ON 0

/-- SLEEP_DELAY_EXPIRY (R385, R422, R425 to R428, R433): a pending request's delay ends; `during`: code and index of the wake
sources that arrive while entry runs. -/
def execSleepDelayExpiry (during : List (Fin 11 × Fin 16)) (s : State) : Res :=
  s.act fun c => c.entryBegin (during.map fun x => (x.1.val, x.2.val))
/-- DOZE_EXIT (R423): at most 20 µs after what ends Doze. -/
def execDozeExit (s : State) : Res := s.act fun c => if c.pwr.mode = 1 ∧ c.pwr.dozeDue then c.dozeLeave else c
/-- WATCH_PERIOD (R429, R430): the sensors are sampled in the window, and the first sample outside its thresholds wakes. -/
def execWatchPeriod (temps rails : List (BitVec 16)) (s : State) : Res :=
  s.act fun c =>
    if c.pwr.mode = 3 ∧ c.pwr.wake = none ∧ c.on PWR PWR_WATCH_PAIRS_SENSE then
      let c := c.sensorsSeen temps rails
      let out := (List.range 14).find? fun k =>
        match if k < 8 then temps[k]? else rails[k - 8]? with
        | none => false
        | some w =>
          let x := signed 16 w.toNat
          decide (x < signed 16 (c.get (bk k PWR) PWR_THR_LO_LOW) ∨ signed 16 (c.get (bk k PWR) PWR_THR_HI_HIGH) < x)
      match out with | some k => c.wakeSource 7 k | none => c
    else c
/-- CAP_WAKE_EDGE (R425, R431): the edge, rising or not, on CAPn. -/
def execCapWakeEdge (i : Fin 4) (rising : Bool) (s : State) : Res :=
  s.act fun c => if c.bit PWR PWR_WAKE_SRC_CAP_EDGE i.val = rising then c else c.wakeSource (3 + i.val) 0
/-- SPINE_WAKE_CLOCK (R332, R431): 2 µs of clock activity on SPN_RX_CK. -/
def execSpineWakeClock (s : State) : Res := s.act fun c => c.wakeSource 8 0
/-- WAKE_START (R432, R434): the sources of one AON cycle, with their index, start a wake. -/
def execWakeStart (l : List (Fin 11 × Fin 16)) (s : State) : Res := s.act fun c => c.wakeSources (l.map fun x => (x.1.val, x.2.val)) false
/-- WAKE_STEP_READY (R434 to R436, R438, R439, R446): the next step of a wake becomes ready; for the memory step, the wrong bits of
the kept banks' words, by bank and word. -/
def execWakeStepReady (errs : List (Fin 4 × Fin 8192 × BitVec 145)) (s : State) : Res :=
  s.act fun c =>
    match c.pwr.wake with
    | none => c
    | some n =>
      let show_ := fun (c : Chip) (f : Fld) => if c.pwr.pinDue then c else c.put PWR f 1
      let go := fun (c : Chip) => c.modPwr fun x => { x with wake := some (n + 1) }
      match n with
      | 0 => go (show_ c PWR_WAKE_STEP_REG)
      | 1 =>
        let c := (c.put CLK CLK_MON_STAT_VS_XB 0).modClk fun x => { x with stable := setB (setB x.stable 0 true) 2 true }
        go (show_ c PWR_WAKE_STEP_OSC)
      | 2 => go (show_ (if c.pwr.pinDue then c else c.keepCheck errs) PWR_WAKE_STEP_MEM)
      | _ =>
        if c.pwr.pinDue then ((c.pinClear).strapSample ((c.reg (GLB + GLB_STRAP_POS.off)).setWidth 8)).modPwr fun x => { x with rdy := !x.rstLow }
        else (show_ c PWR_WAKE_STEP_LOGIC).wakeDone
/-- RST_N_ASSERT (R444, R446): RST_N low for 1 µs or longer. -/
def execRstNAssert (s : State) : Res := s.act fun c => if c.pwr.mode = 4 then c else c.pinAssert
/-- RST_N_RELEASE (R442, R444, 17_pins_and_electrical.md R512). -/
def execRstNRelease (straps : BitVec 8) (s : State) : Res := s.act fun c => if c.pwr.rstLow then c.pinRelease straps else c
/-- POWER_ON_RESET (R442, R443; R14): every register, REG_LOCK too, is as after power-on. -/
def execPowerOnReset (straps : BitVec 8) (bad : List Nat) (fails : List (Nat × Nat × Nat)) (second : List Nat) (stores : Bool) (s : State) : Res :=
  .next { s with chip := s.chip.powerOn straps bad fails second stores, lock := {} }
/-- SUPPLY_FAIL (17_pins_and_electrical.md R518): a rail below its threshold for more than 1 µs. -/
def execSupplyFail (s : State) : Res := .next { s with chip := s.chip.powerOff, lock := {} }
/-- MTP_WRITE_DONE (14_calibration_and_ageing.md R454, R426): the write in progress ends, read back well or not. -/
def execMtpWriteDone (ok : Bool) (s : State) : Res := s.act fun c => (c.mtpDone ok).entryDue
/-- XB_SLEEP_WINDOW_END (12_clocks.md R406, R409): the XB edges of 32 SOSC cycles in Nap or Watch. -/
def execXbSleepWindowEnd (count : Nat) (s : State) : Res :=
  s.act fun c =>
    if c.pwr.mode ≠ 2 ∧ c.pwr.mode ≠ 3 ∨ c.on CLK CLK_MON_CTL_XB_EN = false ∨ c.on CLK CLK_MON_STAT_XB_FAIL then c
    else if count < 9600 ∨ 28800 < count then
      let c := c.modClk fun x => { x with xbFails := x.xbFails + 1 }
      if c.clk.xbFails < 2 then c
      else ((((c.put CLK CLK_MON_STAT_XB_FAIL 1).evt CLK CLK_EVT_XB_FAIL).evt CLK CLK_EVT_NME_CLK).put CLK CLK_STAT_AON_SRC 1).wakeSource 9 0
    else c.modClk fun x => { x with xbFails := 0 }

/-- WAKE_RX (04_pip_channel.md R152, R431): a WAKE frame with a good CRC on pair p. -/
def execWakeRx (p : Port) (rate : Fin 3) (lq : Byte) (s : State) : Res :=
  s.act fun c =>
    let c := if c.pipHears p then c.pipGood p 5 rate.val lq.toNat else c
    if c.bit PWR PWR_WATCH_PAIRS_LISTEN p.val ∧ (c.pwr.mode ≠ 3 ∨ rate = 0) then c.wakeSource 1 p.val else c
/-- SLEEP_RX (04_pip_channel.md R154, R424): the partner asks for Nap (1) or Watch (2) after a delay in ms. -/
def execSleepRx (p : Port) (rate : Fin 3) (lq seq : Byte) (st : Byte) (delay : BitVec 16) (s : State) : Res :=
  s.act fun c => c.pipOnce p 6 seq.toNat rate.val lq.toNat fun c =>
    let ok := c.on PWR PWR_PARTNER_SLEEP_EN_EN && decide (st.toNat = 1 ∨ st.toNat = 2)
    let c := (c.evt (lpB p) PIP_EVT_SLEEP_RX).pipAck p 6 seq.toNat rate.val (!ok).toNat
    if ok then c.pwrRequest (st.toNat + 1) delay.toNat 2 else c
/-- The source of a message is the head, or the acting head (09_spine_cascade.md R329, R330). -/
def Chip.fromHead (c : Chip) (src : Nat) : Bool := src == c.spine.acting && src != c.pos
/-- POWER_RX (09_spine_cascade.md R325, R332; R424, R427): a neighbour's announcement that it sleeps, which it addresses to
itself (log entry 77), or the head's request. -/
def execPowerRx (f : Face) (b : Bytes) (s : State) : Res :=
  s.act fun c => c.spRx f 6 b fun m c =>
    if c.role = 3 then c
    else if m.src = m.dst ∧ m.src = c.beyond f then
      let c := c.modFace f fun x => { x with announced := true }
      match f with | .s => c.modSpine fun x => { x with stopDue := true } | .n => c
    else c.spDeliver f (fun m c =>
      let st := beAt m.body 0 1
      if c.isTail ∧ c.fromHead m.src ∧ (st = 1 ∨ st = 2) then c.pwrRequest (st + 1) (beAt m.body 1 2) 3
      else c.bumpFace f 9 1) m

/-- STACK_RESET_ACT (09_spine_cascade.md R331): 10 µs after its acknowledgement the tail takes the reset; for kind 2 the straps
are sampled again. -/
def execStackResetAct (straps : BitVec 8) (s : State) : Res :=
  s.act fun c =>
    match c.spine.resetDue with
    | some 1 => ((c.modSpine fun x => { x with resetDue := none }).put GLB GLB_RST_CAUSE_STACK_GLB 1).glbReset
    | some _ => ((c.put GLB GLB_RST_CAUSE_STACK_PIN 1).pinClear).pinRelease straps
    | none => c

end Sys2Proof.Machine
end

