-- ==== Sys2Proof/Machine/Views.lean ====
section
/-! DEFINITION. What a register reads (10_register_fabric.md R335, R336): stored fields as the store holds them, fields that
show a unit's state computed from it. -/

namespace Sys2Proof.Machine

/-- Register k of a wide value (R336). -/
def wordOf (v k : Nat) : BitVec 16 := BitVec.ofNat 16 (v / 2 ^ (16 * k))
/-- A word with a field replaced. -/
abbrev withFld (w : BitVec 16) (f : Fld) (v : Nat) : BitVec 16 := splice w f.lo f.w v

/-- The usable-bank map of Quire (08_quire_buffer.md R306). -/
def Chip.bankMap (c : Chip) : Nat :=
  if c.unusable 44 then 0 else ofBits ((List.range 32).map fun b => !c.unusable b && c.bist.bank != some b)
/-- The engines that are acting, as ROLL_ACTIVE shows them. -/
def Chip.rollMap (c : Chip) : Nat := ofBits (allEngines.map c.rollActive)
/-- REG_POSTED (R357). -/
def Chip.postedMap (c : Chip) : Nat := ofBits (([0, 1, 2] : List (Fin 3)).map fun k => c.fab.posted[k].isSome)
/-- A nominal line constant is in use (06_folio_time.md R204). -/
def Chip.nominal (c : Chip) : Bool := match c.cal.use.find? fun x => x.1 == 1 with | some (_, u) => u.source == 0 | none => false

/-- Registers of GLB. -/
def Chip.viewGlb (c : Chip) (a : Nat) (w : BitVec 16) : BitVec 16 :=
  match a % 0x1000 with
  | 0x30 => wordOf c.alertWord 0
  | 0x31 => wordOf c.alertWord 1
  | 0x34 => wordOf c.nme 0
  | _ => w
/-- Registers of QUIRE (08_quire_buffer.md R306). -/
def Chip.viewQuire (c : Chip) (a : Nat) (w : BitVec 16) : BitVec 16 :=
  let q := c.quire.queues[c.qSel]
  match a % 0x1000 with
  | 0x01 => withFld w QUIRE_STAT_BANKS c.banks
  | 0x02 => wordOf c.bankMap 0
  | 0x03 => wordOf c.bankMap 1
  | 0x12 => wordOf c.poolFree 0
  | 0x13 => wordOf c.poolFree 1
  | 0x14 => wordOf c.poolSize 0
  | 0x15 => wordOf c.poolSize 1
  | 0x24 => wordOf q.occ 0
  | 0x25 => wordOf q.occ 1
  | 0x26 => BitVec.ofNat 16 (q.held.toNat + 2 * (c.quire.spill == some c.qSel.val).toNat + 4 * (q.frames.any fun f => f.spilled.isSome).toNat)
  | 0x29 => BitVec.ofNat 16 (c.hdrmUse c.qSel)
  | 0x31 => wordOf q.limit 0
  | 0x32 => wordOf q.limit 1
  | 0x33 => wordOf q.count 0
  | 0x34 => wordOf q.count 1
  | 0x44 => withFld w QUIRE_SPILL_STAT_PEER_LEND (decide (0 < c.peerLend)).toNat
  | _ => w
/-- The oldest stamp of the selected capture input, 0 when its queue is empty (06_folio_time.md R223). -/
def Chip.capWord (c : Chip) : Nat := (c.capTake (Fin.ofNat 4 (c.get FOLIO FOLIO_CAP_STAT_SEL))).2
/-- Registers of FOLIO (06_folio_time.md R228). -/
def Chip.viewFolio (c : Chip) (a : Nat) (w : BitVec 16) : BitVec 16 :=
  let o := a % 0x1000
  if 0x10 ≤ o ∧ o < 0x16 then wordOf (timeWord c.now) (o - 0x10)
  else if 0x74 ≤ o ∧ o < 0x7A then wordOf c.capWord (o - 0x74)
  else if o = 0x72 then
    let x := c.folio.caps[Fin.ofNat 4 (c.get FOLIO FOLIO_CAP_STAT_SEL)]
    withFld (withFld (withFld w FOLIO_CAP_STAT_LEVEL x.queue.length) FOLIO_CAP_STAT_EDGE x.edge.toNat)
      FOLIO_CAP_STAT_OVF (c.get (bk (c.get FOLIO FOLIO_CAP_STAT_SEL) FOLIO) FOLIO_CAP_STAT_OVF)
  else if o = 0x81 then
    withFld (withFld w FOLIO_OUT_CTL_SEL (c.get FOLIO FOLIO_OUT_CTL_SEL)) FOLIO_OUT_CTL_ACTIVE
      (c.folio.outs[Fin.ofNat 4 (c.get FOLIO FOLIO_OUT_CTL_SEL)]).armed.toNat
  else w
/-- Registers of CAL and AGE (14_calibration_and_ageing.md R472). -/
def Chip.viewCal (c : Chip) (a : Nat) (w : BitVec 16) : BitVec 16 :=
  match a with
  | 0x3032 => BitVec.ofNat 16 c.nvmRec
  | 0x3033 => BitVec.ofNat 16 c.nvmWr
  | 0x4003 => BitVec.ofNat 16 c.ageStat
  | 0x4021 => wordOf c.propWord 0
  | 0x4022 => wordOf c.propWord 1
  | 0x4023 => BitVec.ofNat 16 c.propDueRead
  | _ => w
/-- Registers of ROLL (15_self_test_and_faults.md R495). -/
def Chip.viewRoll (c : Chip) (a : Nat) (w : BitVec 16) : BitVec 16 :=
  match a % 0x1000 with
  | 0x08 => BitVec.ofNat 16 (c.rollStat (Fin.ofNat 26 (c.get ROLL ROLL_SEL_ENGINE)))
  | 0x20 => wordOf c.rollMap 0
  | 0x21 => wordOf c.rollMap 1
  | _ => w
/-- The reflection that LPn_DIAG_SEL selects (05_cable_and_idle.md R167). -/
def Chip.reflSel (c : Chip) (p : Port) : Refl := (c.port p).diag.refls.getD (c.get (lpB p) DIAG_SEL_ENTRY) {}
/-- Registers of LPn, the Octavo and time areas aside (02_line_port.md R79, 04_pip_channel.md R159, 05_cable_and_idle.md
R190). -/
def Chip.viewLp (c : Chip) (p : Port) (a : Nat) (w : BitVec 16) : BitVec 16 :=
  match a % 0x1000 with
  | 0x001 => withFld w PMA_STAT_LPLL_LOCK (c.clk.ready.testBit (portIsland p)).toNat
  | 0x003 => BitVec.ofNat 16 (unsigned 8 (c.cal.cur.get (256 * p.val + 192)))
  | 0x005 => BitVec.ofNat 16 (unsigned 12 (c.cal.cur.get (256 * p.val + c.adcTrim p)))
  | 0x202 => BitVec.ofNat 16 (c.tapValue p)
  | 0x203 => BitVec.ofNat 16 (c.tapCentre p)
  | 0x208 => withFld w DSP_STAT_REFRESH_FAILS (min 3 (c.refreshFails p))
  | 0x400 => withFld w PCS_STAT_HI_RFER (c.on (lpB p) PCS_STAT_BLOCK_LOCK && Config.hiRfer p.val c.tpll).toNat
  | 0x90B => BitVec.ofNat 16 (c.pipDiagData p)
  | 0xA05 => BitVec.ofNat 16 ((c.reflSel p).cls % 8 + 256 * unsigned 8 (satS 8 (c.reflSel p).gamma))
  | 0xA06 => BitVec.ofNat 16 (satU 12 (c.reflSel p).dist)
  | 0xA18 => BitVec.ofNat 16 (if c.lState p = 6 then unsigned 16 (satS 16 (((c.port p).diag.gd.getD (c.get (lpB p) DLY_GD_SEL_GROUP) 0 + 32) / 64)) else 0)
  | _ => w
/-- Registers of LPn's Octavo and time areas (03_octavo.md R124, 06_folio_time.md R228). DESIGN CHOICE (log entry 135): the table
gives LPn_OCT_GRP_MARGIN the reset 0 and also 0x7FF while no tone of the group is loaded; it reads 0x7FF then, after reset too. -/
def Chip.viewLpOct (c : Chip) (p : Port) (a : Nat) (w : BitVec 16) : BitVec 16 :=
  let o := (c.port p).oct
  let k := c.get (lpB p) OCT_TONE_SEL_TONE
  match a % 0x1000 with
  | 0x711 => withFld (withFld w OCT_TONE_BITS_RX_BITS (o.rxBits.getD (k - 8) 0)) OCT_TONE_BITS_TX_BITS (o.txBits.getD (k - 8) 0)
  | 0x712 => BitVec.ofNat 16 (satU 10 (o.snr.getD (k - 8) 0))
  | 0x719 => BitVec.ofNat 16 (match o.groupMargin (c.get (lpB p) OCT_GRP_SEL_GROUP) with | some m => unsigned 12 (satS 12 m) | none => 0x7FF)
  | 0xE01 =>
    withFld (withFld w TS_STAT_DEGRADED (c.get (lpB p) DLY_STAT_USED == 0 || c.nominal).toNat) TS_STAT_SLAVE (c.srcLine == some p).toNat
  | 0xE08 => wordOf (c.lat p 0) 0
  | 0xE09 => wordOf (c.lat p 0) 1
  | 0xE0A => wordOf (c.lat p 1) 0
  | 0xE0B => wordOf (c.lat p 1) 1
  | _ => w

/-- What the register at an address holds, without any side effect. -/
def Chip.view (c : Chip) (lk : LockSt) (a : Nat) : BitVec 16 :=
  let w := c.reg (c.keyOf a)
  match a / 0x1000 with
  | 0x00 => c.viewGlb a w
  | 0x01 => if a = 0x1002 then BitVec.ofNat 16 c.clkStat else if a = 0x1003 then BitVec.ofNat 16 c.loopStat else w
  | 0x02 => if a = 0x2008 then withFld w PWR_KEEP_KEEP c.keepMap else w
  | 0x03 | 0x04 => c.viewCal a w
  | 0x0A => c.viewQuire a w
  | 0x0B => c.viewFolio a w
  | 0x0D => c.viewRoll a w
  | 0x0E => if a = 0xE000 then BitVec.ofNat 16 c.postedMap else if a = 0xE030 then lk.bits else w
  | b =>
    if 0x10 ≤ b ∧ b < 0x18 then
      let p : Port := Fin.ofNat 8 b
      c.viewLp p a (c.viewLpOct p a w)
    else if 0x20 ≤ b ∧ b < 0x30 then
      if a % 0x1000 = 0x82 then BitVec.ofNat 16 (c.laneTapValue (Fin.ofNat 16 b)) else w
    else w
/-- A field as it reads. -/
abbrev Chip.seen (c : Chip) (a : Nat) (f : Fld) : Nat := (c.view {} (a + f.off)).toNat / 2 ^ f.lo % 2 ^ f.w
/-- A wide value of n registers as it reads. -/
def Chip.viewWide (c : Chip) (a : Nat) : Nat → Nat
  | 0 => 0
  | n + 1 => (c.view {} a).toNat + 2 ^ 16 * Chip.viewWide c (a + 1) n

end Sys2Proof.Machine
end

