-- ==== Sys2Proof/Machine/Access.lean ====
section
/-! DEFINITION. Register accesses as the fabric performs them (10_register_fabric.md R335 to R363): reads with latch and side
effects, masked writes with staging, posting, locks and the action that each register's write has in its own chapter. -/

namespace Sys2Proof.Machine

/-- A mask without the bits of a field. -/
abbrev sans (m : BitVec 16) (f : Fld) : BitVec 16 := m &&& ~~~f.mask
/-- A field of a word. -/
abbrev fldOf (w : BitVec 16) (f : Fld) : Nat := w.toNat / 2 ^ f.lo % 2 ^ f.w
/-- A record number that R451 lists (14_calibration_and_ageing.md). -/
def nvmListed (n : Nat) : Bool := decide (n ≤ 5 ∨ (0x10 ≤ n ∧ n < 0x18) ∨ (0x20 ≤ n ∧ n ≤ 0x50) ∨ (0x60 ≤ n ∧ n < 0x70))
/-- What is left of a mask when fields that would leave a reserved combination take nothing (R18; 02_line_port.md R57,
06_folio_time.md R228, 07_host_lanes_and_retimer.md R234, R260, 08_quire_buffer.md R306, 15_self_test_and_faults.md R491). -/
def Chip.allowed (c : Chip) (a : Nat) (m d : BitVec 16) : BitVec 16 :=
  match mapped a with
  | none => m
  | some r =>
    let w := mergeWord r.fields m d (c.reg (c.keyOf a))
    let b := a / 0x1000
    let o := a % 0x1000
    if a = FOLIO + FOLIO_CTL_SRC.off then
      if fldOf w FOLIO_CTL_SRC = 3 ∧ 4 ≤ fldOf w FOLIO_CTL_SRC_IDX then
        (if 4 ≤ c.get FOLIO FOLIO_CTL_SRC_IDX then sans (sans m FOLIO_CTL_SRC_IDX) FOLIO_CTL_SRC else sans m FOLIO_CTL_SRC_IDX)
      else m
    else if a = QUIRE + QUIRE_POOL_XON_XON.off then (if fldOf w QUIRE_POOL_XON_XON < c.get QUIRE QUIRE_POOL_XOFF_XOFF then 0 else m)
    else if a = QUIRE + QUIRE_SPILL_OFF_VALUE.off then (if fldOf w QUIRE_SPILL_OFF_VALUE < c.get QUIRE QUIRE_SPILL_ON_VALUE then 0 else m)
    else if a = CAL + CAL_NVM_SEL_RECORD.off then (if nvmListed (fldOf w CAL_NVM_SEL_RECORD) then m else sans m CAL_NVM_SEL_RECORD)
    else if a = ROLL + ROLL_CTL_OP.off then (if rollOpOk (c.get ROLL ROLL_SEL_ENGINE) (fldOf w ROLL_CTL_OP) then m else sans m ROLL_CTL_OP)
    else if a = ROLL + ROLL_PARAM_PARAM.off then
      (if rollParamOk (c.get (bk (c.get ROLL ROLL_SEL_ENGINE) ROLL) ROLL_CTL_OP) (fldOf w ROLL_PARAM_PARAM) then m else 0)
    else if 0x10 ≤ b ∧ b < 0x18 ∧ o = DSP_TAP_SEL_INDEX.off then
      (if tapOk (fldOf w DSP_TAP_SEL_GROUP) (fldOf w DSP_TAP_SEL_INDEX) then m else m &&& DSP_TAP_SEL_AUTOINC.mask)
    else if 0x20 ≤ b ∧ b < 0x30 ∧ o = XN_RX_TAP_SEL_INDEX.off then
      (if laneTapOk (fldOf w XN_RX_TAP_SEL_GROUP) (fldOf w XN_RX_TAP_SEL_INDEX) then m else m &&& XN_RX_TAP_SEL_AUTOINC.mask)
    else if 0x20 ≤ b ∧ b < 0x30 ∧ o = XN_PAT_CTL_GEN_EN.off then
      let rate := c.heldRate (Fin.ofNat 16 b)
      let m := if patOk rate (fldOf w XN_PAT_CTL_GEN_PAT) then m else sans m XN_PAT_CTL_GEN_PAT
      if patOk rate (fldOf w XN_PAT_CTL_CHK_PAT) then m else sans m XN_PAT_CTL_CHK_PAT
    else m

/-- A test is asked for (15_self_test_and_faults.md R481). -/
def Chip.bistAsk (c : Chip) (t : Nat) (force : Bool) : Chip × Nat := c.bistStart t force (c.bankHolds t)

/-- The fields of a register that a mask touches, as a mask. -/
def metFields (fs : List FieldDef) (met : BitVec 16) : BitVec 16 :=
  fs.foldl (fun n f => if met &&& fieldMask f.lo f.w = 0 then n else n ||| fieldMask f.lo f.w) 0
/-- The bits of a hardware-adapted register whose software write is lost to a hardware update of `met` bits in the same cycle:
whole fields, unless their freeze bit is set (R362; 02_line_port.md R66, 07_host_lanes_and_retimer.md R235). -/
def Chip.adaptedLost (c : Chip) (a : Nat) (fs : List FieldDef) (met : BitVec 16) : BitVec 16 :=
  let b := a / 0x1000
  let o := a % 0x1000
  if 0x10 ≤ b ∧ b < 0x18 ∧ (o = 0x003 ∨ o = 0x005) then
    (if c.on (0x1000 * b) DSP_CTL_FREEZE_CAL then 0 else metFields fs met)
  else if 0x20 ≤ b ∧ b < 0x30 ∧ (o = 0x040 ∨ o = 0x041) then
    (if c.laneFrozen (Fin.ofNat 16 b) 8 then 0 else metFields fs met)
  else if 0x20 ≤ b ∧ b < 0x30 ∧ o = 0x082 then
    (if c.laneFrozen (Fin.ofNat 16 b) (c.get (0x1000 * b) XN_RX_TAP_SEL_GROUP) then 0 else metFields fs met)
  else 0
/-- The data of a write as it acts when a hardware update, the command before it, has reached the bits `met` in the same cycle
(R362): a status bit just set is not cleared, an adapted value keeps what the hardware gave it, and every other field takes the
software value (log entry 117). -/
def Chip.metData (c : Chip) (lk : LockSt) (a : Nat) (data met : BitVec 16) : BitVec 16 :=
  match mapped a with
  | none => data
  | some d =>
    let lost := c.adaptedLost a d.fields met
    let w1c := met &&& metFields (d.fields.filter fun f => f.acc == .w1c) met
    (data &&& ~~~w1c &&& ~~~lost) ||| (c.view lk a &&& lost)

/-! What a write does beyond its bits: `o` is the part before it, `m` its mask, `t` its bits written 1. -/

/-- A write to LPn. -/
def Chip.wroteLp (o c : Chip) (p : Port) (a : Nat) (m t : BitVec 16) : Chip :=
  let b := lpB p
  -- what a register that shows a value of the port comes to hold
  let held := (o.viewLp p a 0 &&& ~~~m) ||| t
  match a % 0x1000 with
  | 0x000 =>
    if t.getLsbD 1 then (c.put b PMA_CTL_SRST 0).portReset p
    else if o.on b PMA_CTL_ENABLE = c.on b PMA_CTL_ENABLE then c else c.enableWritten p
  | 0x003 => (c.setReg a (o.reg a)).trimWritten p 192 (held.toNat % 256 : Nat)
  | 0x005 => (c.setReg a (o.reg a)).trimWritten p (o.adcTrim p) (signed 12 held.toNat)
  | 0x200 =>
    let c := c.freezeWritten p (o.reg a)
    if t.getLsbD 9 then c.refreshWritten p else c
  | 0x202 => (c.setReg a (o.reg a)).tapWrite p held.toNat
  | 0x410 => c.qSettle
  | 0x600 => if t.getLsbD 7 then c.restartWritten p else c
  | 0x700 => if t.getLsbD 8 then c.reloadWritten p else c
  | 0x900 =>
    let c := if o.on b PIP_CTL_EN ∧ c.on b PIP_CTL_EN = false then c.pipEnCleared p else c
    let c := if t.getLsbD 12 then c.wakeReqWritten p else c
    let c := if t.getLsbD 13 then c.sleepReqWritten p else c
    if t.getLsbD 14 then c.diagReqWritten p else c
  | 0x90A => c.pipDiagCtlWritten p
  | 0x90B => (c.setReg a (o.reg a)).pipDiagWrite p held.toNat
  | 0xA00 =>
    let c := if (o.reg a ^^^ c.reg a) &&& 0xC = 0 then c else c.diagCtlWritten p
    let c := if t.getLsbD 1 then c.eClrWritten p else c
    if t.getLsbD 0 then c.tdrStartWritten p else c
  | 0xE00 => c.srcCheck
  | _ => c
/-- A write to Hn or Tn. -/
def Chip.wroteLane (o c : Chip) (l : Lane) (a : Nat) (m t : BitVec 16) : Chip :=
  let b := laneB l
  match a % 0x1000 with
  | 0x000 => if t.getLsbD 5 then (c.put b XN_CTL_SRST 0).laneReset l else c.laneCtlWritten l (o.reg a)
  | 0x040 | 0x041 => c.eqClip l
  | 0x082 => (c.setReg a (o.reg a)).laneTapWrite l ((BitVec.ofNat 16 (o.laneTapValue l) &&& ~~~m) ||| t).toNat
  | 0x0C0 => if t.getLsbD 0 then c.trnRestarted l else c
  | 0x100 => c.patCtlWritten l
  | 0x102 => if t.getLsbD 0 then (c.put b XN_PAT_INJ_ONE 0).patInject l else c
  | _ => c
/-- A write to a privileged counter unit (16_counters.md R506). -/
def Chip.wrotePmc (c : Chip) (u : Fin 2) (r : Nat) (t : BitVec 16) : Chip :=
  if r = 0 then (if t.getLsbD 12 then c.cycCleared u else c)
  else if 0x10 ≤ r ∧ r < 0x20 then c.pmcCntWritten u ((r - 0x10) / 2) 0
  else c
/-- A write to QUIRE (08_quire_buffer.md R279 to R281, R289, R301, R302). -/
def Chip.wroteQuire (o c : Chip) (a : Nat) (t : BitVec 16) : Chip :=
  match a % 0x1000 with
  | 0x000 =>
    if t.getLsbD 2 then (c.put QUIRE QUIRE_CTL_SRST 0).quireReset
    else if o.on QUIRE QUIRE_CTL_FLUSH_ON_DOWN then c else c.each allPorts Chip.quireLinkDown
  | 0x021 | 0x028 => c.poolChanged.qSettle
  | 0x010 | 0x011 | 0x041 | 0x042 => (c.poolThrWritten o.poolRegs).qSettle
  | 0x022 => (c.holdThrWritten c.qSel (o.qGet c.qSel QUIRE_Q_HOLD_HOLD, o.qGet c.qSel QUIRE_Q_HOLD_HYST)).qSettle
  | 0x040 => (if o.get QUIRE QUIRE_SPILL_CTL_FACE = c.get QUIRE QUIRE_SPILL_CTL_FACE then c else c.spLend).qSettle
  | 0x043 => c.poolChanged.spLend.qSettle
  | r => if 0x300 ≤ r then c.wrotePmc 1 (r - 0x300) t else c
/-- A write to FOLIO (06_folio_time.md R194, R195, R200, R221, R225, R228). -/
def Chip.wroteFolio (o c : Chip) (a : Nat) (t : BitVec 16) : Chip :=
  let sel : Fin 4 := Fin.ofNat 4 (c.get FOLIO FOLIO_OUT_CTL_SEL)
  match a % 0x1000 with
  | 0x000 => c.ctlWritten (o.get FOLIO FOLIO_CTL_SRC) (o.get FOLIO FOLIO_CTL_SRC_IDX)
  | 0x001 =>
    let c := c.setReg a 0
    let c := if t.getLsbD 0 then c.cmdSet else c
    let c := if t.getLsbD 1 then c.cmdAdd else c
    let c := if t.getLsbD 2 then c.fine else c
    if t.getLsbD 3 then c.folioSrst else c
  | 0x02A => Chip.rateWritten o c
  | 0x050 => c.srcCheck
  | 0x081 =>
    let b := bk sel.val FOLIO
    let c := (c.put b FOLIO_OUT_CTL_ARM 0).put b FOLIO_OUT_CTL_STOP 0
    let c := if t.getLsbD 4 then c.outArm sel else c
    if t.getLsbD 5 then c.outStop sel else c
  | _ => c
/-- A write to SPINE (09_spine_cascade.md R313, R330 to R334). -/
def Chip.wroteSpine (o c : Chip) (a : Nat) (t : BitVec 16) : Chip :=
  match a % 0x1000 with
  | 0x000 =>
    if t.getLsbD 4 then (c.put SPINE SPINE_CTL_SRST 0).spineReset
    else if (o.reg a ^^^ c.reg a) &&& 3 = 0 then c else c.spineCtlWritten
  | 0x001 =>
    let c := if t.getLsbD 0 then c.stackRst else c
    let c := if t.getLsbD 5 then c.demoted else c
    if t.getLsbD 6 then c.wakeSouth else c
  | 0x100 => if t.getLsbD 0 then c.retrain .n else c
  | 0x180 => if t.getLsbD 0 then c.retrain .s else c
  | _ => c
/-- A write to ROLL (15_self_test_and_faults.md R492, R494): N and seed 0 are reserved. -/
def Chip.wroteRoll (o c : Chip) (a : Nat) (t : BitVec 16) : Chip :=
  let e : Fin 26 := Fin.ofNat 26 (c.get ROLL ROLL_SEL_ENGINE)
  let k := bk e.val ROLL
  let undo := fun (f : Nat) => if c.wide (k + f) 2 = 0 then (c.setReg (k + f) (o.reg (k + f))).setReg (k + f + 1) (o.reg (k + f + 1)) else c
  match a % 0x1000 with
  | 0x001 => c.rollCtlWritten e (o.reg (bk e.val a))
  | 0x005 => undo ROLL_N_LO_VALUE.off
  | 0x007 => (undo ROLL_SEED_LO_VALUE.off).rollSeedWritten e
  | 0x022 => if t.getLsbD 0 then (c.put ROLL ROLL_CMD_STOP_ALL 0).rollStopAll else c
  | _ => c
/-- A write to CAL, AGE or BIST (14_calibration_and_ageing.md R454, R457, R469, 15_self_test_and_faults.md R481). -/
def Chip.wroteCal (c : Chip) (a : Nat) (t : BitVec 16) : Chip :=
  match a with
  | 0x3010 =>
    let c := (c.put CAL CAL_FG_CTL_START 0).put CAL CAL_FG_CTL_SAVE 0
    let n := c.get CAL CAL_FG_CTL_TARGET
    let c := if t.getLsbD 5 then (c.calStart n).1 else c
    if t.getLsbD 6 then c.calSave n else c
  | 0x4002 => c.policyWritten
  | 0x4024 =>
    let c := c.setReg a 0
    let c := if t.getLsbD 0 then c.propApprove c.propSel else c
    if t.getLsbD 1 then c.propVeto c.propSel else c
  | 0x5000 => if t.getLsbD 7 then ((c.put BIST BIST_CTL_START 0).bistAsk (c.get BIST BIST_CTL_TARGET) (c.on BIST BIST_CTL_FORCE)).1 else c
  | _ => c
/-- A write to MBX (11_binder_mailboxes.md R368, R376). -/
def Chip.wroteMbx (o c : Chip) (lk : BitVec 16) (a : Nat) (t : BitVec 16) : Chip :=
  let r := a % 0x1000
  let m : Fin 4 := Fin.ofNat 4 (r / 0x100)
  if r < 0x400 ∧ r % 0x100 = 2 then (if t.getLsbD 0 ∧ o.on (mbB m) MBN_CTL_DOORBELL = false then c.mbRing lk m else c)
  else if r = 0x413 then (if t.getLsbD 8 then c.jobRelease (Fin.ofNat 8 (c.get MBX MBX_JOB_SEL_SLOT)) else c)
  else c
/-- What a write that has taken effect does in its block. -/
def Chip.wrote (o c : Chip) (lk : BitVec 16) (a : Nat) (m t : BitVec 16) : Chip :=
  match a / 0x1000 with
  | 0x00 => if a = 0x10 ∧ t.getLsbD 0 then ((c.put GLB GLB_SWRST_SWRST 0).put GLB GLB_RST_CAUSE_GLB 1).glbReset else c
  | 0x03 | 0x04 | 0x05 => c.wroteCal a t
  | 0x08 => Chip.wroteMbx o c lk a t
  | 0x09 => c.wrotePmc 0 (a % 0x1000) t
  | 0x0A => Chip.wroteQuire o c a t
  | 0x0B => Chip.wroteFolio o c a t
  | 0x0C => Chip.wroteSpine o c a t
  | 0x0D => Chip.wroteRoll o c a t
  | 0x0E => if a = REGB + REG_ERRLOG_CAUSE_VALID.off ∧ t.getLsbD 15 then c.put REGB REG_ERRLOG_CAUSE_CAUSE 0 else c
  | b =>
    if b = 0x30 then
      (if a % 0x1000 = 0 ∧ m &&& HGRP_MODE_MODE.mask ≠ 0 then c.modeWritten else if a % 0x1000 = 0x10 then c.poolChanged.qSettle else c)
    else if 0x10 ≤ b ∧ b < 0x18 then Chip.wroteLp o c (Fin.ofNat 8 b) a m t
    else if 0x20 ≤ b ∧ b < 0x30 then Chip.wroteLane o c (Fin.ofNat 16 b) a m t
    else c
/-- What a posted write that has taken effect does (12_clocks.md R399, R411, R412, R416, 13_power_and_reset.md R421, R423,
R425, 15_self_test_and_faults.md R480, 17_pins_and_electrical.md R529). -/
def Chip.wroteAon (o c : Chip) (a : Nat) (m t : BitVec 16) : Chip :=
  match a with
  | 0x1000 | 0x1001 => c.enWritten (o.reg CLK) (o.reg (CLK + 1))
  | 0x1010 => c.autoResume
  | 0x1020 => if t.getLsbD 0 then c.resumed else c
  | 0x1031 => c.clkEvtClear
  | 0x1040 => if m &&& CLK_LEVEL_TARGET.mask ≠ 0 then c.levelWritten else c
  | 0x2000 =>
    match c.get PWR PWR_CTL_REQ with
    | 0 =>
      let c := if c.pwr.req.isSome then c.pwrCancel else c
      if c.pwr.mode = 1 then c.wakeSource 10 0 else c
    | n => c.pwrRequest n (c.get PWR PWR_DELAY_DELAY) 0
  | 0x2008 => c.each ([1, 2, 3] : List Nat) fun c k => if c.unusable (32 + k) then c.putBit PWR PWR_KEEP_KEEP k false else c
  | 0x2015 => c.islandsOff
  | 0x7013 => c.snsEvtClear
  | _ => c
/-- A posted write takes effect in the AON island (R357). -/
def Chip.postDone (c : Chip) (k : Fin 3) : Chip :=
  match c.fab.posted[k] with
  | none => c
  | some w =>
    let c := c.modFab fun x => { x with posted := x.posted.set k.val none }
    let m := BitVec.ofNat 16 w.mask
    let d := BitVec.ofNat 16 w.data
    Chip.wroteAon c (c.merge w.addr m d) w.addr m (m &&& d)

/-- An interface's staged words are discarded when it writes another wide value (R337). -/
def Chip.stageKeep (c : Chip) (i : Ifc) (base : Nat) : Chip :=
  c.modIfc i fun x => { x with stage := x.stage.filter fun s => s.base == base }
/-- A write, with the words staged for its value, takes effect where no lock holds (R337, R354, R361); whether a lock held. -/
def Chip.commit (c : Chip) (lk : BitVec 16) (i : Ifc) (d : RegDef) (a : Nat) (mask data : BitVec 16) : Chip × Bool :=
  let ws := (c.commitWords i d a mask.toNat data.toNat).map fun w => (w.1, BitVec.ofNat 16 w.2.1, BitVec.ofNat 16 w.2.2)
  let held := fun (b : Nat) => (lockedBits lk b ||| c.mbLocked i b) &&& (match mapped b with | some r => writable r.fields false | none => 0)
  let ign := ws.any fun w => w.2.1 &&& held w.1 != 0
  let free := ws.map fun w => (w.1, w.2.1 &&& ~~~held w.1, w.2.2)
  let c := if d.wide = 0 then c else c.modIfc i fun x => { x with stage := none }
  if free.all fun w => w.2.1 == 0 then (c, ign)
  else
    let m := c.allowed a (mask &&& ~~~held a) data
    let new := c.each free fun c w => c.merge w.1 (if w.1 = a then m else w.2.1) w.2.2
    (Chip.wrote c new lk a m (m &&& data), ign)

/-- A masked write of one register through an interface, with the IGN (2) and ERR (1) bits of its status byte (R341, R343, R355,
R357, R358). -/
def fabWrite (i : Ifc) (a : Nat) (mask data : BitVec 16) (x : Chip × LockSt) : (Chip × LockSt) × Nat :=
  let c := x.1
  let lk := x.2
  if i = .spi1 then ((c.errLog i a 5 true, lk), 1)
  else if mask = 0 then (x, 0)
  else
    match mapped a with
    | none => ((c.errLog i a 5 true, lk), 1)
    | some d =>
      if c.gate a ≠ 0 then ((c.errLog i a (c.gate a) true, lk), 1)
      else
        let c := if i = .binder then c.pmcEvt 0 8 1 else c
        if a = REGB + REG_LOCK_OBSERVE.off then
          if lk.refuses mask then ((c.errLog i a 4 true, lk.write mask data), 2) else ((c, lk.write mask data), 0)
        else
          let pl := if d.wide = 0 then 0 else d.place a
          let c := if d.wide = 0 then c else c.stageKeep i (a - pl)
          if mask &&& writable d.fields false = 0 then ((c, lk), 0)
          else match postedBlock a with
            | some k =>
              if c.fab.posted[k].isSome then ((c.errLog i a 3 true, lk), 1)
              else ((c.modFab fun y => { y with posted := y.posted.set k.val (some { addr := a, mask := mask.toNat, data := data.toNat }) }, lk), 0)
            | none =>
              if pl + 1 < d.wide then
                ((c.modIfc i fun y => { y with stage := some (Stage.add y.stage (a - pl) pl mask.toNat data.toNat) }, lk), 0)
              else
                let r := c.commit lk.bits i d a mask data
                if r.2 then ((r.1.errLog i a 4 true, lk), 2) else ((r.1, lk), 0)

/-- The event and event mask registers (R343). -/
def eventReg (a : Nat) : Bool :=
  let o := a % 0x1000
  match a / 0x1000 with
  | 0x01 => o == 0x30 || o == 0x32
  | 0x03 => o == 0x40 || o == 0x41
  | 0x04 => o == 0x30 || o == 0x31
  | 0x05 => o == 0x20 || o == 0x21
  | 0x07 => o == 0x12 || o == 0x14
  | 0x08 => o == 0x400 || o == 0x401
  | 0x0A | 0x0B => o == 0x60 || o == 0x61
  | 0x0C => [0x110, 0x111, 0x190, 0x191].contains o
  | 0x30 => o == 0x20 || o == 0x21
  | b =>
    if 0x10 ≤ b ∧ b < 0x18 then [0x608, 0x609, 0x720, 0x721, 0x910, 0x911, 0xA20, 0xA21, 0xE10, 0xE11].contains o
    else decide (0x20 ≤ b ∧ b < 0x30) && (o == 2 || o == 3)
/-- The counter areas with their wrap registers (R343; 16_counters.md R499). -/
def counterArea (a : Nat) : Bool :=
  let b := a / 0x1000
  let o := a % 0x1000
  if 0x10 ≤ b ∧ b < 0x18 then decide (0xC00 ≤ o ∧ o < 0xE00)
  else (decide (0x20 ≤ b ∧ b ≤ 0x30) || b == 0x0A || b == 0x0C) && decide (0x200 ≤ o ∧ o < 0x300)
/-- A register that a group of REG_OBSERVE_EN lets SPI_CS1_N read (R343). -/
def Chip.observed (c : Chip) (a : Nat) (d : RegDef) : Bool :=
  let on := c.on REGB
  let perf := fun (r : Nat) => decide (4 ≤ r ∧ r < 8) || decide (0x10 ≤ r ∧ r < 0x20)
  (on REG_OBSERVE_EN_COUNTERS && counterArea a) || (on REG_OBSERVE_EN_STATUS && d.fields.all fun f => f.acc == .ro) ||
  (on REG_OBSERVE_EN_EVENTS && eventReg a) ||
  (on REG_OBSERVE_EN_PERF && ((a / 0x1000 == 0x09 && perf (a % 0x1000)) || (a / 0x1000 == 0x0A && decide (0x300 ≤ a % 0x1000) && perf (a % 0x1000 - 0x300)))) ||
  (on REG_OBSERVE_EN_TIME && a / 0x1000 == 0x0B && (a % 0x1000 == 2 || decide (0x10 ≤ a % 0x1000 ∧ a % 0x1000 < 0x16) || decide (0x40 ≤ a % 0x1000 ∧ a % 0x1000 < 0x46)))

/-- The side effect of a read (02_line_port.md R79, 03_octavo.md R124, 04_pip_channel.md R159, 06_folio_time.md R223,
07_host_lanes_and_retimer.md R264). -/
def Chip.readEff (c : Chip) (a : Nat) : Chip :=
  let b := a / 0x1000
  let o := a % 0x1000
  if a = FOLIO + FOLIO_CAP_TIME_TIME.off then (c.capTake (Fin.ofNat 4 (c.get FOLIO FOLIO_CAP_STAT_SEL))).1
  else if 0x10 ≤ b ∧ b < 0x18 then
    let p : Port := Fin.ofNat 8 b
    match o with
    | 0x202 => c.tapNext p
    | 0x712 =>
      let k := c.get (lpB p) OCT_TONE_SEL_TONE
      if c.on (lpB p) OCT_TONE_SEL_AUTOINC then c.put (lpB p) OCT_TONE_SEL_TONE (if 2039 ≤ k then 8 else k + 1) else c
    | 0x90B => c.pipDiagNext p
    | _ => c
  else if 0x20 ≤ b ∧ b < 0x30 ∧ o = 0x82 then c.laneTapNext (Fin.ofNat 16 b)
  else c
/-- The Binder's counters of its reads, and of its polls that find a posted write in progress (16_counters.md R507). -/
def Chip.binderRead (c : Chip) (a : Nat) : Chip :=
  let c := c.pmcEvt 0 7 1
  if a = REGB + REG_POSTED_CLK.off ∧ c.fab.posted.any Option.isSome then c.pmcEvt 0 9 1 else c
/-- A read of one register through an interface: the value, and the ERR bit of its status byte (R336, R343, R344, R358). -/
def fabRead (i : Ifc) (a : Nat) (x : Chip × LockSt) : Chip × BitVec 16 × Nat :=
  let c := x.1
  match mapped a with
  | none => (c.errLog i a 5 false, 0, 1)
  | some d =>
    if i = .spi1 ∧ c.observed a d = false then (c.errLog i a 5 false, 0, 1)
    else if c.gate a ≠ 0 then (c.errLog i a (c.gate a) false, 0, 1)
    else
      let c := if i = .binder then c.binderRead a else c
      let v := c.view x.2 a
      let eff := fun (c : Chip) => if i = .spi1 then c else c.readEff a
      if d.wide = 0 then (eff c, v, 0)
      else
        let pl := d.place a
        let l := c.fab.ifcs[ifcNum i].latch
        if pl = 0 then
          let ws := (List.range d.wide).map fun k => (c.view x.2 (a + k)).toNat
          (eff (c.modIfc i fun y => { y with latch := { base := a, words := ws } }), v, 0)
        else if l.base = a - pl ∧ l.words ≠ [] then (c, BitVec.ofNat 16 (l.words.getD pl 0), 0)
        else (c, v, 0)

end Sys2Proof.Machine
end

