-- ==== Sys2Proof/Machine/Ports.lean ====
section
/-! DEFINITION. The ports that reach the fabric (10_register_fabric.md R338 to R353): SPI frames, MDIO with the standard MMDs
and the window, two-wire transactions, and what completes a posted write. -/

namespace Sys2Proof.Machine

/-- The part and REG_LOCK, which an access may change. -/
abbrev Both := Chip × LockSt
/-- A command that may change REG_LOCK too. -/
abbrev State.actL (s : State) (f : Both → Both) : Res :=
  let r := f (s.chip, s.lock)
  .next { s with chip := r.1, lock := r.2 }

/-- The part answers SPI, MDIO and TWM: in Run or Doze, out of reset, its balls its own (R353, 13_power_and_reset.md R448,
15_self_test_and_faults.md R489). -/
def Chip.answers (c : Chip) : Bool := decide (c.pwr.mode ≤ 1) && !c.pwr.rstLow && !c.on TAP TAP_STAT_CORE_OFF
/-- An interface is served: the Binder's as long as it runs. -/
def Chip.serves (c : Chip) (i : Ifc) : Bool := if i = .binder then c.binderOn else c.answers

/-- The next word address (R339). -/
abbrev nextAddr (a : Nat) : Nat := (a + 1) % 0x80000
/-- Successive masked writes: the part after them, and the status bytes, the last first (R339, R341). -/
def writeRun (i : Ifc) (x : Both) (st : List Nat) (a : Nat) (l : List (BitVec 16 × BitVec 16)) : Both × List Nat × Nat :=
  match l with
  | [] => (x, st, a)
  | w :: l =>
    let r := fabWrite i a w.1 w.2 x
    writeRun i r.1 (r.1.1.statusByte a r.2 :: st) (nextAddr a) l
/-- Successive reads: the part after them, and the bytes returned, status, data (R339, R341). A word that comes late reads 0 and
MARK 0xA (R340). -/
def readRun (i : Ifc) (late : Bool) (x : Both) (out : Bytes) (a : Nat) : Nat → Both × Bytes × Nat
  | 0 => (x, out, a)
  | n + 1 =>
    let r := fabRead i a x
    let s := r.1.statusByte a r.2.2 + (if late then 0x50 else 0)
    readRun i late (r.1, x.2) (out ++ be 1 s ++ be 2 (if late then 0 else r.2.1.toNat)) (nextAddr a) n
/-- An interface returns bytes. -/
def answer (i : Ifc) (b : Bytes) (x : Both) : Both := (x.1.modIfc i fun y => { y with resp := b }, x.2)

/-- Writes at successive addresses through an interface. -/
def accWrite (i : Ifc) (a : Nat) (l : List (BitVec 16 × BitVec 16)) (x : Both) : Both :=
  if x.1.serves i then
    let r := writeRun i x [] a l
    answer i (r.2.1.reverse.flatMap (be 1)) r.1
  else x
/-- One masked write through an interface. -/
abbrev accPut (i : Ifc) (a : Nat) (m d : BitVec 16) (x : Both) : Both := accWrite i a [(m, d)] x
/-- One write of 1 to a bit. -/
abbrev accBit (i : Ifc) (a : Nat) (f : Fld) (x : Both) : Both := accPut i (a + f.off) f.mask f.mask x
/-- One write of a field. -/
abbrev accFld (i : Ifc) (a : Nat) (f : Fld) (v : Nat) (x : Both) : Both := accPut i (a + f.off) f.mask (splice 0 f.lo f.w v) x
/-- Reads at successive addresses through an interface. -/
def accRead (i : Ifc) (a n : Nat) (x : Both) : Both :=
  if x.1.serves i then
    let r := readRun i false x [] a n
    answer i r.2.1 r.1
  else x

/-- One access (R335): the part after it, and the bytes it returns. -/
def accDo (late : Bool) (v : Access) (x : Both) : Both × Bytes :=
  let a := v.addr.toNat
  if x.1.serves v.ifc then
    match v.wr with
    | some w => let r := writeRun v.ifc x [] a [w]; (r.1, r.2.1.flatMap (be 1))
    | none => let r := readRun v.ifc late x [] a 1; (r.1, r.2.1)
  else (x, [])
/-- The access whose turn it is: the oldest of the first interface, from number `t` on, that has one waiting (R335; log entry
123). -/
def nextTurn (t : Nat) (l : List Access) : Option Access :=
  (List.range 5).findSome? fun k => l.find? fun v => (ifcNum v.ifc).val == (t + k) % 5
/-- Accesses served in turns, one of each interface at a time (R335): the part after them, and what each returned, the last
first. `own`: the interface whose reads come late when `late` holds (R340). -/
def turnsRun (own : Ifc) (late : Bool) : Nat → Nat → List Access → List (Ifc × Bytes) → Both → Both × List (Ifc × Bytes)
  | 0, _, _, out, x => (x, out)
  | n + 1, t, l, out, x =>
    match nextTurn t l with
    | none => (x, out)
    | some v =>
      let r := accDo (late && v.ifc == own) v x
      turnsRun own late n ((ifcNum v.ifc).val + 1) (l.erase v) ((v.ifc, r.2) :: out) r.1
/-- What an interface's accesses returned, in order. -/
def outOf (i : Ifc) (out : List (Ifc × Bytes)) : Bytes := (out.reverse.filter fun x => x.1 == i).flatMap (·.2)
/-- The accesses of a frame or transaction and those that wait at other interfaces meanwhile, in turns from the frame's first on:
the part after them with the bytes of the others, and the frame's own bytes (R335). -/
def shareRun (i : Ifc) (late : Bool) (own mid : List Access) (x : Both) : Both × Bytes :=
  let mid := mid.filter fun v => v.ifc != i
  let r := turnsRun i late (own.length + mid.length) (ifcNum i).val (own ++ mid) [] x
  ((mid.map (·.ifc)).foldl (fun y j => answer j (outOf j r.2) y) r.1, outOf i r.2)
/-- The writes of a frame's words at successive addresses (R339). -/
def wordsAt (i : Ifc) (a : BitVec 19) : List (BitVec 16 × BitVec 16) → List Access
  | [] => []
  | w :: l => { ifc := i, addr := a, wr := some w } :: wordsAt i (a + 1) l
/-- The reads of a frame at successive addresses (R339). -/
def readsAt (i : Ifc) (a : BitVec 19) : Nat → List Access
  | 0 => []
  | n + 1 => { ifc := i, addr := a, wr := none } :: readsAt i (a + 1) n

/-- A frame on a chip select (R338 to R342; late data while CTRL runs on SOSC: 12_clocks.md R402): opcode, address, mask and
data of each complete write word, the number of words read, the SPI_SCK period in ps, whether the other chip select fell first,
and the accesses that wait at other interfaces (R335). -/
def spiFrame (i : Ifc) (op : Byte) (a : BitVec 19) (words : List (BitVec 16 × BitVec 16)) (n per : Nat) (second : Bool)
    (mid : List Access) (x : Both) : Both :=
  let mine := if x.1.answers = false ∨ second then []
    else if op = 0x02 ∨ op = 0x32 then wordsAt i a words
    else if op = 0x0B ∨ op = 0x6B then readsAt i a n
    else []
  let late := decide (x.1.get REGB REG_SPI_CTL_GAP * per < 150000 ∨ x.1.get CLK CLK_STAT_CTRL_SRC = 2)
  let r := shareRun i late mine mid x
  answer i r.2 r.1

/-- An access of MDIO_WIN_DATA (R348): the data read. -/
def winAccess (wr : Bool) (data : BitVec 16) (x : Both) : Both × BitVec 16 :=
  let a := x.1.get MMDW MDIO_WIN_ADDR_LO_ADDR + 0x10000 * x.1.get MMDW MDIO_WIN_ADDR_HI_ADDR
  let r : Both × BitVec 16 × Nat :=
    if wr then
      let r := fabWrite .mdio a (x.1.reg (MMDW + MDIO_WIN_MASK_MASK.off)) data x
      ((r.1.1.setReg (MMDW + MDIO_WIN_MASK_MASK.off) 0xFFFF, r.1.2), 0, r.2)
    else
      let r := fabRead .mdio a x
      ((r.1, x.2), r.2.1, r.2.2)
  let c := r.1.1.put MMDW MDIO_WIN_STAT_STATUS (r.1.1.statusByte a r.2.2)
  let c :=
    if c.on MMDW MDIO_WIN_ADDR_HI_INC then
      let b := nextAddr a
      (c.put MMDW MDIO_WIN_ADDR_LO_ADDR b).put MMDW MDIO_WIN_ADDR_HI_ADDR (b / 0x10000)
    else c
  ((c, r.1.2), r.2.1)

/-- The standard registers that an MMD implements (R536; which ones Clauses 149 and 165 define is log entry 102). -/
def mmdHas (mmd r : Nat) : Bool :=
  match mmd with
  | 1 => decide (r < 16) || r == 18 || r == 2100 || decide (2309 ≤ r ∧ r < 2318)
  | 3 => decide (r < 16) || r == 20 || r == 21 || decide (2322 ≤ r ∧ r < 2331)
  | 7 => decide (512 ≤ r ∧ r < 526) || decide (60 ≤ r ∧ r < 64)
  | _ => false
/-- Key of a standard register's word. -/
abbrev mmdKey (p : Port) (mmd r : Nat) : Nat := p.val * 0x200000 + mmd * 0x10000 + r
/-- A bit of a word replaced. -/
def withBit (w : BitVec 16) (k : Nat) (v : Bool) : BitVec 16 := splice w k 1 v.toNat
/-- The type that 1.2100 last had written: MODE_SEL 1 to 4, 0 for none. -/
def mmdType (w : Nat) : Nat := if 4 ≤ w % 16 ∧ w % 16 ≤ 7 then w % 16 - 3 else 0
/-- A read of a standard register (R347, R536): fields with a counterpart over a free value for the others. -/
def Chip.mmdView (c : Chip) (p : Port) (mmd r : Nat) : BitVec 16 :=
  let b := lpB p
  let std := Config.mmdStd p.val mmd r (c.fab.mmd.get (mmdKey p mmd r)).toNat
  if mmdHas mmd r = false then 0
  else match mmd, r with
    | 1, 0 => withBit (withBit std 15 (c.on b PMA_CTL_SRST)) 0 (c.get b PMA_CTL_LPBK == 1)
    | 1, 1 => withBit std 2 (c.on b PCS_STAT_LINK_STATUS)
    | 1, 2 | 3, 2 => 0x2B25
    | 1, 3 | 3, 3 => 0x2001
    | 1, 10 => withBit std 0 (c.on b PMA_STAT_SIGNAL_DET)
    | 1, 2100 =>
      let m := c.get b LINK_CTL_MODE_SEL
      let w := withBit std 14 (c.on b AN_ADV_MS_MASTER)
      if 1 ≤ m ∧ m ≤ 4 then splice w 0 4 (m + 3) else w
    | 3, 0 => withBit (withBit std 15 (c.on b PMA_CTL_SRST)) 14 (c.get b PMA_CTL_LPBK == 2)
    | 3, 1 => withBit (withBit (withBit std 2 (c.on b PCS_STAT_LINK_STATUS)) 9 (c.on b PCS_STAT_TX_LPI)) 8 (c.on b PCS_STAT_RX_LPI)
    | 7, 512 => withBit (withBit std 12 (c.get b LINK_CTL_MODE_SEL == 0)) 9 (c.on b LINK_CTL_RESTART)
    | 7, 513 => withBit (withBit std 5 (c.on b AN_STAT_AN_DONE)) 2 (c.on b PCS_STAT_LINK_STATUS)
    | 7, 514 | 7, 515 | 7, 516 => Config.mmdAdvRead r (c.reg (b + AN_ADV_ADV_2G5.off))
    | 7, 517 | 7, 518 | 7, 519 => Config.mmdAdvRead r (c.viewLp p (b + AN_LP_ABILITY.off) (c.reg (b + AN_LP_ABILITY.off)))
    | 1, 2309 => withBit std 15 (c.on b PMA_CTL_SRST)
    | 1, 2310 => withBit std 0 (c.on b PCS_STAT_LINK_STATUS)
    | 3, 2322 => withBit (withBit std 15 (c.on b PMA_CTL_SRST)) 14 (c.get b PMA_CTL_LPBK == 2)
    | 3, 2323 => withBit (withBit (withBit std 2 (c.on b PCS_STAT_LINK_STATUS)) 9 (c.on b PCS_STAT_TX_LPI)) 8 (c.on b PCS_STAT_RX_LPI)
    | 3, 2324 =>
      let w := c.viewLp p (b + PCS_STAT_BLOCK_LOCK.off) (c.reg (b + PCS_STAT_BLOCK_LOCK.off))
      withBit (withBit (withBit std 10 (w.getLsbD PCS_STAT_LINK_STATUS.lo)) 9 (w.getLsbD PCS_STAT_HI_RFER.lo)) 8 (w.getLsbD PCS_STAT_BLOCK_LOCK.lo)
    | _, _ => std
/-- The standard registers with fields in block LPn. -/
def mmdInLp (mmd r : Nat) : Bool :=
  [(1, 0), (1, 1), (1, 10), (1, 2100), (1, 2309), (1, 2310), (3, 0), (3, 1), (3, 2322), (3, 2323), (3, 2324)].contains (mmd, r) ||
  (mmd == 7 && decide (512 ≤ r ∧ r < 520))
/-- A register of block LPn that a standard register views. -/
def mmdReg (mmd r : Nat) : Nat :=
  match mmd, r with
  | 1, 0 | 3, 0 | 1, 2309 | 3, 2322 => 0x000
  | 1, 10 => 0x001
  | 1, 1 | 3, 1 | 1, 2310 | 3, 2323 | 3, 2324 => 0x400
  | 7, 512 => 0x600
  | 7, 513 => 0x603
  | 7, 517 | 7, 518 | 7, 519 => 0x602
  | _, _ => 0x601
/-- A read of MMD 1, 3 or 7; one with fields of a gated block is refused (R347, R358). -/
def mmdRead (p : Port) (mmd r : Nat) (x : Both) : Both × BitVec 16 :=
  let g := x.1.gate (lpB p)
  if mmdInLp mmd r ∧ g ≠ 0 then ((x.1.errLog .mdio (lpB p + mmdReg mmd r) g false, x.2), 0) else (x, x.1.mmdView p mmd r)
/-- A write of a standard register writes all of its fields (R347). -/
def mmdWrite (p : Port) (mmd r : Nat) (w : BitVec 16) (x : Both) : Both :=
  let b := lpB p
  let put := fun (f : Fld) (v : Nat) (x : Both) => (fabWrite .mdio (b + f.off) f.mask (splice 0 f.lo f.w v) x).1
  if mmdHas mmd r = false then x
  else
    let x : Both := (x.1.modFab fun y => { y with mmd := y.mmd.set (mmdKey p mmd r) (w.toNat + 1) }, x.2)
    let loop := fun (k v : Nat) (x : Both) =>
      let m := x.1.get b PMA_CTL_LPBK
      if w.getLsbD k then put PMA_CTL_LPBK v x else if m = v then put PMA_CTL_LPBK 0 x else x
    let srst := fun (x : Both) => if w.getLsbD 15 then put PMA_CTL_SRST 1 x else x
    match mmd, r with
    | 1, 0 => srst (loop 0 1 x)
    | 3, 0 | 3, 2322 => srst (loop 14 2 x)
    | 1, 2309 => srst x
    | 1, 2100 =>
      let x := put AN_ADV_MS_MASTER (w.getLsbD 14).toNat x
      if mmdType w.toNat = 0 then x else put LINK_CTL_MODE_SEL (mmdType w.toNat) x
    | 7, 512 =>
      let old := (x.1.fab.mmd.get (mmdKey p 1 2100)).toNat
      let x :=
        if w.getLsbD 12 then put LINK_CTL_MODE_SEL 0 x
        else if x.1.get b LINK_CTL_MODE_SEL = 0 ∧ mmdType (old - 1) ≠ 0 then put LINK_CTL_MODE_SEL (mmdType (old - 1)) x else x
      if w.getLsbD 9 then put LINK_CTL_RESTART 1 x else x
    | 7, 514 | 7, 515 | 7, 516 =>
      (fabWrite .mdio (b + AN_ADV_ADV_2G5.off) 0xFFFF (Config.mmdAdv r w (x.1.reg (b + AN_ADV_ADV_2G5.off))) x).1
    | _, _ => x

/-- A read of MMD 30 or of a standard MMD (R346 to R348). -/
def mdioRead (p : Port) (mmd r : Nat) (x : Both) : Both × BitVec 16 :=
  if mmd = 30 then
    if r = 2 then winAccess false 0 x else (x, if r < 5 then x.1.reg (MMDW + r) else 0)
  else mmdRead p mmd r x
/-- A write of MMD 30 or of a standard MMD (R346 to R348). -/
def mdioWrite (p : Port) (mmd r : Nat) (w : BitVec 16) (x : Both) : Both :=
  if mmd = 30 then
    if r = 2 then (winAccess true w x).1
    else
      match findReg (MMDW + r) with
      | some d => if r < 5 then (x.1.setReg (MMDW + r) (mergeWord d.fields 0xFFFF w (x.1.reg (MMDW + r))), x.2) else x
      | none => x
  else mmdWrite p mmd r w x
/-- A Clause 45 frame (R345): operation 0 address, 1 write, 2 post-read-increment-address, 3 read. The part answers for its own
eight PHY addresses. -/
def mdioFrame (op : BitVec 2) (phy mmd : BitVec 5) (data : BitVec 16) (x : Both) : Both :=
  let n := (phy.toNat + 32 - 4 * x.1.get GLB GLB_STRAP_MDIO % 32) % 32
  if x.1.answers = false ∨ 8 ≤ n then answer .mdio [] x
  else
    let p : Port := Fin.ofNat 8 n
    let k := 32 * p.val + mmd.toNat
    let r := (x.1.fab.mdioAddr.get k).toNat
    let aim := fun (v : Nat) (x : Both) => ((x.1.modFab fun y => { y with mdioAddr := y.mdioAddr.set k (v : Nat) }, x.2) : Both)
    match op.toNat with
    | 0 => answer .mdio [] (aim data.toNat x)
    | 1 => answer .mdio [] (mdioWrite p mmd.toNat r data x)
    | o =>
      let y := mdioRead p mmd.toNat r x
      let z := if o = 2 then aim (if r = 0xFFFF then r else r + 1) y.1 else y.1
      answer .mdio (be 2 y.2.toNat) z

/-- SPI_FRAME (R338 to R342). -/
def execSpiFrame (op : Byte) (a : BitVec 19) (words : List (BitVec 16 × BitVec 16)) (n per : Nat) (second : Bool) (mid : List Access)
    (s : State) : Res :=
  s.actL (spiFrame .spi0 op a words n per second mid)
/-- SPI_OBSERVE_FRAME (R338 to R344). -/
def execSpiObserveFrame (op : Byte) (a : BitVec 19) (words : List (BitVec 16 × BitVec 16)) (n per : Nat) (second : Bool) (mid : List Access)
    (s : State) : Res :=
  s.actL (spiFrame .spi1 op a words n per second mid)
/-- MDIO_FRAME (R345 to R348, 18_register_map.md R536). -/
def execMdioFrame (op : BitVec 2) (phy mmd : BitVec 5) (data : BitVec 16) (s : State) : Res := s.actL (mdioFrame op phy mmd data)
/-- MDIO_WIN_DATA_ACCESS (R348): a write of the word given, or a read. -/
def execMdioWinDataAccess (wr : Option (BitVec 16)) (s : State) : Res :=
  s.actL fun x =>
    if x.1.answers then
      let r := winAccess wr.isSome (wr.getD 0) x
      answer .mdio (if wr.isSome then [] else be 2 r.2.toNat) r.1
    else x

/-- A 7-bit address is the part's own (R349): the general call and the first byte of a 10-bit address are not. -/
def Chip.twmMine (c : Chip) (dev : BitVec 7) : Bool := dev.toNat == 0x58 + c.get GLB GLB_STRAP_TWM
/-- The acknowledge bits of a transaction's bytes, the address byte first (R350, R353). -/
def Chip.twmAcked (c : Chip) (l : List Bool) : Chip := c.modFab fun y => { y with twmAcks := l }
/-- A transaction whose bytes the port does not take, `n` of them after the address byte: in Nap and Watch, before the wake, the
comparator acknowledges its own address and starts a wake; until RDY, and for any other address, nothing is acknowledged (R353,
13_power_and_reset.md R431). -/
def Chip.twmDeaf (c : Chip) (dev : BitVec 7) (n : Nat) : Chip :=
  let hit := c.twmMine dev && (c.pwr.mode == 2 || c.pwr.mode == 3) && c.pwr.wake.isNone && !c.pwr.rstLow
  (if hit then c.wakeSource 2 0 else c).twmAcked (hit :: List.replicate n false)
/-- The word address of the address bytes (R350). -/
def twmAddrOf (b : Bytes) : BitVec 19 := BitVec.ofNat 19 (ofBe (b.take 3))
/-- The complete groups that follow the address bytes (R350). -/
def twmGroups : Bytes → List (BitVec 16 × BitVec 16)
  | a :: b :: c :: d :: l => (BitVec.ofNat 16 (ofBe [a, b]), BitVec.ofNat 16 (ofBe [c, d])) :: twmGroups l
  | _ => []
/-- TWM_WRITE (R335, R349, R350): the 7-bit address, the bytes after it, the accesses waiting at other interfaces. Fewer than
three address bytes leave the address as it was (log entry 124). -/
def execTwmWrite (dev : BitVec 7) (b : Bytes) (mid : List Access) (s : State) : Res :=
  s.actL fun x =>
    if (x.1.answers && x.1.twmMine dev) = false then
      let r := shareRun .twm false [] mid x
      answer .twm [] (r.1.1.twmDeaf dev b.length, r.1.2)
    else
      let g := twmGroups (b.drop 3)
      let r := shareRun .twm false (wordsAt .twm (twmAddrOf b) g) mid (x.1.wakeSource 2 0, x.2)
      let st := if g = [] then none else some (r.2.foldl (fun n y => n ||| y.toNat) 0)
      let c := r.1.1.modFab fun y => { y with twmAddr := if b.length < 3 then y.twmAddr else ((twmAddrOf b).toNat + g.length) % 0x80000, twmStatus := st }
      answer .twm [] (c.twmAcked (List.replicate (b.length + 1) true), r.1.2)
/-- TWM_READ (R335, R349, R351): the 7-bit address, the words read, from the address bytes before a repeated start or from the
next address, and the accesses waiting at other interfaces. -/
def execTwmRead (dev : BitVec 7) (a : Option (BitVec 19)) (n : Nat) (mid : List Access) (s : State) : Res :=
  s.actL fun x =>
    if (x.1.answers && x.1.twmMine dev) = false then
      let r := shareRun .twm false [] mid x
      answer .twm [] (r.1.1.twmDeaf dev (if a.isSome then 3 else 0), r.1.2)
    else
      let c := x.1.wakeSource 2 0
      let first := match a with | some _ => [] | none => be 1 (c.fab.twmStatus.getD (0x50 + 8 * c.alertLow.toNat))
      let c := match a with | some v => c.modFab fun y => { y with twmAddr := v.toNat, twmStatus := none } | none => c
      let r := shareRun .twm false (readsAt .twm (BitVec.ofNat 19 c.fab.twmAddr) n) mid (c, x.2)
      let d := r.1.1.modFab fun y => { y with twmAddr := (c.fab.twmAddr + n) % 0x80000 }
      answer .twm (first ++ r.2) (d.twmAcked (List.replicate (if a.isSome then 5 else 1) true), r.1.2)
/-- TWM_WAKE_ADDRESS (R353, 13_power_and_reset.md R431): an address byte, with either direction bit, in Nap or Watch. -/
def execTwmWakeAddress (dev : BitVec 7) (_read : Bool) (s : State) : Res :=
  s.act fun c => if c.pwr.mode = 2 ∨ c.pwr.mode = 3 then c.twmDeaf dev 0 else c

/-- The write pending in a posted block takes effect when it is one of the given registers (R357). -/
def Chip.postedTo (c : Chip) (l : List Nat) (k : Fin 3) : Chip :=
  match c.fab.posted[k] with
  | some w => if l.contains w.addr then c.postDone k else c
  | none => c
/-- POSTED_WRITE_COMPLETE (R357): block CLK, PWR or SNS. -/
def execPostedWriteComplete (k : Fin 3) (s : State) : Res := s.act fun c => c.postDone k
/-- CLOCK_ENABLE_CHANGE (12_clocks.md R399). -/
def execClockEnableChange (s : State) : Res := s.act fun c => c.postedTo [0x1000, 0x1001] 0
/-- CLK_RESUME (12_clocks.md R412, R413): RESUME as written, or AUTO_RESUME. -/
def execClkResume (s : State) : Res := s.act fun c => (c.postedTo [0x1020] 0).autoResume
/-- CLK_EVT_CLR (12_clocks.md R411, R419). -/
def execClkEvtClr (s : State) : Res := s.act fun c => c.postedTo [0x1031] 0
/-- LEVEL_CHANGE_START (12_clocks.md R416). -/
def execLevelChangeStart (s : State) : Res := s.act fun c => c.postedTo [0x1040] 0
/-- PWR_REQ (13_power_and_reset.md R423, R425). -/
def execPwrReq (s : State) : Res := s.act fun c => c.postedTo [0x2000] 1
/-- SNS_EVT_CLR (17_pins_and_electrical.md R529). -/
def execSnsEvtClr (s : State) : Res := s.act fun c => c.postedTo [0x7013] 2

end Sys2Proof.Machine
end

