-- ==== Sys2Proof/Machine/Rows.lean ====
section
/-! DEFINITION. The commands that are one access of a register with an effect of its own: each is the access, through the
interface that makes it, with the locks, gates and side effects of the fabric (10_register_fabric.md R335 to R361). -/

namespace Sys2Proof.Machine

/-- HGRP_MODE_WRITE (01_architecture.md R26). -/
def execHgrpModeWrite (i : Ifc) (mode : BitVec 3) (s : State) : Res := s.actL (accFld i HGRP HGRP_MODE_MODE mode.toNat)
/-- PORT_ENABLE (02_line_port.md R49). -/
def execPortEnable (i : Ifc) (p : Port) (s : State) : Res := s.actL (accFld i (lpB p) PMA_CTL_ENABLE 1)
/-- PORT_DISABLE (02_line_port.md R54). -/
def execPortDisable (i : Ifc) (p : Port) (s : State) : Res := s.actL (accFld i (lpB p) PMA_CTL_ENABLE 0)
/-- PORT_SRST (02_line_port.md R79). -/
def execPortSrst (i : Ifc) (p : Port) (s : State) : Res := s.actL (accBit i (lpB p) PMA_CTL_SRST)
/-- The link fail of a criterion met in the same cycle as a RESTART, which has sent the port from `o` to LINK_FAIL, keeps its lower
FAIL_CAUSE (02_line_port.md R71; log entry 117). -/
def Chip.causeKept (o c : Chip) (p : Port) : Chip :=
  let k := o.get (lpB p) LINK_STAT_FAIL_CAUSE
  if o.lState p = 8 ∧ 1 ≤ k ∧ k ≤ 5 then c.put (lpB p) LINK_STAT_FAIL_CAUSE k else c
/-- RESTART (02_line_port.md R55, R71). -/
def execRestart (i : Ifc) (p : Port) (met : Bool) (s : State) : Res :=
  s.actL fun x =>
    let y := accBit i (lpB p) LINK_CTL_RESTART x
    if met then (Chip.causeKept x.1 y.1 p, y.2) else y
/-- REFRESH_REQ (02_line_port.md R62). -/
def execRefreshReq (i : Ifc) (p : Port) (s : State) : Res := s.actL (accBit i (lpB p) DSP_CTL_REFRESH_REQ)
/-- A write of a word, or a read, of one register. -/
abbrev accOne (i : Ifc) (a : Nat) (wr : Option (BitVec 16)) (x : Both) : Both :=
  match wr with
  | some w => accPut i a 0xFFFF w x
  | none => accRead i a 1 x
/-- The value that an adaptation step gave in `o` in the same cycle wins over the software's unless its group is frozen
(02_line_port.md R63; log entry 117). -/
def Chip.tapsKept (o c : Chip) (p : Port) : Chip :=
  if o.tapFrozen p (o.tapSel p).1 then c
  else c.modLink p fun x => { x with taps := (o.port p).link.taps, centres := (o.port p).link.centres, moves := (o.port p).link.moves }
/-- DSP_TAP_DATA_ACCESS (02_line_port.md R63, R64): a write of the word given, or a read; `met`: an adaptation step has updated
the value in the same cycle. -/
def execDspTapDataAccess (i : Ifc) (p : Port) (wr : Option (BitVec 16)) (met : Bool) (s : State) : Res :=
  s.actL fun x =>
    let y := accOne i (lpB p + DSP_TAP_DATA_VALUE.off) wr x
    if met && wr.isSome then (Chip.tapsKept x.1 y.1 p, y.2) else y
/-- GROUP_FREEZE (02_line_port.md R65): the five freeze bits as written. -/
def execGroupFreeze (i : Ifc) (p : Port) (bits : BitVec 5) (s : State) : Res :=
  s.actL (accPut i (lpB p + DSP_CTL_FREEZE_AGC.off) 0x1F (bits.setWidth 16))
/-- RELOAD (03_octavo.md R116). -/
def execReload (i : Ifc) (p : Port) (s : State) : Res := s.actL (accBit i (lpB p) OCT_CTL_RELOAD)
/-- WAKE_REQ (04_pip_channel.md R150). -/
def execWakeReq (i : Ifc) (p : Port) (s : State) : Res := s.actL (accBit i (lpB p) PIP_CTL_WAKE_REQ)
/-- SLEEP_REQ (04_pip_channel.md R154). -/
def execSleepReq (i : Ifc) (p : Port) (s : State) : Res := s.actL (accBit i (lpB p) PIP_CTL_SLEEP_REQ)
/-- DIAG_REQ (04_pip_channel.md R158). -/
def execDiagReq (i : Ifc) (p : Port) (s : State) : Res := s.actL (accBit i (lpB p) PIP_CTL_DIAG_REQ)
/-- PIP_DIAG_CTL_WRITE (04_pip_channel.md R159). -/
def execPipDiagCtlWrite (i : Ifc) (p : Port) (v : BitVec 16) (s : State) : Res :=
  s.actL (accPut i (lpB p + PIP_DIAG_CTL_CODE.off) 0xFFFF v)
/-- PIP_DIAG_DATA_ACCESS (04_pip_channel.md R159): a write of the word given, or a read. -/
def execPipDiagDataAccess (i : Ifc) (p : Port) (wr : Option (BitVec 16)) (s : State) : Res :=
  s.actL (accOne i (lpB p + PIP_DIAG_DATA_DATA.off) wr)
/-- TDR_START (05_cable_and_idle.md R160). -/
def execTdrStart (i : Ifc) (p : Port) (s : State) : Res := s.actL (accBit i (lpB p) DIAG_CTL_TDR_START)
/-- E_CLR (05_cable_and_idle.md R179). -/
def execEClr (i : Ifc) (p : Port) (s : State) : Res := s.actL (accBit i (lpB p) DIAG_CTL_E_CLR)

/-- FOLIO_CMD_SET (06_folio_time.md R195). -/
def execFolioCmdSet (i : Ifc) (s : State) : Res := s.actL (accBit i FOLIO FOLIO_CMD_SET)
/-- FOLIO_CMD_ADD (06_folio_time.md R195). -/
def execFolioCmdAdd (i : Ifc) (s : State) : Res := s.actL (accBit i FOLIO FOLIO_CMD_ADD)
/-- FOLIO_CMD_FINE (06_folio_time.md R221). -/
def execFolioCmdFine (i : Ifc) (s : State) : Res := s.actL (accBit i FOLIO FOLIO_CMD_FINE)
/-- FOLIO_CMD_SRST (06_folio_time.md, 18_register_map.md R539). -/
def execFolioCmdSrst (i : Ifc) (s : State) : Res := s.actL (accBit i FOLIO FOLIO_CMD_SRST)
/-- FOLIO_TIME_READ (06_folio_time.md R198): a read of FOLIO_TIME0. -/
def execFolioTimeRead (i : Ifc) (s : State) : Res := s.actL (accRead i (FOLIO + FOLIO_TIME_TIME.off) 1)
/-- The registers of a wide value, each written whole. -/
def wideWords (v : Nat) (n : Nat) : List (BitVec 16 × BitVec 16) := (List.range n).map fun k => (0xFFFF, wordOf v k)
/-- RATE_WRITE (06_folio_time.md R194): the three registers of FOLIO_RATE. -/
def execRateWrite (i : Ifc) (v : BitVec 48) (s : State) : Res := s.actL (accWrite i (FOLIO + FOLIO_RATE_RATE.off) (wideWords v.toNat 3))
/-- OUT_ARM (06_folio_time.md R225). -/
def execOutArm (i : Ifc) (s : State) : Res := s.actL (accBit i FOLIO FOLIO_OUT_CTL_ARM)
/-- OUT_STOP (06_folio_time.md R228). -/
def execOutStop (i : Ifc) (s : State) : Res := s.actL (accBit i FOLIO FOLIO_OUT_CTL_STOP)
/-- CAP_TIME_READ (06_folio_time.md R223): a read of FOLIO_CAP_TIME0. -/
def execCapTimeRead (i : Ifc) (s : State) : Res := s.actL (accRead i (FOLIO + FOLIO_CAP_TIME_TIME.off) 1)

/-- LANE_ENABLE (07_host_lanes_and_retimer.md R230). -/
def execLaneEnable (i : Ifc) (l : Lane) (s : State) : Res := s.actL (accFld i (laneB l) XN_CTL_ENABLE 1)
/-- LANE_DISABLE (07_host_lanes_and_retimer.md R230). -/
def execLaneDisable (i : Ifc) (l : Lane) (s : State) : Res := s.actL (accFld i (laneB l) XN_CTL_ENABLE 0)
/-- LANE_SRST (07_host_lanes_and_retimer.md R264). -/
def execLaneSrst (i : Ifc) (l : Lane) (s : State) : Res := s.actL (accBit i (laneB l) XN_CTL_SRST)
/-- TRN_RESTART (07_host_lanes_and_retimer.md R264). -/
def execTrnRestart (i : Ifc) (l : Lane) (s : State) : Res := s.actL (accBit i (laneB l) XN_TRN_CTL_RESTART)
/-- PAT_INJ_ONE (07_host_lanes_and_retimer.md R263). -/
def execPatInjOne (i : Ifc) (l : Lane) (s : State) : Res := s.actL (accBit i (laneB l) XN_PAT_INJ_ONE)
/-- QUIRE_SRST (08_quire_buffer.md R297). -/
def execQuireSrst (i : Ifc) (s : State) : Res := s.actL (accBit i QUIRE QUIRE_CTL_SRST)
/-- SPINE_FACE_ENABLE (09_spine_cascade.md R313). -/
def execSpineFaceEnable (i : Ifc) (f : Face) (s : State) : Res :=
  s.actL (accBit i SPINE (match f with | .n => SPINE_CTL_NORTH_EN | .s => SPINE_CTL_SOUTH_EN))
/-- SPINE_RETRAIN (09_spine_cascade.md R334). -/
def execSpineRetrain (i : Ifc) (f : Face) (s : State) : Res := s.actL (accBit i (faceB f) SPF_CTL_RETRAIN)
/-- SPINE_SRST (09_spine_cascade.md R334). -/
def execSpineSrst (i : Ifc) (s : State) : Res := s.actL (accBit i SPINE SPINE_CTL_SRST)
/-- DEMOTE (09_spine_cascade.md R330). -/
def execDemote (i : Ifc) (s : State) : Res := s.actL (accBit i SPINE SPINE_CMD_DEMOTE)
/-- STACK_RST (09_spine_cascade.md R331): with RST_KIND and RST_DEST in the same write. -/
def execStackRst (i : Ifc) (kind dest : BitVec 2) (s : State) : Res :=
  s.actL (accPut i (SPINE + SPINE_CMD_STACK_RST.off) 0x1F (BitVec.ofNat 16 (1 + 2 * kind.toNat + 8 * dest.toNat)))
/-- WAKE_SOUTH (09_spine_cascade.md R332). -/
def execWakeSouth (i : Ifc) (s : State) : Res := s.actL (accBit i SPINE SPINE_CMD_WAKE_SOUTH)

/-- REGISTER_WRITE (R354): a masked write at any address. -/
def execRegisterWrite (i : Ifc) (a : BitVec 19) (mask data met : BitVec 16) (s : State) : Res :=
  s.actL fun x => accPut i a.toNat mask (x.1.metData x.2 a.toNat data met) x
/-- WIDE_VALUE_READ (R336): a read of a wide value's lowest register. -/
def execWideValueRead (i : Ifc) (a : BitVec 19) (s : State) : Res := s.actL (accRead i a.toNat 1)
/-- WIDE_VALUE_WRITE (R337): masked writes of successive registers of a wide value. -/
def execWideValueWrite (i : Ifc) (a : BitVec 19) (words : List (BitVec 16 × BitVec 16)) (s : State) : Res :=
  s.actL (accWrite i a.toNat words)
/-- REG_LOCK_WRITE (00_scope.md R14, 10_register_fabric.md R356, R361). -/
def execRegLockWrite (i : Ifc) (mask data : BitVec 16) (s : State) : Res := s.actL (accPut i (REGB + REG_LOCK_OBSERVE.off) mask data)
/-- DOORBELL (11_binder_mailboxes.md R368). -/
def execDoorbell (i : Ifc) (m : Fin 4) (s : State) : Res := s.actL (accBit i (mbB m) MBN_CTL_DOORBELL)
/-- JOB_RELEASE (11_binder_mailboxes.md R376): the slot that MBX_JOB_SEL selects. -/
def execJobRelease (i : Ifc) (s : State) : Res := s.actL (accBit i MBX MBX_JOB_CTL_RELEASE)
/-- GLB_SWRST (13_power_and_reset.md R445). -/
def execGlbSwrst (i : Ifc) (s : State) : Res := s.actL (accBit i GLB GLB_SWRST_SWRST)
/-- CAL_FG_START (14_calibration_and_ageing.md R457): with TARGET in the same write. -/
def execCalFgStart (i : Ifc) (t : BitVec 5) (s : State) : Res :=
  s.actL (accPut i (CAL + CAL_FG_CTL_START.off) 0x3F (BitVec.ofNat 16 (32 + t.toNat)))
/-- CAL_FG_SAVE (14_calibration_and_ageing.md R454): with TARGET in the same write. -/
def execCalFgSave (i : Ifc) (t : BitVec 5) (s : State) : Res :=
  s.actL (accPut i (CAL + CAL_FG_CTL_SAVE.off) 0x5F (BitVec.ofNat 16 (64 + t.toNat)))
/-- AGE_PROP_APPROVE (14_calibration_and_ageing.md R469): the proposal that AGE_PROP_SEL selects. -/
def execAgePropApprove (i : Ifc) (s : State) : Res := s.actL (accBit i AGE AGE_PROP_ANS_APPROVE)
/-- AGE_PROP_VETO (14_calibration_and_ageing.md R469). -/
def execAgePropVeto (i : Ifc) (s : State) : Res := s.actL (accBit i AGE AGE_PROP_ANS_VETO)
/-- BIST_START (15_self_test_and_faults.md R481): with TARGET and FORCE in the same write. -/
def execBistStart (i : Ifc) (target : BitVec 6) (force : Bool) (s : State) : Res :=
  s.actL (accPut i (BIST + BIST_CTL_START.off) 0xFF (BitVec.ofNat 16 (128 + 64 * force.toNat + target.toNat)))
/-- BIST_MAN_WRITE (15_self_test_and_faults.md R485). -/
def execBistManWrite (i : Ifc) (bank : BitVec 5) (row : BitVec 10) (s : State) : Res :=
  s.actL (accPut i (BIST + BIST_MAN_VALID.off) 0xFFFF (BitVec.ofNat 16 (0x8000 + 32 * row.toNat + bank.toNat)))
/-- ROLL_STOP_ALL (15_self_test_and_faults.md R494). -/
def execRollStopAll (i : Ifc) (s : State) : Res := s.actL (accBit i ROLL ROLL_CMD_STOP_ALL)
/-- ROLL_SEED_WRITE (15_self_test_and_faults.md R492): the seed of the selected engine. -/
def execRollSeedWrite (i : Ifc) (seed : BitVec 32) (s : State) : Res :=
  s.actL (accWrite i (ROLL + ROLL_SEED_LO_VALUE.off) (wideWords seed.toNat 2))
/-- PMC_CNT_WRITE (16_counters.md R506): a committed write of counter k of unit u, and the increments n of the same cycle. -/
def execPmcCntWrite (i : Ifc) (u : Fin 2) (k : Fin 8) (v n : BitVec 32) (s : State) : Res :=
  s.actL fun x =>
    let a := pmcB u + PMC_CNT_COUNT.off + 2 * k.val
    let y := accWrite i a (wideWords v.toNat 2) x
    if x.1.serves i ∧ i ≠ .spi1 ∧ x.1.gate a = 0 then (y.1.pmcAdd1 u k n.toNat, y.2) else y
/-- CYC_CLR (16_counters.md R506). -/
def execCycClr (i : Ifc) (u : Fin 2) (s : State) : Res := s.actL (accBit i (pmcB u) PMC_CTL_CYC_CLR)

end Sys2Proof.Machine
end

