-- ==== Sys2Proof/Machine/CommandOps.lean ====
section
/-! DEFINITION. What the commands of the catalogue share (11_binder_mailboxes.md R364 to R386): the Binder's register accesses,
a short command and a long command as they run, MB2 requests and the results of jobs. -/

namespace Sys2Proof.Machine

/-- The part while a command runs, and the code that ends it early, 0 for none (R379, R381). -/
abbrev Run := Chip × Nat
/-- A step of a command that has not ended. -/
def runStep (x : Run) (f : Chip → Run) : Run := if x.2 = 0 then f x.1 else x
/-- The posted write pending in the block of an address takes effect (R357, R382). -/
def Chip.postFor (c : Chip) (a : Nat) : Chip := match postedBlock a with | some k => c.postDone k | none => c
/-- The Binder's masked write of a register: a gated block gives BLOCK_OFF, a lock LOCKED (R366, R379 to R382). -/
def bwr (lk : LockSt) (a : Nat) (mask data : BitVec 16) (x : Run) : Run :=
  runStep x fun c =>
    let r := fabWrite .binder a mask data (c.postFor a, lk)
    (r.1.1.postFor a, if r.2 % 2 = 1 then 5 else if r.2 = 0 then 0 else 6)
/-- The Binder writes a field. -/
def bput (lk : LockSt) (b : Nat) (f : Fld) (v : Nat) (x : Run) : Run := bwr lk (b + f.off) f.mask (splice 0 f.lo f.w v) x
/-- The Binder writes a wide value of n registers. -/
def bwide (lk : LockSt) (a n v : Nat) (x : Run) : Run := (List.range n).foldl (fun x k => bwr lk (a + k) 0xFFFF (wordOf v k) x) x
/-- A step for each member of a list. -/
def runEach (l : List α) (f : α → Run → Run) (x : Run) : Run := l.foldl (fun x y => f y x) x
/-- The Binder reads a value of n registers, the lowest first (R336). -/
def bread (lk : LockSt) (a n : Nat) (x : Run) : Run × Nat :=
  (List.range n).foldl (fun (y : Run × Nat) k =>
    if y.1.2 = 0 then
      let r := fabRead .binder (a + k) (y.1.1, lk)
      ((r.1, if r.2.2 = 0 then 0 else 5), y.2 + r.2.1.toNat * 2 ^ (16 * k))
    else y) (x, 0)
/-- The Binder reads values one after the other: address and registers of each. -/
def breads (lk : LockSt) (l : List (Nat × Nat)) (x : Run) : Run × List Nat :=
  l.foldl (fun (y : Run × List Nat) v => let r := bread lk v.1 v.2 y.1; (r.1, y.2 ++ [r.2])) (x, [])
/-- Accesses to the copy of a register that a selector value shows; the selector keeps its value, since a command has no effect
beyond its entry (R364). -/
def withSel (b : Nat) (f : Fld) (v : Nat) (g : Run → Run × β) (x : Run) : Run × β :=
  let r := g (x.1.put b f v, x.2)
  ((r.1.1.put b f (x.1.get b f), r.1.2), r.2)
/-- The same without a value. -/
def inSel (b : Nat) (f : Fld) (v : Nat) (g : Run → Run) (x : Run) : Run := (withSel b f v (fun x => (g x, ())) x).1

/-- A time word in layout T (R383). -/
def tWords (w : Nat) : List Nat := [w / 2 ^ 80, w / 2 ^ 48 % 2 ^ 32, w / 2 ^ 16 % 2 ^ 32, w % 2 ^ 16]
/-- The time word that four words in layout T spell. -/
def ofT (a b c d : Nat) : Nat := a * 2 ^ 80 + b * 2 ^ 48 + c * 2 ^ 16 + d
/-- A value of 48 bits or more as its high and low words. -/
def hiLo (v : Nat) : List Nat := [v / 2 ^ 32, v % 2 ^ 32]
/-- A signed 16-bit value as a result word. -/
def sext (v : Nat) : Nat := unsigned 32 (signed 16 v)

/-- What a short command answers: the part, its code and its result words. -/
abbrev Ans := Chip × Nat × List Nat
/-- A command that only writes. -/
def wrote0 (x : Run) : Ans := (x.1, x.2, [])
/-- A command with result words. -/
def words0 (x : Run × List Nat) : Ans := (x.1.1, x.1.2, if x.1.2 = 0 then x.2 else [])

/-- The short or long command with an ID that runs, and its mailbox. -/
def Chip.cmdNow (c : Chip) (id : Nat) : Option (Fin 4 × MbReq) :=
  if c.binderOn then
    match c.mbRunning with
    | some m => match c.binder.mbs[m].running with | some r => if r.cmd = id then some (m, r) else none | none => none
    | none => none
  else none
/-- A short command runs to its end (R365, R370); an entry that waited for it goes on (R385). -/
def State.short (s : State) (id : Nat) (f : MbReq → Chip → Ans) : Res :=
  s.act fun c =>
    match c.cmdNow id with
    | none => c
    | some (m, r) =>
      let x := f r c
      (x.1.cmdDone s.lock.bits m r x.2.1 x.2.2).entryDue
/-- A long command starts its operation: it becomes a job with what it keeps, or completes with a code (R374). -/
def State.long (s : State) (id : Nat) (f : MbReq → Chip → Chip × Nat × List Int) : Res :=
  s.act fun c =>
    match c.cmdNow id with
    | none => c
    | some (m, r) =>
      let x := f r c
      (if x.2.1 = 0 then x.1.jobStart s.lock.bits m r x.2.2 else x.1.cmdDone s.lock.bits m r x.2.1 []).entryDue
/-- A long command whose start is a run of accesses. -/
def started (x : Run) (keep : List Int) : Chip × Nat × List Int := (x.1, x.2, keep)

/-- A request is placed in MB2 and its doorbell rung (R387). -/
def Chip.mb2Put (c : Chip) (lk : BitVec 16) (cmd tag : Nat) (par : List Nat) (src : Nat) : Chip :=
  (c.mb2Fill { cmd := cmd, tag := tag, par := par, src := src }).mbServe lk
/-- The body of an MB2 request (R387). -/
def mb2Request (cmd tag : Nat) (par : List Nat) : Bytes := be 2 cmd ++ be 1 tag ++ be 1 par.length ++ par.flatMap (be 4)

/-- The word of P0 of REMOTE's second or STACK_ALL's first parameter: the parameters that follow it, as many as it says. -/
def remotePar (w : Nat) (l : List Nat) : List Nat := l.take (w / 256 % 64)

/-- A stored record as NVM_READ shows it (14_calibration_and_ageing.md R450, R451; log entries 4, 98): its check, and its word
at a place. -/
def Chip.nvmSlot (c : Chip) (space n : Nat) : Option NvmSlot := if space = 0 then slotOf c.cal.otp n else (c.mtpSlots n).head?
/-- The word at a place of a record. -/
def Chip.nvmWord (c : Chip) (space n i : Nat) : Nat :=
  let free := fun (q : Nat) => (Config.nvmWord space n q i).toNat
  match c.nvmSlot space n with
  | none => free 0
  | some s =>
    let h := n * 2 ^ 24 + 2 ^ 16 + s.seq
    if s.good = false ∨ s.words.length + 1 < i then free s.seq
    else if i = 0 then h
    else if i ≤ s.words.length then s.words.getD (i - 1) 0
    else (crc32 ((h :: s.words).flatMap (be 4))).toNat

/-- An MTP write that a job has asked for has ended (14_calibration_and_ageing.md R454): with OK or NVM_FAIL. -/
def Chip.mtpEnded (c : Chip) (n : Nat) : Option Nat :=
  if c.cal.mtpq.any fun w => w.record == n then none
  else some (if ((c.mtpSlots n).head?.map (·.good)).getD true then 0 else 12)

/-- The reflections, distances and time of a run (R383). -/
def tdrWords (lk : LockSt) (p : Port) (x : Run) : Run × List Nat :=
  let b := lpB p
  let r := bread lk (b + DIAG_STAT_BUSY.off) 1 x
  let y := (List.range 4).foldl (fun (y : Run × List Nat) i =>
    let e := withSel b DIAG_SEL_ENTRY i (breads lk [(b + DIAG_DIST_DIST.off, 1), (b + DIAG_REFL_CLASS.off, 1)]) y.1
    (e.1, y.2 ++ [e.2.getD 0 0 * 2 ^ 16 + e.2.getD 1 0])) (r.1, [r.2])
  let t := bread lk (b + DIAG_TIME_TIME.off) 2 y.1
  (t.1, y.2 ++ [t.2])

/-- The code of a result of CAL_FG_STAT through a mailbox (14_calibration_and_ageing.md R460): DONE gives OK, ABORTED ABORTED, BUSY
BUSY, NVM_FAIL NVM_FAIL, the refusals REFUSED. -/
def calCode (res : Nat) : Nat := match res with | 1 => 0 | 4 => 14 | 5 => 7 | 6 => 12 | _ => 8
/-- The code of the foreground calibration of a target that has ended. -/
def Chip.calEnded (c : Chip) (t : Nat) : Nat := calCode (c.cal.ended.get t).toNat

/-- A job's operation has ended: its code and result words (R376, R383, R386); none while it goes on. `limit`: the time that
the command gives has passed; `ok`: the operation succeeded where no register tells. -/
def Chip.jobResult (c : Chip) (lk : LockSt) (r : MbReq) (keep : List Int) (limit ok : Bool) : Option Ans :=
  let P := r.p
  let b := lpB (portNo (P 0))
  let la := laneB (laneNum (P 0))
  let k := fun (i : Nat) => keep.getD i 0
  let read := fun (l : List (Nat × Nat)) => words0 (breads lk l (c, 0))
  let coded := fun (n : Nat) (a : Ans) => (if a.2.1 = 0 then (a.1, n, a.2.2) else a : Ans)
  match r.cmd with
  | 0x0105 =>
    let up := c.on b LINK_STAT_LINK_UP
    if up ∨ limit then some (coded (if up then 0 else 9) (read [(b + LINK_STAT_LINK_UP.off, 1)])) else none
  | 0x0107 =>
    if ((c.port (portNo (P 0))).oct.reload).isSome then none
    else some (if c.showtime (portNo (P 0)) && !(c.port (portNo (P 0))).oct.reloadBad then read [(b + OCT_STAT_PHASE.off, 1), (b + OCT_BTX_B.off, 1), (b + OCT_BRX_B.off, 1)] else (c, 8, []))
  | 0x0109 =>
    let x := (c.port (portNo (P 0))).pip
    if x.waiting.any (fun m => m.typ == 9) ∨ x.outstanding.any (fun o => o.msg.typ == 9) then none
    else
      let d := x.rpt.drop 2
      some (if x.rpt = [] then (c, 9, [])
        else (c, 0, [beAt x.rpt 0 2, d.length] ++ (List.range 15).map fun i => ofBe (((d ++ List.replicate 64 0).drop (4 * i)).take 4)))
  | 0x010B => some (read [(HGRP + HGRP_MODE_MODE.off, 1)])
  | 0x0204 =>
    if limit then
      let off := signed 64 (P 0 * 2 ^ 32 + P 1)
      let x := bwide lk (FOLIO + FOLIO_RATE_RATE.off) 3 (unsigned 48 (k 0)) (c, 0)
      some (words0 (x, hiLo (unsigned 64 (if k 2 = 0 then 0 else (off.natAbs * (k 1).natAbs / (k 2).natAbs : Nat) * off.sign))))
    else none
  | 0x0207 =>
    let up := c.fState == 3 || c.fState == 5
    if up ∨ limit then some (coded (if up then 0 else 9) (read [(FOLIO + FOLIO_STAT_STATE.off, 1)])) else none
  | 0x0301 => if c.on b DIAG_STAT_BUSY then none else some (words0 (tdrWords lk (portNo (P 0)) (c, 0)))
  | 0x0401 =>
    if c.calRuns (P 0) then none
    else some (coded (c.calEnded (P 0)) (read [(b + PMA_STAT_SIGNAL_DET.off, 1), (CAL + CAL_FG_TIME_TIME.off, 1)]))
  | 0x0402 => if c.calRuns (8 + P 0) then none else some (coded (c.calEnded (8 + P 0)) (read [(CAL + CAL_FG_TIME_TIME.off, 1)]))
  | 0x0405 => (c.mtpEnded (calRecord (P 0))).map fun e => (c, e, [(c.cal.writes.get (calRecord (P 0))).toNat])
  | 0x040A => (c.mtpEnded (256 + (k 0).toNat % 192)).map fun e => (c, e, [(k 0).toNat])
  | 0x0601 =>
    if c.bist.run = some (P 0) then none
    else some (withSel BIST BIST_CTL_TARGET (P 0) (breads lk [(BIST + BIST_RES_RESULT.off, 1), (BIST + BIST_ADDR_VALUE.off, 2), (BIST + BIST_BIT_VALUE.off, 1)]) (c, 0)
      |> fun y => words0 (y.1, [y.2.getD 0 0 % 4] ++ y.2.drop 1))
  | 0x0603 => (c.mtpEnded (0x30 + P 0)).map fun e => (c, e, [(c.cal.writes.get (0x30 + P 0)).toNat])
  | 0x0604 =>
    if limit then
      let y := breads lk [(la + XN_PAT_STAT_LOCK.off, 1), (la + XN_PAT_BITS_COUNT.off, 3), (la + XN_PAT_ERR_COUNT.off, 3)] (c, 0)
      let d := fun (i : Nat) (was : Int) => hiLo (unsigned 48 ((y.2.getD i 0 : Nat) - was))
      let x := bwr lk (la + XN_PAT_CTL_GEN_EN.off) 3 0 y.1
      some (words0 (x, [y.2.getD 0 0 % 2] ++ d 1 (k 0) ++ d 2 (k 1)))
    else none
  | 0x0701 =>
    if keep ≠ [] then
      some (c, 0, [(k 0).toNat + 256 * (k 1).toNat + 65536 * (k 2).toNat] ++ (List.range 29).map fun i => (k (3 + P 0 / 256 % 32 + i)).toNat)
    else if limit then some (c, 9, [])
    else if ok then none
    else some (c, 11, [])
  | 0x0707 =>
    if limit ∨ keep.all (fun v => decide (0 ≤ v)) then
      some (c, 0, [ofBits ((List.range 4).map fun i => k i == 0)] ++ (List.range 4).map fun i => if k i < 0 then 0xFF else (k i).toNat)
    else none
  | _ => none

end Sys2Proof.Machine
end

