-- ==== Sys2Proof/Machine/CmdLink.lean ====
section
/-! DEFINITION. The meanings of the link, time and diagnostics commands (11_binder_mailboxes.md R383, R384): each runs the
request of its ID that the Binder has taken. -/

namespace Sys2Proof.Machine

/-- LINK_INFO. -/
def execLinkInfo (s : State) : Res :=
  s.short 0x0101 fun r c =>
    let b := lpB (portNo (r.p 0))
    words0 (breads s.lock [(b + LINK_STAT_STATE.off, 1), (b + AN_STAT_RESOLVED.off, 1), (b + LM_STAT_SNR_MARGIN.off, 1), (b + OCT_STAT_PHASE.off, 1),
      (b + PCS_STAT_BLOCK_LOCK.off, 1)] (c, 0))
/-- LINK_ENABLE. -/
def execLinkEnable (s : State) : Res :=
  s.short 0x0102 fun r c => wrote0 (runEach (portsOf (r.p 0)) (fun p => bput s.lock (lpB p) PMA_CTL_ENABLE ((r.p 1).testBit p.val).toNat) (c, 0))
/-- LINK_RESTART. -/
def execLinkRestart (s : State) : Res :=
  s.short 0x0103 fun r c => wrote0 (runEach (portsOf (r.p 0)) (fun p => bput s.lock (lpB p) LINK_CTL_RESTART 1) (c, 0))
/-- LINK_MODE. -/
def execLinkMode (s : State) : Res :=
  s.short 0x0104 fun r c =>
    let b := lpB (portNo (r.p 0))
    wrote0 (bwr s.lock (b + AN_ADV_ADV_EEE.off) 0xFFFF (BitVec.ofNat 16 (r.p 2)) (bput s.lock b LINK_CTL_MODE_SEL (r.p 1) (c, 0)))
/-- LINK_WAIT_UP: a job that waits. -/
def execLinkWaitUp (s : State) : Res := s.long 0x0105 fun _ c => started (c, 0) []
/-- OCT_CONFIG. -/
def execOctConfig (s : State) : Res :=
  s.short 0x0106 fun r c =>
    let b := lpB (portNo (r.p 0))
    let w := fun (f : Fld) (m : BitVec 16) (i : Nat) => bwr s.lock (b + f.off) m (BitVec.ofNat 16 (r.p i))
    wrote0 (w OCT_SWAP_TRIG 0xFFFF 4 (w OCT_MARGIN_TARGET 0xFFFF 3 (w OCT_PART_TX_RATE 0xFFFF 2 (w OCT_CTL_DUPLEX 0x7F 1 (c, 0)))))
/-- OCT_RELOAD: a reload that R116 does not begin is refused. -/
def execOctReload (s : State) : Res :=
  s.long 0x0107 fun r c =>
    let p := portNo (r.p 0)
    let ok := c.showtime p && c.reloadHeld p == 0
    started (runStep (bput s.lock (lpB p) OCT_CTL_RELOAD 1 (c, 0)) fun c => (c, if ok then 0 else 8)) []
/-- OCT_TONES. -/
def execOctTones (s : State) : Res :=
  s.short 0x0108 fun r c =>
    let b := lpB (portNo (r.p 0))
    let one := fun (x : Run) (t : Nat) => withSel b OCT_TONE_SEL_TONE t (bread s.lock (b + OCT_TONE_BITS_RX_BITS.off) 1) x
    let word := fun (y : Run × List Nat) (i : Nat) =>
      let z := (List.range 8).foldl (fun (z : Run × Nat) j =>
        let t := r.p 1 + 8 * i + j
        if 2039 < t then z
        else let v := one z.1 t; (v.1, z.2 + v.2 % 16 * 16 ^ j)) (y.1, 0)
      (z.1, y.2 ++ [z.2])
    words0 ((List.range ((r.p 2 + 7) / 8)).foldl word ((c, 0), []))
/-- PIP_DIAG: the request carries the command's own data (R364; 04_pip_channel.md R158). -/
def execPipDiag (s : State) : Res :=
  s.long 0x0109 fun r c =>
    let p := portNo (r.p 0)
    let data := ((r.par.drop 3).flatMap (be 4)).take (r.p 2)
    let send := fun (c : Chip) => ((c.modPip p fun x => { x with rpt := [] }).pipRequest p 9 PIP_CTL_DIAG_REQ (be 1 (r.p 1) ++ data), 0)
    started (runStep (bread s.lock (lpB p + PIP_CTL_EN.off) 1 (c, 0)).1 send) []
/-- PIP_WAKE. -/
def execPipWake (s : State) : Res :=
  s.short 0x010A fun r c =>
    wrote0 (runEach (portsOf (r.p 0)) (fun p x => bput s.lock (lpB p) PIP_CTL_WAKE_REQ 1 (bput s.lock (lpB p) PIP_WAKE_BURST (r.p 1) x)) (c, 0))
/-- HOST_MODE: lanes off, mode, rates, lanes on. -/
def execHostMode (s : State) : Res :=
  s.long 0x010B fun r c =>
    let x := runEach allLanes (fun l => bput s.lock (laneB l) XN_CTL_ENABLE 0) (c, 0)
    let x := bput s.lock HGRP HGRP_MODE_MODE (r.p 0) x
    let x := runEach allLanes (fun l => bput s.lock (laneB l) XN_CTL_RATE (r.p 2 / 4 ^ l.val % 4)) x
    started (runEach (allLanes.filter fun l => (r.p 1).testBit l.val) (fun l => bput s.lock (laneB l) XN_CTL_ENABLE 1) x) []
/-- LANE_INFO. -/
def execLaneInfo (s : State) : Res :=
  s.short 0x010C fun r c =>
    let b := laneB (laneNum (r.p 0))
    words0 (breads s.lock [(b + XN_STAT_UP.off, 1), (b + XN_TRN_STAT_STATE.off, 1), (b + XN_EYE_HEIGHT.off, 1), (b + XN_CTL_ENABLE.off, 1)] (c, 0))

/-- TIME_GET. -/
def execTimeGet (s : State) : Res :=
  s.short 0x0201 fun _ c =>
    let y := breads s.lock [(FOLIO + FOLIO_TIME_TIME.off, 6), (FOLIO + FOLIO_STAT_STATE.off, 1)] (c, 0)
    words0 (y.1, tWords (y.2.getD 0 0) ++ y.2.drop 1)
/-- TIME_SET. -/
def execTimeSet (s : State) : Res :=
  s.short 0x0202 fun r c =>
    wrote0 (bput s.lock FOLIO FOLIO_CMD_SET 1 (bwide s.lock (FOLIO + FOLIO_SET_VALUE.off) 6 (ofT (r.p 0) (r.p 1) (r.p 2) (r.p 3)) (c, 0)))
/-- TIME_ADD. -/
def execTimeAdd (s : State) : Res :=
  s.short 0x0203 fun r c =>
    wrote0 (bput s.lock FOLIO FOLIO_CMD_ADD 1 (bwide s.lock (FOLIO + FOLIO_ADD_VALUE.off) 4 (r.p 0 * 2 ^ 32 + r.p 1) (c, 0)))
/-- TIME_SLEW: RATE moves by the slew with the sign of the offset; the job keeps RATE, what it moved by and the slew. -/
def execTimeSlew (s : State) : Res :=
  s.long 0x0204 fun r c =>
    let x := bread s.lock (FOLIO + FOLIO_STAT_STATE.off) 1 (c, 0)
    let x := runStep x.1 fun c => (c, if x.2 % 8 = 1 then 0 else 8)
    let old := bread s.lock (FOLIO + FOLIO_RATE_RATE.off) 3 x
    let d := (r.p 2 * 2 ^ 56 / 1000000000 : Nat) * (signed 64 (r.p 0 * 2 ^ 32 + r.p 1)).sign
    let x := bwide s.lock (FOLIO + FOLIO_RATE_RATE.off) 3 (unsigned 48 (signed 48 old.2 + d)) old.1
    let new := bread s.lock (FOLIO + FOLIO_RATE_RATE.off) 3 x
    started new.1 [signed 48 old.2, signed 48 new.2 - signed 48 old.2, d]
/-- TIME_RATE. -/
def execTimeRate (s : State) : Res :=
  s.short 0x0205 fun r c =>
    let y := bread s.lock (FOLIO + FOLIO_RATE_RATE.off) 3 (bwide s.lock (FOLIO + FOLIO_RATE_RATE.off) 3 (r.p 0 * 2 ^ 32 + r.p 1) (c, 0))
    words0 (y.1, hiLo y.2)
/-- TIME_SOURCE. -/
def execTimeSource (s : State) : Res :=
  s.short 0x0206 fun r c => wrote0 (bwr s.lock (FOLIO + FOLIO_CTL_SRC.off) 0x3FF (BitVec.ofNat 16 (r.p 0)) (c, 0))
/-- TIME_WAIT_LOCK: a job that waits. -/
def execTimeWaitLock (s : State) : Res := s.long 0x0207 fun _ c => started (c, 0) []
/-- The writes of EVT_ARM, and FOLIO_OUT_CTL after them. -/
def evtArm (lk : LockSt) (r : MbReq) (x : Run) : Run × Nat :=
  withSel FOLIO FOLIO_OUT_CTL_SEL (r.p 0) (fun x =>
    let x := bwide lk (FOLIO + FOLIO_OUT_START_TIME.off) 6 (ofT (r.p 2) (r.p 3) (r.p 4) (r.p 5)) x
    let x := bwide lk (FOLIO + FOLIO_OUT_PER_PERIOD.off) 3 (r.p 6 * 2 ^ 32 + r.p 7) x
    let x := bwide lk (FOLIO + FOLIO_OUT_WIDTH_WIDTH.off) 2 (r.p 8) x
    bread lk (FOLIO + FOLIO_OUT_CTL_ARM.off) 1 (bwr lk (FOLIO + FOLIO_OUT_CTL_ARM.off) 0x1C (BitVec.ofNat 16 (16 + 4 * (r.p 1 % 4))) x)) x
/-- EVT_ARM: refused when R225 does not perform the ARM, which the same writes with the output disarmed show (log entry 98). -/
def execEvtArm (s : State) : Res :=
  s.short 0x0208 fun r c =>
    let o : Fin 4 := Fin.ofNat 4 (r.p 0)
    let y := evtArm s.lock r (c, 0)
    let armed := ((evtArm s.lock r (c.outStop o, 0)).1.1.folio.outs[o]).armed
    words0 (runStep y.1 fun c => (c, if armed then 0 else 8), [y.2])
/-- The oldest stamps of a capture input, at most n, each with its edge. -/
def capMany (i : Fin 4) (c : Chip) (l : List (Nat × Bool)) : Nat → Chip × List (Nat × Bool)
  | 0 => (c, l)
  | n + 1 =>
    if c.folio.caps[i].queue.isEmpty then (c, l)
    else let r := c.capTake i; capMany i r.1 (l ++ [(r.2, (r.1.folio.caps[i]).edge)]) n
/-- CAP_READ. -/
def execCapRead (s : State) : Res :=
  s.short 0x0209 fun r c =>
    let x := (bread s.lock (FOLIO + FOLIO_CAP_STAT_LEVEL.off) 1 (c, 0)).1
    let y := if x.2 = 0 then capMany (Fin.ofNat 4 (r.p 0)) x.1 [] (r.p 1) else (x.1, [])
    words0 ((y.1, x.2), [y.2.length + 256 * ofBits (y.2.map (·.2))] ++ y.2.flatMap fun v => tWords v.1)
/-- PORT_TIME. -/
def execPortTime (s : State) : Res :=
  s.short 0x020A fun r c =>
    let b := lpB (portNo (r.p 0))
    words0 (breads s.lock [(b + TS_STAT_AS_CAPABLE.off, 1), (b + TS_PDLY_PDLY.off, 2), (b + DLY_TX_TX.off, 2), (b + DLY_RX_RX.off, 2),
      (b + DLY_STAT_USED.off, 1)] (c, 0))

/-- TDR_RUN: refused where R160 refuses the write of TDR_START that it makes. -/
def execTdrRun (s : State) : Res :=
  s.long 0x0301 fun r c =>
    let p := portNo (r.p 0)
    let n := c.lState p
    started (runStep (bput s.lock (lpB p) DIAG_CTL_TDR_START 1 (c, 0)) fun c => (c, if n = 8 ∨ n = 9 ∨ n = 10 then 0 else 8)) []
/-- DELAY_CLEAR. -/
def execDelayClear (s : State) : Res :=
  s.short 0x0302 fun r c => wrote0 (runEach (portsOf (r.p 0)) (fun p => bput s.lock (lpB p) DIAG_CTL_E_CLR 1) (c, 0))
/-- ERRLOG. -/
def execErrlog (s : State) : Res :=
  s.short 0x0303 fun r c =>
    let y := breads s.lock [(REGB + REG_ERRLOG_CAUSE_CAUSE.off, 1), (REGB + REG_ERRLOG_ADDR_ADDR.off, 2), (REGB + REG_ERRLOG_CNT_CNT.off, 1)] (c, 0)
    words0 (if r.p 0 % 2 = 1 then bput s.lock REGB REG_ERRLOG_CAUSE_VALID 1 y.1 else y.1, y.2)
/-- CTR_SNAPSHOT (R384). -/
def execCtrSnapshot (s : State) : Res :=
  s.short 0x0304 fun r c =>
    let y := breads s.lock ((List.range (r.p 2)).map fun i => (0x1000 * r.p 0 + r.p 1 + 4 * i, 3)) (c, 0)
    words0 (y.1, y.2.flatMap fun v => [v % 2 ^ 32, v / 2 ^ 32])
/-- SENSORS. -/
def execSensors (s : State) : Res :=
  s.short 0x0305 fun _ c =>
    let y := breads s.lock ((List.range 8).map (fun k => (SNS + SNS_TEMP_TEMP.off + k, 1)) ++ (List.range 6).map fun k => (SNS + SNS_RAIL_MV.off + k, 1)) (c, 0)
    words0 (y.1, (y.2.take 8).map sext ++ y.2.drop 8)
/-- ALERTS. -/
def execAlerts (s : State) : Res :=
  s.short 0x0306 fun _ c => words0 (breads s.lock [(GLB + GLB_ALERT_SRC.off, 2), (GLB + GLB_NME_NME_CLK.off, 1)] (c, 0))
/-- JOB_READ: the slot's registers, then its release. -/
def execJobRead (s : State) : Res :=
  s.short 0x0307 fun r c =>
    let j : Fin 8 := Fin.ofNat 8 (r.p 0)
    let b := jobB j
    let v := [(c.reg (b + MBX_JOB_STAT_STATE.off)).toNat, c.get b MBX_JOB_CMD_ID * 2 ^ 16 + c.get b MBX_JOB_CTL_TAG] ++
      (List.range 30).map fun i => c.wide (b + MBX_JOB_RES_DATA.off + 2 * i) 2
    (if r.p 1 % 2 = 1 then c.jobRelease j else c, 0, v)
/-- QUIRE_HEALTH. -/
def execQuireHealth (s : State) : Res :=
  s.short 0x0308 fun _ c =>
    words0 (breads s.lock [(QUIRE + QUIRE_STAT_BANKS.off, 1), (QUIRE + QUIRE_BANK_OK_OK.off, 2), (QUIRE + QUIRE_ECC_ADDR_ADDR.off, 2),
      (QUIRE + QUIRE_ECC_KIND_STORE.off, 1), (QUIRE + 0x60, 1)] (c, 0))
/-- IDENTIFY. -/
def execIdentify (s : State) : Res :=
  s.short 0x0309 fun _ c =>
    let y := breads s.lock [(GLB + GLB_ID_PART.off, 1), (GLB + GLB_STEP_STEP.off, 1), (GLB + GLB_ROM_MINOR.off, 1), (GLB + GLB_SERIAL_SERIAL.off, 3),
      (GLB + GLB_STRAP_POS.off, 1)] (c, 0)
    let n := y.2.getD 3 0
    words0 (y.1, y.2.take 3 ++ [n / 2 ^ 32 % 256, n % 2 ^ 32, y.2.getD 4 0 % 4])

end Sys2Proof.Machine
end

