-- ==== Sys2Proof/Machine/CmdRest.lean ====
section
/-! DEFINITION. The meanings of the calibration, ageing, power, test and stack commands (11_binder_mailboxes.md R383, R385 to
R387), the end of a job, the Binder's watchdog, and MB2 messages of the Spine. -/

namespace Sys2Proof.Machine

/-- CAL_PORT: refused as R56 and R457 to R459 refuse it. -/
def execCalPort (s : State) : Res :=
  s.long 0x0401 fun r c =>
    started (runStep (bread s.lock (lpB (portNo (r.p 0)) + PMA_STAT_SIGNAL_DET.off) 1 (c, 0)).1 fun c =>
      let x := c.calStart (r.p 0)
      (x.1, if x.2 = 0 then 0 else calCode x.2)) []
/-- CAL_LANE. -/
def execCalLane (s : State) : Res :=
  s.long 0x0402 fun r c =>
    started (runStep (bread s.lock (laneB (laneNum (r.p 0)) + XN_STAT_UP.off) 1 (c, 0)).1 fun c =>
      let x := c.calStart (8 + r.p 0)
      (x.1, if x.2 = 0 then 0 else calCode x.2)) []
/-- CAL_SCHEDULE. -/
def execCalSchedule (s : State) : Res :=
  s.short 0x0403 fun r c =>
    let w := fun (f : Fld) (v : Nat) => bwr s.lock (CAL + f.off) 0xFFFF (BitVec.ofNat 16 v)
    wrote0 (w CAL_SCHED_INT_VALUE (r.p 1) (w CAL_SCHED_LANE_VALUE (r.p 0 / 256) (w CAL_SCHED_PORT_VALUE (r.p 0 % 256) (c, 0))))
/-- NVM_READ (14_calibration_and_ageing.md R450, R451; log entry 98). -/
def execNvmRead (s : State) : Res :=
  s.short 0x0404 fun r c =>
    let good := ((c.nvmSlot (r.p 0) (r.p 1)).map (·.good)).getD true
    let fall := match c.cal.use.find? fun x => x.1 == r.p 1 with | some (_, u) => !u.ok | none => false
    (c, 0, [good.toNat + 2 * fall.toNat] ++ (List.range (r.p 3)).map fun i => c.nvmWord (r.p 0) (r.p 1) (r.p 2 + i))
/-- NVM_SAVE_CAL (14_calibration_and_ageing.md R454). -/
def execNvmSaveCal (s : State) : Res := s.long 0x0405 fun r c => (c.calSave (r.p 0), 0, [])
/-- AGE_READ. -/
def execAgeRead (s : State) : Res :=
  s.short 0x0406 fun r c =>
    let y := withSel AGE AGE_SEL_TARGET (r.p 0) (breads s.lock [(AGE + AGE_YTL_VALUE.off, 1), (AGE + AGE_TREND_VALUE.off, 1)]) (c, 0)
    words0 (y.1, [y.2.getD 0 0, sext (y.2.getD 1 0), (c.age.last.get (r.p 0)).toNat])
/-- AGE_LEDGER. -/
def execAgeLedger (s : State) : Res :=
  s.short 0x0407 fun r c => (c, 0, match c.age.ledger[r.p 0]? with | some e => (List.range 16).map fun i => e.words.getD i 0 | none => [])
/-- AGE_POLICY. -/
def execAgePolicy (s : State) : Res :=
  s.short 0x0408 fun r c => wrote0 (bwr s.lock (AGE + AGE_POLICY_VGUARD.off) 0x3FFF (BitVec.ofNat 16 (r.p 0 % 16 + 16 * r.p 1)) (c, 0))
/-- AGE_ANSWER (14_calibration_and_ageing.md R469): for the proposal with the given action. -/
def execAgeAnswer (s : State) : Res :=
  s.short 0x0409 fun r c =>
    match quad.find? fun i => match c.age.props[i] with | some a => a.word == r.p 0 | none => false with
    | some i => (if r.p 1 = 0 then c.propApprove i else c.propVeto i, 0, [])
    | none => (c, 3, [])
/-- AGE_ENTRY_NOW: the job keeps the entry's sequence number. -/
def execAgeEntryNow (s : State) : Res := s.long 0x040A fun _ c => (c.ledgerEntry, 0, [(c.age.seq : Int)])

/-- PWR_ENTER (R385). -/
def execPwrEnter (s : State) : Res := s.short 0x0501 fun r c => (c.pwrRequest (r.p 0) (r.p 1) 1, 0, [])
/-- PWR_KEEP. -/
def execPwrKeep (s : State) : Res := s.short 0x0502 fun r c => wrote0 (bput s.lock PWR PWR_KEEP_KEEP (r.p 0) (c, 0))
/-- A level change in progress ends, and the one that waits for it. -/
def Chip.levelEnds (c : Chip) (pgood : Bool) : Chip :=
  c.each [0, 1, 2] fun c (_ : Nat) => if c.clk.levelTo.isNone then c else if pgood then c.pgoodHigh else c.pgoodTimeout
/-- PWR_LEVEL (12_clocks.md R416 to R418): whether PGOOD rises in time. -/
def execPwrLevel (pgood : Bool) (s : State) : Res :=
  s.short 0x0503 fun r c =>
    let x := runStep (bput s.lock CLK CLK_LEVEL_TARGET (r.p 0) (c, 0)) fun c => (c.levelEnds pgood, 0)
    words0 (x, [x.1.get CLK CLK_LEVEL_ACTUAL])
/-- PWR_STATUS. -/
def execPwrStatus (s : State) : Res :=
  s.short 0x0504 fun _ c =>
    let y := breads s.lock [(PWR + PWR_STAT_STATE.off, 1), (CLK + CLK_LEVEL_ACTUAL.off, 1), (PWR + PWR_KEEP_LOST_LOST.off, 1), (PWR + PWR_WAKE_CAUSE_SRC.off, 1),
      (PWR + PWR_WAKE_STEP_REG.off, 1)] (c, 0)
    let level := y.2.getD 1 0 / 2 ^ CLK_LEVEL_ACTUAL.lo % 2 ^ CLK_LEVEL_ACTUAL.w
    words0 (y.1, [y.2.getD 0 0 % 4 + 16 * level, y.2.getD 2 0, y.2.getD 3 0 % 16, y.2.getD 4 0])
/-- PWR_WATCH. -/
def execPwrWatch (s : State) : Res :=
  s.short 0x0505 fun r c =>
    wrote0 (bput s.lock PWR PWR_WATCH_PAIRS_LISTEN (r.p 2) (bput s.lock PWR PWR_WATCH_WIN_WINDOW (r.p 1) (bput s.lock PWR PWR_WATCH_PERIOD (r.p 0) (c, 0))))
/-- PWR_WAKE_SRC. -/
def execPwrWakeSrc (s : State) : Res :=
  s.short 0x0506 fun r c => wrote0 (bwr s.lock (PWR + PWR_WAKE_SRC_PIP.off) 0xFF (BitVec.ofNat 16 (r.p 0)) (c, 0))
/-- PWR_PARTNER. -/
def execPwrPartner (s : State) : Res := s.short 0x0507 fun r c => wrote0 (bput s.lock PWR PWR_PARTNER_SLEEP_EN_EN (r.p 0) (c, 0))
/-- PWR_THRESH. -/
def execPwrThresh (s : State) : Res :=
  s.short 0x0508 fun r c =>
    wrote0 (inSel PWR PWR_THR_SEL_SEL (r.p 0) (fun x => bput s.lock PWR PWR_THR_HI_HIGH (r.p 2 % 2 ^ 16) (bput s.lock PWR PWR_THR_LO_LOW (r.p 1 % 2 ^ 16) x)) (c.postFor PWR, 0))

/-- BIST_RUN (15_self_test_and_faults.md R481): what refuses the test, as BUSY, BAD_PARAM, BLOCK_OFF or REFUSED. -/
def execBistRun (s : State) : Res :=
  s.long 0x0601 fun r c =>
    let x := c.bistAsk (r.p 0) (r.p 1 % 2 == 1)
    (if x.2 = 3 then x.1.errLog .binder (BIST + BIST_CTL_TARGET.off) 1 true else x.1, [0, 7, 3, 5, 8].getD x.2 8, [])
/-- BIST_RESULT. -/
def execBistResult (s : State) : Res :=
  s.short 0x0602 fun r c =>
    let y := withSel BIST BIST_CTL_TARGET (r.p 0) (breads s.lock [(BIST + BIST_RES_RESULT.off, 1), (BIST + BIST_ADDR_VALUE.off, 2), (BIST + BIST_BIT_VALUE.off, 1)]) (c, 0)
    let v := y.2.getD 0 0
    words0 (y.1, [v % 4, y.2.getD 1 0, y.2.getD 2 0, v / 4 % 16 + 2 ^ 16 * (v / 64 % 4)])
/-- REPAIR_SAVE (14_calibration_and_ageing.md R454, 15_self_test_and_faults.md R484). -/
def execRepairSave (s : State) : Res := s.long 0x0603 fun r c => (c.mtpAdd { record := 0x30 + r.p 0, words := c.repairWords (r.p 0) }, 0, [])
/-- PRBS_RUN: the job keeps the counts at its start. -/
def execPrbsRun (s : State) : Res :=
  s.long 0x0604 fun r c =>
    let b := laneB (laneNum (r.p 0))
    let y := breads s.lock [(b + XN_PAT_BITS_COUNT.off, 3), (b + XN_PAT_ERR_COUNT.off, 3)] (c, 0)
    started (bwr s.lock (b + XN_PAT_CTL_GEN_EN.off) 0x3FF (BitVec.ofNat 16 (3 + 4 * r.p 1 + 64 * r.p 1)) y.1) (y.2.map fun v => (v : Int))
/-- ROLL_SET: the catalogue names neither EN nor PARAM (log entry 98). -/
def execRollSet (s : State) : Res :=
  s.short 0x0605 fun r c =>
    wrote0 (inSel ROLL ROLL_SEL_ENGINE (r.p 0) (fun x =>
      let x := bwr s.lock (ROLL + ROLL_CTL_OP.off) (ROLL_CTL_OP.mask ||| ROLL_CTL_MODE.mask) (BitVec.ofNat 16 (2 * r.p 1 + 32 * r.p 2)) x
      bwide s.lock (ROLL + ROLL_SEED_LO_VALUE.off) 2 (r.p 4) (bwide s.lock (ROLL + ROLL_N_LO_VALUE.off) 2 (r.p 3) x)) (c, 0))
/-- ROLL_STOP (15_self_test_and_faults.md R494). -/
def execRollStop (s : State) : Res :=
  s.short 0x0606 fun r c =>
    wrote0 (if r.p 0 = 255 then bput s.lock ROLL ROLL_CMD_STOP_ALL 1 (c, 0)
      else inSel ROLL ROLL_SEL_ENGINE (r.p 0) (bput s.lock ROLL ROLL_CTL_EN 0) (c, 0))
/-- ECHO. -/
def execEcho (s : State) : Res := s.short 0x0607 fun r c => (c, 0, r.par)
/-- LOOPBACK. -/
def execLoopback (s : State) : Res :=
  s.short 0x0608 fun r c =>
    wrote0 (if r.p 0 < 8 then bput s.lock (lpB (portNo (r.p 0))) PMA_CTL_LPBK (r.p 1) (c, 0)
      else bput s.lock (laneB (laneNum (r.p 0 - 8))) XN_CTL_LPBK (r.p 1) (c, 0))

/-- REMOTE (R386, R387). -/
def execRemote (s : State) : Res :=
  s.long 0x0701 fun r c =>
    let w := r.p 1
    (c.spToward (r.p 0 % 4) (mb2Request (w / 2 ^ 16) (w % 256) (remotePar w (r.par.drop 2))), 0, [])
/-- STACK_INFO. -/
def execStackInfo (s : State) : Res :=
  s.short 0x0702 fun _ c =>
    words0 (breads s.lock [(SPINE + SPINE_STAT_POS.off, 1), (faceB .n + SPF_STAT_STATE.off, 1), (faceB .s + SPF_STAT_STATE.off, 1),
      (faceB .n + SPF_DLY_D.off, 2), (faceB .s + SPF_DLY_D.off, 2), (SPINE + SPINE_TAIL_ALERT_ALERT.off, 1)] (c, 0))
/-- STACK_RESET (09_spine_cascade.md R331). -/
def execStackReset (s : State) : Res :=
  s.short 0x0703 fun r c =>
    wrote0 (bwr s.lock (SPINE + SPINE_CMD_STACK_RST.off) 0x1F (BitVec.ofNat 16 (1 + 2 * (r.p 0 % 4) + 8 * (r.p 1 % 4))) (c, 0))
/-- STACK_PROMOTE. -/
def execStackPromote (s : State) : Res := s.short 0x0704 fun r c => wrote0 (bput s.lock SPINE SPINE_CTL_STACK_PROMOTE (r.p 0) (c, 0))
/-- STACK_DEMOTE: refused unless the device is the acting head (09_spine_cascade.md R330). -/
def execStackDemote (s : State) : Res :=
  s.short 0x0705 fun _ c => if c.role = 2 then wrote0 (bput s.lock SPINE SPINE_CMD_DEMOTE 1 (c, 0)) else (c, 8, [])
/-- SPILL_CONFIG: the thresholds before the enable (log entry 98). -/
def execSpillConfig (s : State) : Res :=
  s.short 0x0706 fun r c =>
    let w := fun (f : Fld) (v : Nat) => bput s.lock QUIRE f v
    let x := w QUIRE_SPILL_LEND_VALUE (r.p 3) (w QUIRE_SPILL_OFF_VALUE (r.p 2) (w QUIRE_SPILL_ON_VALUE (r.p 1) (c, 0)))
    wrote0 (bwr s.lock (QUIRE + QUIRE_SPILL_CTL_EN.off) 3 (BitVec.ofNat 16 (r.p 0 % 4)) x)
/-- STACK_ALL (R383, R387): the request goes into this device's own MB2 and to every device. -/
def execStackAll (s : State) : Res :=
  s.act fun c =>
    match c.cmdNow 0x0707 with
    | none => c
    | some (m, r) =>
      let w := r.p 0
      let par := remotePar w (r.par.drop 1)
      let c := c.jobStart s.lock.bits m r [-1, -1, -1, -1]
      let c := c.each [Face.n, Face.s] fun c f => if c.faceMay f then c.spSend f 2 15 (mb2Request (w / 2 ^ 16) (w % 256) par) else c
      let c := c.modBinder fun x => { x with own := x.own ++ [{ cmd := w / 2 ^ 16, tag := w % 256, par := par, src := c.pos }] }
      (c.mbOwn.mbServe s.lock.bits).entryDue

/-- JOB_END (R376): a job's operation ends, by itself or because its time limit has passed; `ok`: it succeeded where no
register tells. -/
def execJobEnd (j : Fin 8) (limit ok : Bool) (s : State) : Res :=
  s.act fun c =>
    if c.binderOn ∧ c.jobState j = 1 then
      match c.jobResult s.lock c.binder.jobs[j].req c.binder.jobs[j].keep limit ok with
      | some a => a.1.jobDone j a.2.1 a.2.2
      | none => c
    else c
/-- BINDER_WATCHDOG (R378). -/
def execBinderWatchdog (s : State) : Res :=
  s.act fun c =>
    if c.binderOn then
      let c :=
        match c.mbRunning with
        | some m => match c.binder.mbs[m].running with | some r => c.mbDone m r 10 [] false true | none => c
        | none => c
      let c := (c.jobsEnd 10).put MBX MBX_WDOG_CNT (satU 8 (c.get MBX MBX_WDOG_CNT + 1))
      ((c.evt MBX MBX_EVT_WDOG).mbServe s.lock.bits).entryDue
    else c
/-- MB2_MSG_RX (R387, 09_spine_cascade.md R325, R330): a request is placed in MB2, a result reaches its job. -/
def execMb2MsgRx (f : Face) (b : Bytes) (s : State) : Res :=
  s.act fun c => c.spRx f 2 b fun m c => c.spDeliver f (fun m c =>
    let body := m.body
    let n := beAt body 3 1
    let words := fun (i k : Nat) => (List.range k).map fun j => beAt body (i + 4 * j) 4
    if 128 ≤ n then
      c.remoteResult m.src (beAt body 0 2) (beAt body 2 1) (beAt body 4 1) (beAt body 5 1 % 2 == 1) (words 8 (n % 64))
    else if c.fromHead m.src = false ∨ body.length ≠ 4 + 4 * (n % 64) ∨ c.binderOn = false ∨ c.on (mbB 2) MBN_CTL_DOORBELL then c.bumpFace f 9 1
    else c.mb2Put s.lock.bits (beAt body 0 2) (beAt body 2 1) (words 4 (n % 64)) m.src) m

end Sys2Proof.Machine
end

