-- ==== Sys2Proof/Machine/Dispatch.lean ====
section
/-! DEFINITION. One arm per command: the meaning it runs. -/

namespace Sys2Proof.Machine

/-- The effect of a command on everything but the queue. -/
def exec (i : Instr) (s : State) : Host.Outcome State Fault Refusal :=
  match i with
  | .lineRxFrame p b frac cws => Sys2Proof.Machine.execLineRxFrame p b frac cws s
  | .queueServe o frac r started => Sys2Proof.Machine.execQueueServe o frac r started s
  | .hostRxFrame l b frac dec => Sys2Proof.Machine.execHostRxFrame l b frac dec s
  | .hgrpModeWrite ifc mode => Sys2Proof.Machine.execHgrpModeWrite ifc mode s
  | .portEnable ifc p => Sys2Proof.Machine.execPortEnable ifc p s
  | .portDisable ifc p => Sys2Proof.Machine.execPortDisable ifc p s
  | .portSrst ifc p => Sys2Proof.Machine.execPortSrst ifc p s
  | .restart ifc p met => Sys2Proof.Machine.execRestart ifc p met s
  | .pipPreTimeout p => Sys2Proof.Machine.execPipPreTimeout p s
  | .pipCapTimeout p => Sys2Proof.Machine.execPipCapTimeout p s
  | .anTimeout p => Sys2Proof.Machine.execAnTimeout p s
  | .trainTimeout p => Sys2Proof.Machine.execTrainTimeout p s
  | .fastTrainTimeout p => Sys2Proof.Machine.execFastTrainTimeout p s
  | .linkFailHoldExpiry p => Sys2Proof.Machine.execLinkFailHoldExpiry p s
  | .backoffExpiry p => Sys2Proof.Machine.execBackoffExpiry p s
  | .calStateTimeout p => Sys2Proof.Machine.execCalStateTimeout p s
  | .clause98PagesDetected p => Sys2Proof.Machine.execClause98PagesDetected p s
  | .anComplete p ability master msFault => Sys2Proof.Machine.execAnComplete p ability master msFault s
  | .pcsLinkOk p l => Sys2Proof.Machine.execPcsLinkOk p l s
  | .trainFail p => Sys2Proof.Machine.execTrainFail p s
  | .linkUpStable p => Sys2Proof.Machine.execLinkUpStable p s
  | .pcsLinkStatusFail p => Sys2Proof.Machine.execPcsLinkStatusFail p s
  | .signalDetectLoss p => Sys2Proof.Machine.execSignalDetectLoss p s
  | .lmWindowEnd p snr corr unc => Sys2Proof.Machine.execLmWindowEnd p snr corr unc s
  | .adaptationStep p l => Sys2Proof.Machine.execAdaptationStep p l s
  | .quickRefreshEnd p => Sys2Proof.Machine.execQuickRefreshEnd p s
  | .quickRefreshRetry p => Sys2Proof.Machine.execQuickRefreshRetry p s
  | .refreshReq ifc p => Sys2Proof.Machine.execRefreshReq ifc p s
  | .dspTapDataAccess ifc p wr met => Sys2Proof.Machine.execDspTapDataAccess ifc p wr met s
  | .groupFreeze ifc p bits => Sys2Proof.Machine.execGroupFreeze ifc p bits s
  | .pfcFrameRx p f => Sys2Proof.Machine.execPfcFrameRx p f s
  | .pauseFrameRx p => Sys2Proof.Machine.execPauseFrameRx p s
  | .pfcPauseExpiry p k host => Sys2Proof.Machine.execPfcPauseExpiry p k host s
  | .pfcRefreshTimer p k host => Sys2Proof.Machine.execPfcRefreshTimer p k host s
  | .octavoPhaseEnd p ok snr gd rx => Sys2Proof.Machine.execOctavoPhaseEnd p ok snr gd rx s
  | .loadReportRx p b => Sys2Proof.Machine.execLoadReportRx p b s
  | .loadDecisionRx p b => Sys2Proof.Machine.execLoadDecisionRx p b s
  | .loadingTableRx p b => Sys2Proof.Machine.execLoadingTableRx p b s
  | .showtimeStart p => Sys2Proof.Machine.execShowtimeStart p s
  | .codewordRx p llr start => Sys2Proof.Machine.execCodewordRx p llr start s
  | .toneEqTrack p tone w => Sys2Proof.Machine.execToneEqTrack p tone w s
  | .swapEvaluation p snr => Sys2Proof.Machine.execSwapEvaluation p snr s
  | .swapReqRx p m => Sys2Proof.Machine.execSwapReqRx p m s
  | .swapAckRx p m => Sys2Proof.Machine.execSwapAckRx p m s
  | .swapNakRx p m => Sys2Proof.Machine.execSwapNakRx p m s
  | .swapChangeover p tx => Sys2Proof.Machine.execSwapChangeover p tx s
  | .invertedFlagRx p sf => Sys2Proof.Machine.execInvertedFlagRx p sf s
  | .swapRetryTimeout p => Sys2Proof.Machine.execSwapRetryTimeout p s
  | .reload ifc p => Sys2Proof.Machine.execReload ifc p s
  | .reloadReqRx p m => Sys2Proof.Machine.execReloadReqRx p m s
  | .tableRx p m => Sys2Proof.Machine.execTableRx p m s
  | .reloadAckRx p m => Sys2Proof.Machine.execReloadAckRx p m s
  | .reloadNakRx p m => Sys2Proof.Machine.execReloadNakRx p m s
  | .reloadChangeover p => Sys2Proof.Machine.execReloadChangeover p s
  | .reloadTimeout p => Sys2Proof.Machine.execReloadTimeout p s
  | .pauseCancel p => Sys2Proof.Machine.execPauseCancel p s
  | .pauseRenotice p => Sys2Proof.Machine.execPauseRenotice p s
  | .pauseStart p => Sys2Proof.Machine.execPauseStart p s
  | .pauseCalDone p => Sys2Proof.Machine.execPauseCalDone p s
  | .pauseFlagPhase p => Sys2Proof.Machine.execPauseFlagPhase p s
  | .pauseEnd p flag => Sys2Proof.Machine.execPauseEnd p flag s
  | .octSignalLoss p => Sys2Proof.Machine.execOctSignalLoss p s
  | .octFlagLoss p => Sys2Proof.Machine.execOctFlagLoss p s
  | .octLmWindowEnd p unc snr => Sys2Proof.Machine.execOctLmWindowEnd p unc snr s
  | .helloRx p rate lq body => Sys2Proof.Machine.execHelloRx p rate lq body s
  | .capRx p rate lq seq body => Sys2Proof.Machine.execCapRx p rate lq seq body s
  | .offerRx p rate lq seq body => Sys2Proof.Machine.execOfferRx p rate lq seq body s
  | .pipAckRx p rate lq body turn => Sys2Proof.Machine.execPipAckRx p rate lq body turn s
  | .wakeRx p rate lq => Sys2Proof.Machine.execWakeRx p rate lq s
  | .sleepRx p rate lq seq st delay => Sys2Proof.Machine.execSleepRx p rate lq seq st delay s
  | .pipPauseRx p rate lq seq body => Sys2Proof.Machine.execPipPauseRx p rate lq seq body s
  | .beaconRx p rate lq body frac => Sys2Proof.Machine.execBeaconRx p rate lq body frac s
  | .diagReqRx p rate lq seq body => Sys2Proof.Machine.execDiagReqRx p rate lq seq body s
  | .diagRptRx p rate lq body => Sys2Proof.Machine.execDiagRptRx p rate lq body s
  | .pipBadFrameRx p why => Sys2Proof.Machine.execPipBadFrameRx p why s
  | .pipCapture p diff => Sys2Proof.Machine.execPipCapture p diff s
  | .pipBackoffEnd p frac => Sys2Proof.Machine.execPipBackoffEnd p frac s
  | .pipAnswerTx p frac => Sys2Proof.Machine.execPipAnswerTx p frac s
  | .helloDue p => Sys2Proof.Machine.execHelloDue p s
  | .pipAnswerTimeout p typ seq => Sys2Proof.Machine.execPipAnswerTimeout p typ seq s
  | .wakeReq ifc p => Sys2Proof.Machine.execWakeReq ifc p s
  | .wakeBurstEnd p => Sys2Proof.Machine.execWakeBurstEnd p s
  | .sleepReq ifc p => Sys2Proof.Machine.execSleepReq ifc p s
  | .diagReq ifc p => Sys2Proof.Machine.execDiagReq ifc p s
  | .beaconPeriodTimer p => Sys2Proof.Machine.execBeaconPeriodTimer p s
  | .pipDiagCtlWrite ifc p v => Sys2Proof.Machine.execPipDiagCtlWrite ifc p v s
  | .pipDiagDataAccess ifc p wr => Sys2Proof.Machine.execPipDiagDataAccess ifc p wr s
  | .tdrStart ifc p => Sys2Proof.Machine.execTdrStart ifc p s
  | .tdrTryStart p => Sys2Proof.Machine.execTdrTryStart p s
  | .tdrIdleTimeout p => Sys2Proof.Machine.execTdrIdleTimeout p s
  | .tdrTryEnd p quiet noise l => Sys2Proof.Machine.execTdrTryEnd p quiet noise l s
  | .eClr ifc p => Sys2Proof.Machine.execEClr ifc p s
  | .markerTurn p frac => Sys2Proof.Machine.execMarkerTurn p frac s
  | .methodLWindowEnd p m => Sys2Proof.Machine.execMethodLWindowEnd p m s
  | .rttSignalingTx p => Sys2Proof.Machine.execRttSignalingTx p s
  | .rttSignalingRx p f => Sys2Proof.Machine.execRttSignalingRx p f s
  | .lpiEntry p => Sys2Proof.Machine.execLpiEntry p s
  | .lpiExit p => Sys2Proof.Machine.execLpiExit p s
  | .octLpiEntry p => Sys2Proof.Machine.execOctLpiEntry p s
  | .octLpiRefresh p => Sys2Proof.Machine.execOctLpiRefresh p s
  | .octLpiResume p => Sys2Proof.Machine.execOctLpiResume p s
  | .octRxQuietEntry p lpi quiet => Sys2Proof.Machine.execOctRxQuietEntry p lpi quiet s
  | .deferredRefreshStart p => Sys2Proof.Machine.execDeferredRefreshStart p s
  | .timeTick n => Sys2Proof.Machine.execTimeTick n s
  | .folioCmdSet ifc => Sys2Proof.Machine.execFolioCmdSet ifc s
  | .folioCmdAdd ifc => Sys2Proof.Machine.execFolioCmdAdd ifc s
  | .folioCmdFine ifc => Sys2Proof.Machine.execFolioCmdFine ifc s
  | .folioCmdSrst ifc => Sys2Proof.Machine.execFolioCmdSrst ifc s
  | .folioTimeRead ifc => Sys2Proof.Machine.execFolioTimeRead ifc s
  | .rateWrite ifc v => Sys2Proof.Machine.execRateWrite ifc v s
  | .syncRx ifc b frac => Sys2Proof.Machine.execSyncRx ifc b frac s
  | .followUpRx ifc b frac => Sys2Proof.Machine.execFollowUpRx ifc b frac s
  | .syncTimeout => Sys2Proof.Machine.execSyncTimeout s
  | .captureEdge ifc rising frac => Sys2Proof.Machine.execCaptureEdge ifc rising frac s
  | .captureSourceTimeout => Sys2Proof.Machine.execCaptureSourceTimeout s
  | .syncTx ifc => Sys2Proof.Machine.execSyncTx ifc s
  | .announceTx ifc => Sys2Proof.Machine.execAnnounceTx ifc s
  | .announceRx ifc b => Sys2Proof.Machine.execAnnounceRx ifc b s
  | .pdelayReqTx ifc => Sys2Proof.Machine.execPdelayReqTx ifc s
  | .pdelayMsgRx ifc b frac => Sys2Proof.Machine.execPdelayMsgRx ifc b frac s
  | .ptpOtherRx ifc b => Sys2Proof.Machine.execPtpOtherRx ifc b s
  | .eventOutputEdge o => Sys2Proof.Machine.execEventOutputEdge o s
  | .eventOutputPulseEnd o => Sys2Proof.Machine.execEventOutputPulseEnd o s
  | .outArm ifc => Sys2Proof.Machine.execOutArm ifc s
  | .outStop ifc => Sys2Proof.Machine.execOutStop ifc s
  | .capTimeRead ifc => Sys2Proof.Machine.execCapTimeRead ifc s
  | .laneEnable ifc l => Sys2Proof.Machine.execLaneEnable ifc l s
  | .laneDisable ifc l => Sys2Proof.Machine.execLaneDisable ifc l s
  | .laneSrst ifc l => Sys2Proof.Machine.execLaneSrst ifc l s
  | .laneFault l sig cdr blk fec rf => Sys2Proof.Machine.execLaneFault l sig cdr blk fec rf s
  | .laneFaultClear l v desk => Sys2Proof.Machine.execLaneFaultClear l v desk s
  | .laneLive l => Sys2Proof.Machine.execLaneLive l s
  | .replayRelease l => Sys2Proof.Machine.execReplayRelease l s
  | .reorderTimeout p => Sys2Proof.Machine.execReorderTimeout p s
  | .creditSetRx n d1 limit check kind => Sys2Proof.Machine.execCreditSetRx n d1 limit check kind s
  | .creditSetTx rotation => Sys2Proof.Machine.execCreditSetTx rotation s
  | .retimerSignalDetect l => Sys2Proof.Machine.execRetimerSignalDetect l s
  | .retimerPagesRx l page => Sys2Proof.Machine.execRetimerPagesRx l page s
  | .retimerTrainingFramesRx l => Sys2Proof.Machine.execRetimerTrainingFramesRx l s
  | .retimerNoSignal n => Sys2Proof.Machine.execRetimerNoSignal n s
  | .retimerRxTrained l remote v => Sys2Proof.Machine.execRetimerRxTrained l remote v s
  | .retimerTrainDone l => Sys2Proof.Machine.execRetimerTrainDone l s
  | .retimerTrainFail l => Sys2Proof.Machine.execRetimerTrainFail l s
  | .retimerFailTimeout l => Sys2Proof.Machine.execRetimerFailTimeout l s
  | .retimerRxRelock l => Sys2Proof.Machine.execRetimerRxRelock l s
  | .trnRestart ifc l => Sys2Proof.Machine.execTrnRestart ifc l s
  | .patCheckerLock l => Sys2Proof.Machine.execPatCheckerLock l s
  | .patCheckerUnlock l n => Sys2Proof.Machine.execPatCheckerUnlock l n s
  | .patInjOne ifc l => Sys2Proof.Machine.execPatInjOne ifc l s
  | .patPeriodicInject l => Sys2Proof.Machine.execPatPeriodicInject l s
  | .scrubCycle r at_ traffic => Sys2Proof.Machine.execScrubCycle r at_ traffic s
  | .rebuildDone => Sys2Proof.Machine.execRebuildDone s
  | .quireSrst ifc => Sys2Proof.Machine.execQuireSrst ifc s
  | .spillRecall q n => Sys2Proof.Machine.execSpillRecall q n s
  | .spineFaceEnable ifc f => Sys2Proof.Machine.execSpineFaceEnable ifc f s
  | .spineClockPresent f => Sys2Proof.Machine.execSpineClockPresent f s
  | .spineAlignDone f => Sys2Proof.Machine.execSpineAlignDone f s
  | .spineAlignTimeout f low high => Sys2Proof.Machine.execSpineAlignTimeout f low high s
  | .spineHelloTimeout f => Sys2Proof.Machine.execSpineHelloTimeout f s
  | .spineDownTimeout f => Sys2Proof.Machine.execSpineDownTimeout f s
  | .spineClockLoss f => Sys2Proof.Machine.execSpineClockLoss f s
  | .spineLaneFail f failed errs => Sys2Proof.Machine.execSpineLaneFail f failed errs s
  | .spineRetrain ifc f => Sys2Proof.Machine.execSpineRetrain ifc f s
  | .spineSrst ifc => Sys2Proof.Machine.execSpineSrst ifc s
  | .forwardMarkTx frac => Sys2Proof.Machine.execForwardMarkTx frac s
  | .forwardMarkRx b frac r => Sys2Proof.Machine.execForwardMarkRx b frac r s
  | .echoMarkTx frac => Sys2Proof.Machine.execEchoMarkTx frac s
  | .echoMarkRx b frac => Sys2Proof.Machine.execEchoMarkRx b frac s
  | .markLoss r => Sys2Proof.Machine.execMarkLoss r s
  | .spineHelloRx f b => Sys2Proof.Machine.execSpineHelloRx f b s
  | .spineAckRx f b => Sys2Proof.Machine.execSpineAckRx f b s
  | .spineMsgRetx f => Sys2Proof.Machine.execSpineMsgRetx f s
  | .mb2MsgRx f b => Sys2Proof.Machine.execMb2MsgRx f b s
  | .lendRx f b => Sys2Proof.Machine.execLendRx f b s
  | .recallRx f b => Sys2Proof.Machine.execRecallRx f b s
  | .spillFrameRx f b => Sys2Proof.Machine.execSpillFrameRx f b s
  | .stackResetRx f b => Sys2Proof.Machine.execStackResetRx f b s
  | .stackResetAct straps => Sys2Proof.Machine.execStackResetAct straps s
  | .powerRx f b => Sys2Proof.Machine.execPowerRx f b s
  | .southClockStop => Sys2Proof.Machine.execSouthClockStop s
  | .fallbackRx f b => Sys2Proof.Machine.execFallbackRx f b s
  | .alertRx f b => Sys2Proof.Machine.execAlertRx f b s
  | .promoteRx f b => Sys2Proof.Machine.execPromoteRx f b s
  | .promotionTimeout => Sys2Proof.Machine.execPromotionTimeout s
  | .demote ifc => Sys2Proof.Machine.execDemote ifc s
  | .stackRst ifc kind dest => Sys2Proof.Machine.execStackRst ifc kind dest s
  | .wakeSouth ifc => Sys2Proof.Machine.execWakeSouth ifc s
  | .spiFrame op a words n per second mid => Sys2Proof.Machine.execSpiFrame op a words n per second mid s
  | .spiObserveFrame op a words n per second mid => Sys2Proof.Machine.execSpiObserveFrame op a words n per second mid s
  | .mdioFrame op phy mmd data => Sys2Proof.Machine.execMdioFrame op phy mmd data s
  | .mdioWinDataAccess wr => Sys2Proof.Machine.execMdioWinDataAccess wr s
  | .twmWrite dev b mid => Sys2Proof.Machine.execTwmWrite dev b mid s
  | .twmRead dev a n mid => Sys2Proof.Machine.execTwmRead dev a n mid s
  | .twmWakeAddress dev read => Sys2Proof.Machine.execTwmWakeAddress dev read s
  | .registerWrite ifc a mask data met => Sys2Proof.Machine.execRegisterWrite ifc a mask data met s
  | .wideValueRead ifc a => Sys2Proof.Machine.execWideValueRead ifc a s
  | .wideValueWrite ifc a words => Sys2Proof.Machine.execWideValueWrite ifc a words s
  | .regLockWrite ifc mask data => Sys2Proof.Machine.execRegLockWrite ifc mask data s
  | .postedWriteComplete k => Sys2Proof.Machine.execPostedWriteComplete k s
  | .doorbell ifc m => Sys2Proof.Machine.execDoorbell ifc m s
  | .linkInfo => Sys2Proof.Machine.execLinkInfo s
  | .linkEnable => Sys2Proof.Machine.execLinkEnable s
  | .linkRestart => Sys2Proof.Machine.execLinkRestart s
  | .linkMode => Sys2Proof.Machine.execLinkMode s
  | .linkWaitUp => Sys2Proof.Machine.execLinkWaitUp s
  | .octConfig => Sys2Proof.Machine.execOctConfig s
  | .octReload => Sys2Proof.Machine.execOctReload s
  | .octTones => Sys2Proof.Machine.execOctTones s
  | .pipDiag => Sys2Proof.Machine.execPipDiag s
  | .pipWake => Sys2Proof.Machine.execPipWake s
  | .hostMode => Sys2Proof.Machine.execHostMode s
  | .laneInfo => Sys2Proof.Machine.execLaneInfo s
  | .timeGet => Sys2Proof.Machine.execTimeGet s
  | .timeSet => Sys2Proof.Machine.execTimeSet s
  | .timeAdd => Sys2Proof.Machine.execTimeAdd s
  | .timeSlew => Sys2Proof.Machine.execTimeSlew s
  | .timeRate => Sys2Proof.Machine.execTimeRate s
  | .timeSource => Sys2Proof.Machine.execTimeSource s
  | .timeWaitLock => Sys2Proof.Machine.execTimeWaitLock s
  | .evtArm => Sys2Proof.Machine.execEvtArm s
  | .capRead => Sys2Proof.Machine.execCapRead s
  | .portTime => Sys2Proof.Machine.execPortTime s
  | .tdrRun => Sys2Proof.Machine.execTdrRun s
  | .delayClear => Sys2Proof.Machine.execDelayClear s
  | .errlog => Sys2Proof.Machine.execErrlog s
  | .ctrSnapshot => Sys2Proof.Machine.execCtrSnapshot s
  | .sensors => Sys2Proof.Machine.execSensors s
  | .alerts => Sys2Proof.Machine.execAlerts s
  | .jobRead => Sys2Proof.Machine.execJobRead s
  | .quireHealth => Sys2Proof.Machine.execQuireHealth s
  | .identify => Sys2Proof.Machine.execIdentify s
  | .calPort => Sys2Proof.Machine.execCalPort s
  | .calLane => Sys2Proof.Machine.execCalLane s
  | .calSchedule => Sys2Proof.Machine.execCalSchedule s
  | .nvmRead => Sys2Proof.Machine.execNvmRead s
  | .nvmSaveCal => Sys2Proof.Machine.execNvmSaveCal s
  | .ageRead => Sys2Proof.Machine.execAgeRead s
  | .ageLedger => Sys2Proof.Machine.execAgeLedger s
  | .agePolicy => Sys2Proof.Machine.execAgePolicy s
  | .ageAnswer => Sys2Proof.Machine.execAgeAnswer s
  | .ageEntryNow => Sys2Proof.Machine.execAgeEntryNow s
  | .pwrEnter => Sys2Proof.Machine.execPwrEnter s
  | .pwrKeep => Sys2Proof.Machine.execPwrKeep s
  | .pwrLevel pgood => Sys2Proof.Machine.execPwrLevel pgood s
  | .pwrStatus => Sys2Proof.Machine.execPwrStatus s
  | .pwrWatch => Sys2Proof.Machine.execPwrWatch s
  | .pwrWakeSrc => Sys2Proof.Machine.execPwrWakeSrc s
  | .pwrPartner => Sys2Proof.Machine.execPwrPartner s
  | .pwrThresh => Sys2Proof.Machine.execPwrThresh s
  | .bistRun => Sys2Proof.Machine.execBistRun s
  | .bistResult => Sys2Proof.Machine.execBistResult s
  | .repairSave => Sys2Proof.Machine.execRepairSave s
  | .prbsRun => Sys2Proof.Machine.execPrbsRun s
  | .rollSet => Sys2Proof.Machine.execRollSet s
  | .rollStop => Sys2Proof.Machine.execRollStop s
  | .echo => Sys2Proof.Machine.execEcho s
  | .loopback => Sys2Proof.Machine.execLoopback s
  | .remote => Sys2Proof.Machine.execRemote s
  | .stackInfo => Sys2Proof.Machine.execStackInfo s
  | .stackReset => Sys2Proof.Machine.execStackReset s
  | .stackPromote => Sys2Proof.Machine.execStackPromote s
  | .stackDemote => Sys2Proof.Machine.execStackDemote s
  | .spillConfig => Sys2Proof.Machine.execSpillConfig s
  | .stackAll => Sys2Proof.Machine.execStackAll s
  | .jobEnd j limit ok => Sys2Proof.Machine.execJobEnd j limit ok s
  | .jobRelease ifc => Sys2Proof.Machine.execJobRelease ifc s
  | .binderWatchdog => Sys2Proof.Machine.execBinderWatchdog s
  | .sourceStable k => Sys2Proof.Machine.execSourceStable k s
  | .loopLock k => Sys2Proof.Machine.execLoopLock k s
  | .loopReady k => Sys2Proof.Machine.execLoopReady k s
  | .loopUnlock k => Sys2Proof.Machine.execLoopUnlock k s
  | .clockEnableChange => Sys2Proof.Machine.execClockEnableChange s
  | .islandPowerUp k => Sys2Proof.Machine.execIslandPowerUp k s
  | .switchForced => Sys2Proof.Machine.execSwitchForced s
  | .xaWindowEnd count => Sys2Proof.Machine.execXaWindowEnd count s
  | .xbWindowEnd count => Sys2Proof.Machine.execXbWindowEnd count s
  | .xbSleepWindowEnd count => Sys2Proof.Machine.execXbSleepWindowEnd count s
  | .refUpdate => Sys2Proof.Machine.execRefUpdate s
  | .sourceRecovered xb => Sys2Proof.Machine.execSourceRecovered xb s
  | .clkResume => Sys2Proof.Machine.execClkResume s
  | .clkEvtClr => Sys2Proof.Machine.execClkEvtClr s
  | .levelChangeStart => Sys2Proof.Machine.execLevelChangeStart s
  | .pgoodHigh => Sys2Proof.Machine.execPgoodHigh s
  | .pgoodTimeout => Sys2Proof.Machine.execPgoodTimeout s
  | .pgoodLow => Sys2Proof.Machine.execPgoodLow s
  | .pwrReq => Sys2Proof.Machine.execPwrReq s
  | .sleepDelayExpiry during => Sys2Proof.Machine.execSleepDelayExpiry during s
  | .dozeExit => Sys2Proof.Machine.execDozeExit s
  | .watchPeriod temps rails => Sys2Proof.Machine.execWatchPeriod temps rails s
  | .capWakeEdge ifc rising => Sys2Proof.Machine.execCapWakeEdge ifc rising s
  | .spineWakeClock => Sys2Proof.Machine.execSpineWakeClock s
  | .wakeStart l => Sys2Proof.Machine.execWakeStart l s
  | .wakeStepReady errs => Sys2Proof.Machine.execWakeStepReady errs s
  | .rstNAssert => Sys2Proof.Machine.execRstNAssert s
  | .rstNRelease straps => Sys2Proof.Machine.execRstNRelease straps s
  | .powerOnReset straps bad fails second stores => Sys2Proof.Machine.execPowerOnReset straps bad fails second stores s
  | .supplyFail => Sys2Proof.Machine.execSupplyFail s
  | .glbSwrst ifc => Sys2Proof.Machine.execGlbSwrst ifc s
  | .bgTargetUpdate t vals eye => Sys2Proof.Machine.execBgTargetUpdate t vals eye s
  | .bgTrimStep => Sys2Proof.Machine.execBgTrimStep s
  | .calFgStart ifc t => Sys2Proof.Machine.execCalFgStart ifc t s
  | .calFgEnd t vals => Sys2Proof.Machine.execCalFgEnd t vals s
  | .calFgSave ifc t => Sys2Proof.Machine.execCalFgSave ifc t s
  | .mtpWriteDone ok => Sys2Proof.Machine.execMtpWriteDone ok s
  | .calSchedulerDue t temp => Sys2Proof.Machine.execCalSchedulerDue t temp s
  | .ageingHourlyStep d => Sys2Proof.Machine.execAgeingHourlyStep d s
  | .hourLogWrite => Sys2Proof.Machine.execHourLogWrite s
  | .ledgerEntry => Sys2Proof.Machine.execLedgerEntry s
  | .agePropApprove ifc => Sys2Proof.Machine.execAgePropApprove ifc s
  | .agePropVeto ifc => Sys2Proof.Machine.execAgePropVeto ifc s
  | .vguardCheck before after => Sys2Proof.Machine.execVguardCheck before after s
  | .bistStart ifc target force => Sys2Proof.Machine.execBistStart ifc target force s
  | .bistDrainEnd => Sys2Proof.Machine.execBistDrainEnd s
  | .bistPassEnd count fails sig sigOk => Sys2Proof.Machine.execBistPassEnd count fails sig sigOk s
  | .bistManWrite ifc bank row => Sys2Proof.Machine.execBistManWrite ifc bank row s
  | .tapInstructionUpdate code => Sys2Proof.Machine.execTapInstructionUpdate code s
  | .tapReset => Sys2Proof.Machine.execTapReset s
  | .rollEngineEvent e ev => Sys2Proof.Machine.execRollEngineEvent e ev s
  | .rollHoldRelease e => Sys2Proof.Machine.execRollHoldRelease e s
  | .rollStopAll ifc => Sys2Proof.Machine.execRollStopAll ifc s
  | .rollSeedWrite ifc seed => Sys2Proof.Machine.execRollSeedWrite ifc seed s
  | .pmcOverflow u k n => Sys2Proof.Machine.execPmcOverflow u k n s
  | .pmcCntWrite ifc u k v n => Sys2Proof.Machine.execPmcCntWrite ifc u k v n s
  | .cycClr ifc u => Sys2Proof.Machine.execCycClr ifc u s
  | .sensorUpdate temps rails => Sys2Proof.Machine.execSensorUpdate temps rails s
  | .snsEvtClr => Sys2Proof.Machine.execSnsEvtClr s
  | .stdLpiRefresh p => Sys2Proof.Machine.execStdLpiRefresh p s
  | .rxLpiQuietChange p lpi quiet => Sys2Proof.Machine.execRxLpiQuietChange p lpi quiet s
  | .taggedIdleHoldEnd => Sys2Proof.Machine.execTaggedIdleHoldEnd s

end Sys2Proof.Machine
end

