-- ==== Sys2Proof/Machine/Balls.lean ====
section
/-! DEFINITION. The package (17_pins_and_electrical.md): where each ball lies (R510, R511), the types of the low-speed balls
(R514), and what each ball presents in each state (R515, 13_power_and_reset.md R448). -/

namespace Sys2Proof.Machine

/-- The low-speed balls, in the order of R510's second table. -/
inductive LowBall where
  | xaIn | xaOut | xbIn | xbOut | vsel0 | vsel1 | pgood
  | spiSck | spiCs0N | spiCs1N | spiSio0 | spiSio1 | spiSio2 | spiSio3
  | mdc | mdio | twmScl | twmSda | rstN | rdy | alertN
  | cap0 | cap1 | cap2 | cap3 | evt0 | evt1 | evt2
  | evt3 | tck | tms | tdi | tdo | trstN | strapXb
  | strapPos0 | strapPos1 | strapMdio0 | strapMdio1 | strapMdio2 | strapTwm0 | strapTwm1
deriving DecidableEq, Repr
/-- The low-speed balls of row AD, AE, AF, AG, AH or AJ from column 13 on (R510). -/
def lowRow (row : Nat) : List LowBall :=
  match row with
  | 23 => [.xaIn, .xaOut, .xbIn, .xbOut, .vsel0, .vsel1, .pgood]
  | 24 => [.spiSck, .spiCs0N, .spiCs1N, .spiSio0, .spiSio1, .spiSio2, .spiSio3]
  | 25 => [.mdc, .mdio, .twmScl, .twmSda, .rstN, .rdy, .alertN]
  | 26 => [.cap0, .cap1, .cap2, .cap3, .evt0, .evt1, .evt2]
  | 27 => [.evt3, .tck, .tms, .tdi, .tdo, .trstN, .strapXb]
  | 28 => [.strapPos0, .strapPos1, .strapMdio0, .strapMdio1, .strapMdio2, .strapTwm0, .strapTwm1]
  | _ => []
/-- A ball: a leg of a line pair, of a lane's transmit or receive pair, of a Spine pair (0 to 3 data, 4 clock), a low-speed ball,
or one of R511; `neg`: the N leg. -/
inductive Ball where
  | line (p : Port) (neg : Bool)
  | lane (l : Lane) (tx neg : Bool)
  | spine (f : Face) (tx : Bool) (k : Fin 5) (neg : Bool)
  | low (b : LowBall)
  | vddAfe | vddDsp | vddCore | vddSd | vddio | vcapAon | rsvd | vss
deriving DecidableEq, Repr
/-- The legs of a lane by column: Hn on the left, Tn on the right (R510). -/
def laneBall (n col : Nat) : Option Ball :=
  let h : Lane := Fin.ofNat 16 n
  let t : Lane := Fin.ofNat 16 (8 + n)
  match col with
  | 1 => some (.lane h true false)
  | 2 => some (.lane h true true)
  | 4 => some (.lane h false false)
  | 5 => some (.lane h false true)
  | 30 => some (.lane t true false)
  | 29 => some (.lane t true true)
  | 27 => some (.lane t false false)
  | 26 => some (.lane t false true)
  | _ => none
/-- The Spine pair k columns to the right of a face's first: its transmit data and clock, its receive clock and data (R510). -/
def spineBall (f : Face) (k : Nat) (neg : Bool) : Option Ball :=
  if k < 5 then some (.spine f true (Fin.ofNat 5 k) neg)
  else if k = 5 then some (.spine f false 4 neg)
  else if k < 10 then some (.spine f false (Fin.ofNat 5 (k - 6)) neg)
  else none
/-- The signal ball of a row, 1 for A to 30 for AL, and a column (R510). -/
def signalAt (row col : Nat) : Option Ball :=
  if row ≤ 2 then (if 4 ≤ col ∧ col ≤ 25 ∧ col % 3 = 1 then some (.line (Fin.ofNat 8 ((col - 4) / 3)) (row == 2)) else none)
  else if 23 ≤ row ∧ row ≤ 28 ∧ 13 ≤ col ∧ col ≤ 19 then ((lowRow row)[col - 13]?).map .low
  else if row % 3 = 0 ∧ row ≤ 24 then laneBall (row / 3 - 1) col
  else if 29 ≤ row then (if col < 3 then none else if col < 19 then spineBall .n (col - 3) (row == 30) else spineBall .s (col - 19) (row == 30))
  else none
/-- The supply or reserved ball of a row and column; every other ball is VSS (R511). -/
def supplyAt (row col : Nat) : Ball :=
  let inner := decide (7 ≤ col ∧ col ≤ 24 ∧ (row + col) % 2 = 0)
  if inner ∧ 3 ≤ row ∧ row ≤ 6 then .vddAfe
  else if inner ∧ 7 ≤ row ∧ row ≤ 12 then .vddDsp
  else if inner ∧ 13 ≤ row ∧ row ≤ 22 then .vddCore
  else if (col = 6 ∨ col = 25) ∧ 3 ≤ row ∧ row ≤ 22 ∨ row = 28 ∧ (3 ≤ col ∧ col ≤ 12 ∨ 20 ≤ col ∧ col ≤ 29) then .vddSd
  else if row = 29 ∧ 13 ≤ col ∧ col ≤ 18 then .vddio
  else if row = 30 ∧ (col = 13 ∨ col = 14) then .vcapAon
  else if row = 30 ∧ 15 ≤ col ∧ col ≤ 18 then .rsvd
  else .vss
/-- The ball at a row and column, both from 1 (R510, R511). -/
def ballAt (row col : Nat) : Ball := (signalAt row col).getD (supplyAt row col)

/-- The types of the low-speed balls (R514); the crystal balls have none of them. -/
inductive LowType where
  | input | pushPull | threeState | openDrain | failSafeInput | crystal
deriving DecidableEq, Repr
/-- The type of a low-speed ball (R514). -/
def LowBall.type : LowBall → LowType
  | .xaIn | .xaOut | .xbIn | .xbOut => .crystal
  | .rdy | .evt0 | .evt1 | .evt2 | .evt3 | .vsel0 | .vsel1 | .tdo => .pushPull
  | .spiSio0 | .spiSio1 | .spiSio2 | .spiSio3 | .mdio => .threeState
  | .alertN | .twmScl | .twmSda => .openDrain
  | .pgood => .failSafeInput
  | _ => .input
/-- What a ball presents (R515): `boundary`, what the boundary register drives (15_self_test_and_faults.md R489); `quiet`, 100 Ω
with no drive; `listens` and `windows`, that with the Pip receiver, always or in the windows of Watch; `idle`, electrical idle; `supply`, no signal. -/
inductive BallState where
  | supply | unpowered | boundary | highZ | released | receives | quiet | listens | windows | sends | idle | stopped | oscillates | low | high
deriving DecidableEq, Repr
/-- A driven level. -/
def BallState.level (b : Bool) : BallState := if b then .high else .low
/-- The part is powered off, or its balls are the boundary register's. -/
def Chip.ballsTaken (c : Chip) : Option BallState :=
  if c.pwr.mode = 4 then some .unpowered else if c.on TAP TAP_STAT_CORE_OFF then some .boundary else none
/-- A line pair (R515): its transmitters run in Run only, its Pip receiver on the listening pairs in Doze and in Watch's windows. -/
def Chip.lineBall (c : Chip) (p : Port) : BallState :=
  let on := c.bit PWR PWR_WATCH_PAIRS_LISTEN p.val
  if c.pwr.rstLow then .quiet
  else match c.pwr.mode with
    | 0 => if c.on (lpB p) PMA_STAT_TX_ON || c.pipSends p || c.tdrBusy p then .sends else .quiet
    | 1 => if on then .listens else .quiet
    | 3 => if on then .windows else .quiet
    | _ => .quiet
/-- A lane's transmitter (R515). -/
def Chip.laneBallTx (c : Chip) (l : Lane) : BallState :=
  if c.pwr.rstLow ∨ c.pwr.mode ≠ 0 ∨ c.laneIdle l then .idle else .sends
/-- A Spine transmitter (R515, 09_spine_cascade.md R313). -/
def Chip.spineBallTx (c : Chip) (f : Face) : BallState := if (c.face f).clkTx ∧ c.pwr.rstLow = false then .sends else .stopped
/-- A low-speed ball between two transactions (R515). -/
def Chip.lowBall (c : Chip) (b : LowBall) : BallState :=
  let evt := fun (o : Fin 4) => if c.pwr.rstLow then BallState.low else .level (c.evtLevel o)
  match b with
  | .rdy => .level (c.pwr.rdy && decide (c.pwr.mode ≤ 1))
  | .alertN => if c.alertLow then .low else .released
  | .vsel0 => .level (c.clk.vsel.testBit 0)
  | .vsel1 => .level (c.clk.vsel.testBit 1)
  | .spiSio0 | .spiSio1 | .spiSio2 | .spiSio3 | .mdio | .tdo => .highZ
  | .twmSda | .twmScl => .released
  | .evt0 => evt 0
  | .evt1 => evt 1
  | .evt2 => evt 2
  | .evt3 => evt 3
  | .xaOut => if c.clk.stable.testBit 0 then .oscillates else .stopped
  | .xbOut => if (c.reg (GLB + GLB_STRAP_XB.off)).getLsbD 7 then .highZ else .oscillates
  | _ => .receives
/-- The ball carries no signal (R511). -/
def supplyBall (b : Ball) : Bool :=
  match b with
  | .line .. | .lane .. | .spine .. | .low _ => false
  | _ => true
/-- What a ball presents (R515); the fail-safe open drains are at high impedance when Off. -/
def Chip.ball (c : Chip) (b : Ball) : BallState :=
  if supplyBall b then .supply
  else match c.ballsTaken with
  | some .unpowered => if b = .low .alertN ∨ b = .low .twmSda ∨ b = .low .twmScl then .highZ else .unpowered
  | some x => x
  | none =>
    match b with
    | .line p _ => c.lineBall p
    | .lane l true _ => c.laneBallTx l
    | .lane _ false _ => .quiet
    | .spine f true _ _ => c.spineBallTx f
    | .spine _ false _ _ => .receives
    | .low x => c.lowBall x
    | _ => .supply

end Sys2Proof.Machine
end

