-- ==== Sys2Proof/Safety.lean ====
section
/-! DEFINITION. What a safe step is, and the terms in which claims speak of commands: when a register access is admitted, what
state a command leaves, and the invariants. -/

namespace Sys2Proof.Machine

/-- The step answers a next state: the part neither stops nor refuses. -/
def State.Goes (s : State) : Prop := ∃ t, step s = .next t

/-- The same machine with its part in another state. -/
abbrev State.on (s : State) (c : Chip) : State := { s with chip := c }

/-- A masked write is admitted: the interface is served and not SPI_CS1_N, the block is clocked and powered, and no bit of the
mask is locked (10_register_fabric.md R343, R353, R358, R361; 11_binder_mailboxes.md R367). -/
abbrev State.admits (s : State) (i : Ifc) (a : Nat) (m : BitVec 16) : Prop :=
  s.chip.serves i = true ∧ i ≠ .spi1 ∧ s.chip.gate a = 0 ∧ m &&& lockedBits s.lock.bits a = 0 ∧ m &&& s.chip.mbLocked i a = 0
/-- A read is admitted. -/
abbrev State.admitsRead (s : State) (i : Ifc) (a : Nat) : Prop := s.chip.serves i = true ∧ i ≠ .spi1 ∧ s.chip.gate a = 0
/-- The part as a write finds it: the Binder's accesses count (16_counters.md R507). -/
def Chip.countWr (c : Chip) (i : Ifc) : Chip := if i = .binder then c.pmcEvt 0 8 1 else c
/-- The part as a read finds it. -/
def Chip.countRd (c : Chip) (i : Ifc) : Chip := if i = .binder then c.pmcEvt 0 7 1 else c
/-- The part once the bits of a masked write are in the register (R354). -/
abbrev State.took (s : State) (i : Ifc) (a : Nat) (m d : BitVec 16) : Chip := (s.chip.countWr i).merge a m d
/-- The same when a write of 1 to one bit does it. -/
abbrev State.set1 (s : State) (i : Ifc) (b : Nat) (f : Fld) : Chip := s.took i (b + f.off) f.mask f.mask
/-- A write of 1 to a bit is admitted. -/
abbrev State.admits1 (s : State) (i : Ifc) (b : Nat) (f : Fld) : Prop := s.admits i (b + f.off) f.mask
/-- The state after a write whose effect leaves the part at c: the interface has its status byte (R341). -/
abbrev State.wrote (s : State) (i : Ifc) (a : Nat) (c : Chip) : State :=
  s.on (c.modIfc i fun y => { y with resp := be 1 (c.statusByte a 0) })
/-- The state after a read of the value v that leaves the part at c (R341). -/
abbrev State.gave (s : State) (i : Ifc) (a : Nat) (c : Chip) (v : BitVec 16) : State :=
  s.on (c.modIfc i fun y => { y with resp := be 1 (c.statusByte a 0) ++ be 2 v.toNat })

/-- A message of the Spine is new: whole and good, on a face that is up or exchanges HELLO, not the last one acted on
(09_spine_cascade.md R323, R324). -/
abbrev Chip.spNew (c : Chip) (f : Face) (b : Bytes) : Prop :=
  c.spHears f = true ∧ spOk b = true ∧ (c.face f).lastRx ≠ some (spParse b).seq
/-- The part once such a message has been acknowledged and counted. -/
def Chip.spTaken (c : Chip) (f : Face) (b : Bytes) : Chip :=
  ((c.spAck f (spParse b).seq).modFace f fun x => { x with lastRx := some (spParse b).seq }).bumpFace f 4 1

/-- The state once a short command has completed with a code and result words, and the next command has its turn
(11_binder_mailboxes.md R370, R385). -/
abbrev State.done (s : State) (m : Fin 4) (r : MbReq) (code : Nat) (x : Chip × List Nat) : State :=
  s.on (x.1.cmdDone s.lock.bits m r code x.2).entryDue
/-- The state once a long command has become a job (11_binder_mailboxes.md R374). -/
abbrev State.jobbed (s : State) (m : Fin 4) (r : MbReq) (keep : List Int) (c : Chip) : State :=
  s.on (c.jobStart s.lock.bits m r keep).entryDue

/-- REG_LOCK is sound: only written fields lock, and there are seven (00_scope.md R14, 10_register_fabric.md R361). -/
def LockSt.sound (l : LockSt) : Prop := l.bits &&& ~~~l.written = 0 ∧ l.written &&& ~~~0x7F#16 = 0

/-- The commands that can reach REG_LOCK: a write at an address of their own choice, or the loss of supply. -/
def mayLock (i : Instr) : Bool :=
  match i with
  | .registerWrite .. | .wideValueWrite .. | .regLockWrite .. | .spiFrame .. | .spiObserveFrame .. | .mdioFrame .. | .mdioWinDataAccess ..
  | .twmWrite .. | .twmRead ..
  | .powerOnReset .. | .supplyFail => true
  | _ => false

end Sys2Proof.Machine
end

