-- ==== Sys2Proof/Certificates/Slice0/Obligations.lean ====
section
/-! DEFINITION. The statements for the provers. -/

open Sys2Proof Sys2Proof.Machine

/-- Each control bit of a line port, written through an admitted access, has its own effect (R49, R54, R55, R57, R62 to R65,
R71, R79), and HGRP_MODE takes the mode at once while every lane is off (R26).
Readings and choices of the model in it: log entries 35, 38, 43 and 117. -/
def Obligations.PortControlWritesComplete : Prop :=
  ∀ (s : State) (i : Ifc) (p : Port),
    (s.admits1 i (lpB p) PMA_CTL_ENABLE → s.chip.on (lpB p) PMA_CTL_ENABLE = false →
      exec (.portEnable i p) s = .next (s.wrote i (lpB p + PMA_CTL_ENABLE.off) ((s.set1 i (lpB p) PMA_CTL_ENABLE).portStart p))) ∧
    (s.admits1 i (lpB p) PMA_CTL_ENABLE → s.chip.on (lpB p) PMA_CTL_ENABLE = true → s.chip.lState p ≠ 0 →
      exec (.portDisable i p) s =
        .next (s.wrote i (lpB p + PMA_CTL_ENABLE.off) ((s.took i (lpB p + PMA_CTL_ENABLE.off) PMA_CTL_ENABLE.mask 0).toLink p 0))) ∧
    (s.admits1 i (lpB p) PMA_CTL_SRST →
      exec (.portSrst i p) s =
        .next (s.wrote i (lpB p + PMA_CTL_SRST.off) (((s.set1 i (lpB p) PMA_CTL_SRST).put (lpB p) PMA_CTL_SRST 0).portReset p))) ∧
    (let c := (s.set1 i (lpB p) LINK_CTL_RESTART).put (lpB p) LINK_CTL_RESTART 0
     s.admits1 i (lpB p) LINK_CTL_RESTART → c.lState p ≠ 0 → c.lState p ≠ 8 →
      exec (.restart i p false) s = .next (s.wrote i (lpB p + LINK_CTL_RESTART.off) (c.linkFail p 6 (if c.lState p = 6 then some 0 else none)))) ∧
    (s.admits1 i (lpB p) LINK_CTL_RESTART → s.chip.lState p = 8 → 1 ≤ s.chip.get (lpB p) LINK_STAT_FAIL_CAUSE →
      s.chip.get (lpB p) LINK_STAT_FAIL_CAUSE ≤ 5 →
      ∃ c : Chip, exec (.restart i p true) s = .next (s.on (c.put (lpB p) LINK_STAT_FAIL_CAUSE (s.chip.get (lpB p) LINK_STAT_FAIL_CAUSE)))) ∧
    (let c := (s.set1 i (lpB p) DSP_CTL_REFRESH_REQ).put (lpB p) DSP_CTL_REFRESH_REQ 0
     s.admits1 i (lpB p) DSP_CTL_REFRESH_REQ → c.adapting p = true →
      exec (.refreshReq i p) s = .next (s.wrote i (lpB p + DSP_CTL_REFRESH_REQ.off) (c.startRefresh p))) ∧
    (∀ bits : BitVec 5, s.admits i (lpB p + DSP_CTL_FREEZE_AGC.off) 0x1F →
      exec (.groupFreeze i p bits) s = .next (s.wrote i (lpB p + DSP_CTL_FREEZE_AGC.off)
        ((s.took i (lpB p + DSP_CTL_FREEZE_AGC.off) 0x1F (bits.setWidth 16)).freezeWritten p ((s.chip.countWr i).reg (lpB p + DSP_CTL_FREEZE_AGC.off))))) ∧
    (∀ (w : BitVec 16) (met : Bool), s.admits i (lpB p + DSP_TAP_DATA_VALUE.off) 0xFFFF →
      (met = true → s.chip.tapFrozen p (s.chip.tapSel p).1 = true) →
      exec (.dspTapDataAccess i p (some w) met) s = .next (s.wrote i (lpB p + DSP_TAP_DATA_VALUE.off)
        (((s.took i (lpB p + DSP_TAP_DATA_VALUE.off) 0xFFFF w).setReg (lpB p + DSP_TAP_DATA_VALUE.off)
          ((s.chip.countWr i).reg (lpB p + DSP_TAP_DATA_VALUE.off))).tapWrite p w.toNat))) ∧
    (∀ w : BitVec 16, s.chip.tapFrozen p (s.chip.tapSel p).1 = false →
      ∃ t, exec (.dspTapDataAccess i p (some w) true) s = .next t ∧ (t.chip.port p).link.taps = (s.chip.port p).link.taps ∧
        (t.chip.port p).link.centres = (s.chip.port p).link.centres) ∧
    (∀ met : Bool, s.admitsRead i (lpB p) →
      exec (.dspTapDataAccess i p none met) s = .next (s.gave i (lpB p + DSP_TAP_DATA_VALUE.off) ((s.chip.countRd i).tapNext p)
        ((s.chip.countRd i).view s.lock (lpB p + DSP_TAP_DATA_VALUE.off)))) ∧
    (∀ mode : BitVec 3, (let c := s.took i (HGRP + HGRP_MODE_MODE.off) HGRP_MODE_MODE.mask (splice 0 0 3 mode.toNat)
      s.admits i (HGRP + HGRP_MODE_MODE.off) HGRP_MODE_MODE.mask → c.get HGRP HGRP_MODE_MODE ≠ c.hostMode → c.lanesOff = true →
      exec (.hgrpModeWrite i mode) s = .next (s.wrote i (HGRP + HGRP_MODE_MODE.off) (c.hostModeApply (c.get HGRP HGRP_MODE_MODE)))))

/-- Each request bit of a port's Octavo, Pip and cable blocks, written through an admitted access, begins what it asks for
(R116, R140, R142, R145, R150, R151, R154, R158 to R160, R179).
Readings and choices of the model in it: log entries 40, 49, 50 and 51. -/
def Obligations.PortRequestWritesComplete : Prop :=
  ∀ (s : State) (i : Ifc) (p : Port),
    (let c := (s.set1 i (lpB p) OCT_CTL_RELOAD).put (lpB p) OCT_CTL_RELOAD 0
     s.admits1 i (lpB p) OCT_CTL_RELOAD → c.showtime p = true → c.reloadHeld p = 0 → (c.port p).oct.master = true →
      exec (.reload i p) s = .next (s.wrote i (lpB p + OCT_CTL_RELOAD.off) ((c.omcNext p).reloadStart p (c.port p).oct.omcSeq))) ∧
    (let c := s.set1 i (lpB p) PIP_CTL_WAKE_REQ
     s.admits1 i (lpB p) PIP_CTL_WAKE_REQ → c.lState p ≠ 0 → c.on (lpB p) PIP_CTL_EN = true →
      exec (.wakeReq i p) s = .next (s.wrote i (lpB p + PIP_CTL_WAKE_REQ.off)
        (if (c.port p).pip.burst then c.startBurst p
         else (((c.pipDrop p fun m => m.typ == 5).put (lpB p) PIP_CTL_WAKE_REQ 1).pipPost p 5 []).wakeNow p))) ∧
    (s.admits1 i (lpB p) PIP_CTL_WAKE_REQ → s.chip.pipRuns p = true → s.chip.tdrBusy p = false →
      (s.chip.port p).pip.sending = none → (s.chip.port p).pip.waiting = [] →
      ∃ t, exec (.wakeReq i p) s = .next t ∧ (t.chip.port p).pip.burst = true ∧ (t.chip.port p).pip.burstSeq = (s.chip.port p).pip.seq) ∧
    (let c := s.set1 i (lpB p) PIP_CTL_SLEEP_REQ
     s.admits1 i (lpB p) PIP_CTL_SLEEP_REQ → c.lState p ≠ 0 → c.on (lpB p) PIP_CTL_EN = true →
      exec (.sleepReq i p) s = .next (s.wrote i (lpB p + PIP_CTL_SLEEP_REQ.off)
        (((c.pipDrop p fun m => m.typ == 6).put (lpB p) PIP_CTL_SLEEP_REQ 1).pipPost p 6
          (be 1 (c.get (lpB p) PIP_SLEEP_STATE) ++ be 2 (c.get (lpB p) PIP_SLEEP_DELAY))))) ∧
    (let c := s.set1 i (lpB p) PIP_CTL_DIAG_REQ
     s.admits1 i (lpB p) PIP_CTL_DIAG_REQ → c.lState p ≠ 0 → c.on (lpB p) PIP_CTL_EN = true →
      exec (.diagReq i p) s = .next (s.wrote i (lpB p + PIP_CTL_DIAG_REQ.off)
        ((((c.modPip p fun x => { x with rpt := [] }).pipDrop p fun m => m.typ == 9).put (lpB p) PIP_CTL_DIAG_REQ 1).pipPost p 9
          (be 1 (c.get (lpB p) PIP_DIAG_CTL_CODE) ++ (c.port p).pip.diagTx.take (c.get (lpB p) PIP_DIAG_CTL_LEN))))) ∧
    (∀ v : BitVec 16, s.admits i (lpB p + PIP_DIAG_CTL_CODE.off) 0xFFFF →
      exec (.pipDiagCtlWrite i p v) s = .next (s.wrote i (lpB p + PIP_DIAG_CTL_CODE.off)
        ((s.took i (lpB p + PIP_DIAG_CTL_CODE.off) 0xFFFF v).modPip p fun x => { x with diagPtr := 0 }))) ∧
    (∀ w : BitVec 16, let a := lpB p + PIP_DIAG_DATA_DATA.off
      s.admits i a 0xFFFF →
      exec (.pipDiagDataAccess i p (some w)) s =
        .next (s.wrote i a (((s.took i a 0xFFFF w).setReg a ((s.chip.countWr i).reg a)).pipDiagWrite p w.toNat))) ∧
    (s.admitsRead i (lpB p) →
      exec (.pipDiagDataAccess i p none) s = .next (s.gave i (lpB p + PIP_DIAG_DATA_DATA.off)
        ((s.chip.countRd i).modPip p fun x => { x with diagPtr := (x.diagPtr + 2) % 64 })
        ((s.chip.countRd i).view s.lock (lpB p + PIP_DIAG_DATA_DATA.off)))) ∧
    (let c := s.set1 i (lpB p) DIAG_CTL_TDR_START
     s.admits1 i (lpB p) DIAG_CTL_TDR_START → c.lState p = 8 ∨ c.lState p = 9 ∨ c.lState p = 10 → (c.port p).pip.burst = false →
      exec (.tdrStart i p) s = .next (s.wrote i (lpB p + DIAG_CTL_TDR_START.off)
        (((c.put (lpB p) DIAG_CTL_TDR_START 1).put (lpB p) DIAG_STAT_BUSY 1).modDiag p fun x => { x with tries := 0, shooting := false }))) ∧
    (s.admits1 i (lpB p) DIAG_CTL_E_CLR →
      exec (.eClr i p) s = .next (s.wrote i (lpB p + DIAG_CTL_E_CLR.off)
        (((s.set1 i (lpB p) DIAG_CTL_E_CLR).put (lpB p) DIAG_CTL_E_CLR 0).loseE p)))

/-- The commands of Folio, written or read through an admitted access, act (R194, R195, R198, R221, R223, R225, R228).
Readings and choices of the model in it: log entries 18 and 104. -/
def Obligations.FolioAccessesComplete : Prop :=
  ∀ (s : State) (i : Ifc),
    (let c := (s.set1 i FOLIO FOLIO_CMD_SET).setReg 0xB001 0
     let w := c.wide (FOLIO + FOLIO_SET_VALUE.off) 6
     s.admits1 i FOLIO FOLIO_CMD_SET → w / 2 ^ 16 % 2 ^ 32 < 1000000000 →
      exec (.folioCmdSet i) s = .next (s.wrote i (FOLIO + FOLIO_CMD_SET.off) ((c.moveTime (ofTimeWord w)).timeSet))) ∧
    (let c := (s.set1 i FOLIO FOLIO_CMD_ADD).setReg 0xB001 0
     s.admits1 i FOLIO FOLIO_CMD_ADD →
      exec (.folioCmdAdd i) s = .next (s.wrote i (FOLIO + FOLIO_CMD_ADD.off)
        ((c.moveTime ((c.now : Int) + signed 64 (c.wide (FOLIO + FOLIO_ADD_VALUE.off) 4))).timeSet))) ∧
    (let c := (s.set1 i FOLIO FOLIO_CMD_FINE).setReg 0xB001 0
     s.admits1 i FOLIO FOLIO_CMD_FINE → c.on FOLIO FOLIO_STAT_COARSE = true →
      exec (.folioCmdFine i) s = .next (s.wrote i (FOLIO + FOLIO_CMD_FINE.off)
        (((((c.put FOLIO FOLIO_STAT_COARSE 0).putWide (FOLIO + FOLIO_FINE_TIME.off) 6
          (timeWord (c.put FOLIO FOLIO_STAT_COARSE 0).now)).evt FOLIO FOLIO_EVT_FINE).modFolio fun x => { x with fined := true })))) ∧
    (s.admits1 i FOLIO FOLIO_CMD_SRST →
      exec (.folioCmdSrst i) s = .next (s.wrote i (FOLIO + FOLIO_CMD_SRST.off) (((s.set1 i FOLIO FOLIO_CMD_SRST).setReg 0xB001 0).folioSrst))) ∧
    (let a := FOLIO + FOLIO_TIME_TIME.off
     let c := s.chip.countRd i
     let ws := (List.range 6).map fun k => (c.view s.lock (a + k)).toNat
     s.admitsRead i FOLIO →
      exec (.folioTimeRead i) s = .next (s.gave i a (c.modIfc i fun y => { y with latch := { base := a, words := ws } }) (c.view s.lock a))) ∧
    (∀ v : BitVec 48, s.admitsRead i FOLIO → s.chip.frozen = true ∨ s.chip.folio.rateAt ≠ some s.chip.tpll →
      ∃ c, exec (.rateWrite i v) s = .next (s.on c) ∧ c.wide (FOLIO + FOLIO_RATE_RATE.off) 3 = unsigned 48 (max (-rateMax) (min rateMax (signed 48 v.toNat)))) ∧
    (let sel : Fin 4 := Fin.ofNat 4 (s.chip.get FOLIO FOLIO_OUT_CTL_SEL)
     s.admits1 i FOLIO FOLIO_OUT_CTL_ARM →
      exec (.outArm i) s = .next (s.wrote i (FOLIO + FOLIO_OUT_CTL_ARM.off)
        (((((s.set1 i FOLIO FOLIO_OUT_CTL_ARM).put (bk sel.val FOLIO) FOLIO_OUT_CTL_ARM 0).put (bk sel.val FOLIO) FOLIO_OUT_CTL_STOP 0).outArm sel)))) ∧
    (let sel : Fin 4 := Fin.ofNat 4 (s.chip.get FOLIO FOLIO_OUT_CTL_SEL)
     s.admits1 i FOLIO FOLIO_OUT_CTL_STOP →
      exec (.outStop i) s = .next (s.wrote i (FOLIO + FOLIO_OUT_CTL_STOP.off)
        ((((s.set1 i FOLIO FOLIO_OUT_CTL_STOP).put (bk sel.val FOLIO) FOLIO_OUT_CTL_ARM 0).put (bk sel.val FOLIO) FOLIO_OUT_CTL_STOP 0).modEvo sel
          fun x => { x with armed := false }))) ∧
    (let a := FOLIO + FOLIO_CAP_TIME_TIME.off
     let c := s.chip.countRd i
     let k : Fin 4 := Fin.ofNat 4 (s.chip.get FOLIO FOLIO_CAP_STAT_SEL)
     let ws := (List.range 6).map fun j => (c.view s.lock (a + j)).toNat
     s.admitsRead i FOLIO →
      exec (.capTimeRead i) s =
        .next (s.gave i a ((c.modIfc i fun y => { y with latch := { base := a, words := ws } }).capTake k).1 (c.view s.lock a)))

/-- Each control bit of a lane, of Quire, of the Spine and of its command register, written through an admitted access, has its
own effect (R230, R236, R263, R264, R297, R313, R330 to R332, R334).
Readings and choices of the model in it: log entries 54, 57 and 68. -/
def Obligations.LaneQuireSpineWritesComplete : Prop :=
  ∀ (s : State) (i : Ifc) (l : Lane),
    (let a := laneB l + XN_CTL_ENABLE.off
     let c := s.took i a XN_CTL_ENABLE.mask 1
     s.admits i a XN_CTL_ENABLE.mask → s.chip.laneOn l = false →
      exec (.laneEnable i l) s = .next (s.wrote i a (((c.laneStart l).laneEval l).rateCheck l))) ∧
    (let a := laneB l + XN_CTL_ENABLE.off
     let c := s.took i a XN_CTL_ENABLE.mask 0
     s.admits i a XN_CTL_ENABLE.mask → s.chip.laneOn l = true →
      exec (.laneDisable i l) s = .next (s.wrote i a ((((c.laneStop l).pendingMode).laneEval l).rateCheck l))) ∧
    (s.admits1 i (laneB l) XN_CTL_SRST →
      exec (.laneSrst i l) s = .next (s.wrote i (laneB l + XN_CTL_SRST.off)
        ((((s.set1 i (laneB l) XN_CTL_SRST).put (laneB l) XN_CTL_SRST 0).laneClear l).laneGo l))) ∧
    (let c := (s.set1 i (laneB l) XN_TRN_CTL_RESTART).put (laneB l) XN_TRN_CTL_RESTART 0
     s.admits1 i (laneB l) XN_TRN_CTL_RESTART → c.laneRetimed l = true → c.pairReady l = true →
      exec (.trnRestart i l) s = .next (s.wrote i (laneB l + XN_TRN_CTL_RESTART.off) (c.pairTo l 5))) ∧
    (let c := (s.set1 i (laneB l) XN_PAT_INJ_ONE).put (laneB l) XN_PAT_INJ_ONE 0
     s.admits1 i (laneB l) XN_PAT_INJ_ONE → c.on (laneB l) XN_PAT_CTL_GEN_EN = true → c.get (laneB l) XN_CTL_LPBK = 0 →
      exec (.patInjOne i l) s = .next (s.wrote i (laneB l + XN_PAT_INJ_ONE.off)
        (c.modLane l fun x => { x with injected := x.injected + 1 }))) ∧
    (s.admits1 i QUIRE QUIRE_CTL_SRST →
      exec (.quireSrst i) s = .next (s.wrote i (QUIRE + QUIRE_CTL_SRST.off)
        (((((s.set1 i QUIRE QUIRE_CTL_SRST).put QUIRE QUIRE_CTL_SRST 0).quireClear).taggedIdle).poolChanged))) ∧
    (∀ f : Face, let b := match f with | .n => SPINE_CTL_NORTH_EN | .s => SPINE_CTL_SOUTH_EN
      s.admits1 i SPINE b → s.chip.on SPINE b = false →
      exec (.spineFaceEnable i f) s = .next (s.wrote i (SPINE + b.off) (((s.set1 i SPINE b).faceEnabled .n).faceEnabled .s))) ∧
    (∀ f : Face, let c := (s.set1 i (faceB f) SPF_CTL_RETRAIN).put (faceB f) SPF_CTL_RETRAIN 0
      s.admits1 i (faceB f) SPF_CTL_RETRAIN → 2 ≤ c.fSt f → c.fSt f ≤ 4 →
      exec (.spineRetrain i f) s = .next (s.wrote i (faceB f + SPF_CTL_RETRAIN.off) (c.toFace f 2))) ∧
    (s.admits1 i SPINE SPINE_CTL_SRST →
      exec (.spineSrst i) s = .next (s.wrote i (SPINE + SPINE_CTL_SRST.off)
        (((s.set1 i SPINE SPINE_CTL_SRST).put SPINE SPINE_CTL_SRST 0).spineReset))) ∧
    (let c := (s.set1 i SPINE SPINE_CMD_DEMOTE).put SPINE SPINE_CMD_DEMOTE 0
     s.admits1 i SPINE SPINE_CMD_DEMOTE → c.role = 2 →
      exec (.demote i) s = .next (s.wrote i (SPINE + SPINE_CMD_DEMOTE.off)
        (((((c.put SPINE SPINE_STAT_ROLE 1).countShow).modSpine fun x => { x with acting := 0 }).spPromote .s 0).spPromote .n 0))) ∧
    (∀ kind dest : BitVec 2, let a := SPINE + SPINE_CMD_STACK_RST.off
      let c := (s.took i a 0x1F (BitVec.ofNat 16 (1 + 2 * kind.toNat + 8 * dest.toNat))).put SPINE SPINE_CMD_STACK_RST 0
      s.admits i a 0x1F → kind = 1 ∨ kind = 2 → c.role = 0 ∨ c.role = 2 → c.pos < dest.toNat →
      exec (.stackRst i kind dest) s = .next (s.wrote i a
        ((if kind = 2 then c.resetAnnounced dest.toNat else c).spSend .s 5 dest.toNat (be 1 kind.toNat)))) ∧
    (∀ kind : BitVec 2, let a := SPINE + SPINE_CMD_STACK_RST.off
      let c := (s.took i a 0x1F (BitVec.ofNat 16 (1 + 2 * kind.toNat))).put SPINE SPINE_CMD_STACK_RST 0
      s.admits i a 0x1F → kind = 1 ∨ kind = 2 → c.role = 0 ∨ c.role = 2 →
      exec (.stackRst i kind 0) s = .next (s.wrote i a ((if kind = 2 then c.resetAnnounced 15 else c).spSend .s 5 15 (be 1 kind.toNat)))) ∧
    (let c := (s.set1 i SPINE SPINE_CMD_WAKE_SOUTH).put SPINE SPINE_CMD_WAKE_SOUTH 0
     s.admits1 i SPINE SPINE_CMD_WAKE_SOUTH →
      exec (.wakeSouth i) s = .next (s.wrote i (SPINE + SPINE_CMD_WAKE_SOUTH.off) (c.modFace .s fun x => { x with stopped := false, clkTx := c.fSt .s != 0 })))

/-- The command bits of mailboxes, jobs, resets, calibration, ageing, self test, Roll and the privileged counters, written
through an admitted access, act (R368, R376, R445, R454, R457, R469, R481, R485, R492, R494, R506).
Readings and choices of the model in it: log entries 82, 84, 94, 95 and 97. -/
def Obligations.ServiceWritesComplete : Prop :=
  ∀ (s : State) (i : Ifc),
    (∀ m : Fin 4, s.admits1 i (mbB m) MBN_CTL_DOORBELL → s.chip.on (mbB m) MBN_CTL_DOORBELL = false →
      exec (.doorbell i m) s = .next (s.wrote i (mbB m + MBN_CTL_DOORBELL.off) ((s.set1 i (mbB m) MBN_CTL_DOORBELL).mbRing s.lock.bits m))) ∧
    (∀ j : Fin 8, let c := (s.set1 i MBX MBX_JOB_CTL_RELEASE).put (jobB j) MBX_JOB_CTL_RELEASE 0
      s.admits1 i MBX MBX_JOB_CTL_RELEASE → s.chip.get MBX MBX_JOB_SEL_SLOT = j.val → c.jobState j = 2 →
      exec (.jobRelease i) s = .next (s.wrote i (MBX + MBX_JOB_CTL_RELEASE.off) ((c.put (jobB j) MBX_JOB_STAT_STATE 0).modJob j fun _ => {}))) ∧
    (s.admits1 i GLB GLB_SWRST_SWRST →
      exec (.glbSwrst i) s = .next (s.wrote i (GLB + GLB_SWRST_SWRST.off)
        ((((s.set1 i GLB GLB_SWRST_SWRST).put GLB GLB_SWRST_SWRST 0).put GLB GLB_RST_CAUSE_GLB 1).glbReset))) ∧
    (∀ t : BitVec 5, let a := CAL + CAL_FG_CTL_START.off
      let c := ((s.took i a 0x3F (BitVec.ofNat 16 (32 + t.toNat))).put CAL CAL_FG_CTL_START 0).put CAL CAL_FG_CTL_SAVE 0
      s.admits i a 0x3F → t.toNat < 8 → c.calRuns t.toNat = false → c.calPortOk (calPortOf t.toNat) = true → c.lState (calPortOf t.toNat) ≠ 6 →
      exec (.calFgStart i t) s = .next (s.wrote i a
        (let d := (c.modCal fun x => { x with running := x.running ++ [(t.toNat, c.tpll)] }).put CAL CAL_FG_STAT_BUSY 1
         (d.modLink (calPortOf t.toNat) fun x => { x with calReturn := d.lState (calPortOf t.toNat) }).toLink (calPortOf t.toNat) 11))) ∧
    (∀ t : BitVec 5, let a := CAL + CAL_FG_CTL_START.off
      let c := ((s.took i a 0x5F (BitVec.ofNat 16 (64 + t.toNat))).put CAL CAL_FG_CTL_START 0).put CAL CAL_FG_CTL_SAVE 0
      s.admits i a 0x5F → t.toNat < 24 →
      exec (.calFgSave i t) s = .next (s.wrote i a
        (c.mtpAdd { record := calRecord t.toNat, words := c.calWords t.toNat, target := some t.toNat }))) ∧
    (∀ a : AgeProp, let c := (s.set1 i AGE AGE_PROP_ANS_APPROVE).setReg (AGE + AGE_PROP_ANS_APPROVE.off) 0
      s.admits1 i AGE AGE_PROP_ANS_APPROVE → c.age.props[c.propSel] = some a →
      exec (.agePropApprove i) s = .next (s.wrote i (AGE + AGE_PROP_ANS_APPROVE.off)
        ((c.modProp c.propSel fun _ => some { a with approved := true }).plannerSave))) ∧
    (∀ a : AgeProp, let c := (s.set1 i AGE AGE_PROP_ANS_VETO).setReg (AGE + AGE_PROP_ANS_VETO.off) 0
      s.admits1 i AGE AGE_PROP_ANS_VETO → c.age.props[c.propSel] = some a →
      exec (.agePropVeto i) s = .next (s.wrote i (AGE + AGE_PROP_ANS_VETO.off)
        (((c.modProp c.propSel fun _ => none).evt AGE AGE_EVT_VETOED).plannerSave))) ∧
    (∀ (t : BitVec 6) (force : Bool), let a := BIST + BIST_CTL_START.off
      let c := (s.took i a 0xFF (BitVec.ofNat 16 (128 + 64 * force.toNat + t.toNat))).put BIST BIST_CTL_START 0
      s.admits i a 0xFF → c.bistRefusal t.toNat force (c.bankHolds t.toNat) = 0 → 32 < t.toNat → t.toNat < 36 →
      exec (.bistStart i t force) s = .next (s.wrote i a
        (((((c.modBist fun x => { x with run := some t.toNat, bank := none, passes := 0, bad := false, sigBad := false, first := none }).put
          BIST BIST_STAT_BUSY 1).put BIST BIST_STAT_PHASE 2).putWide (bk t.toNat (BIST + BIST_COUNT_VALUE.off)) 2 0).putWide
          (bk t.toNat (BIST + BIST_EXP_VALUE.off)) 2 0))) ∧
    (∀ (bank : BitVec 5) (row : BitVec 10), let a := BIST + BIST_MAN_VALID.off
      s.admits i a 0xFFFF →
      exec (.bistManWrite i bank row) s = .next (s.wrote i a (s.took i a 0xFFFF (BitVec.ofNat 16 (0x8000 + 32 * row.toNat + bank.toNat))))) ∧
    (s.admits1 i ROLL ROLL_CMD_STOP_ALL →
      exec (.rollStopAll i) s = .next (s.wrote i (ROLL + ROLL_CMD_STOP_ALL.off)
        (((s.set1 i ROLL ROLL_CMD_STOP_ALL).put ROLL ROLL_CMD_STOP_ALL 0).rollStopAll))) ∧
    (∀ (e : Fin 26) (seed : BitVec 32), s.admits i (ROLL + ROLL_SEED_LO_VALUE.off) 0xFFFF → i ≠ .binder →
      s.chip.get ROLL ROLL_SEL_ENGINE = e.val → seed ≠ 0 →
      ∃ c, exec (.rollSeedWrite i seed) s = .next (s.on c) ∧ (c.bist.engines[e]).lfsr = seed.toNat ∧
        c.wide (bk e.val ROLL + ROLL_SEED_LO_VALUE.off) 2 = seed.toNat) ∧
    (∀ (u : Fin 2) (k : Fin 8) (v n : BitVec 32), s.admits i (pmcB u + PMC_CNT_COUNT.off + 2 * k.val) 0xFFFF → i ≠ .binder →
      v.toNat + n.toNat < 2 ^ 32 →
      ∃ c, exec (.pmcCntWrite i u k v n) s = .next (s.on c) ∧ c.wide (pmcB u + PMC_CNT_COUNT.off + 2 * k.val) 2 = v.toNat + n.toNat) ∧
    (∀ u : Fin 2, let c := s.set1 i (pmcB u) PMC_CTL_CYC_CLR
      s.admits1 i (pmcB u) PMC_CTL_CYC_CLR →
      exec (.cycClr i u) s = .next (s.wrote i (pmcB u + PMC_CTL_CYC_CLR.off)
        ((c.putWide (pmcB u + PMC_CYC_CYC.off) 4 (if c.rootKHz u = 0 then 0 else 1)).put (pmcB u) PMC_CTL_CYC_CLR 0)))

/-- The accesses of the fabric's ports complete: a plain write takes effect, the lowest register of a wide value is read with a
latch, a register below the highest is staged, REG_LOCK takes its write, and SPI, MDIO and TWM transactions are served
(R335 to R354, R361).
Readings and choices of the model in it: log entries 99, 101 to 104, 117, 123 and 124. -/
def Obligations.PortAccessesComplete : Prop :=
  ∀ s : State,
    (∀ (i : Ifc) (a : BitVec 19) (m d : BitVec 16) (r : RegDef), mapped a.toNat = some r → r.wide = 0 → postedBlock a.toNat = none →
      a.toNat ≠ REGB + REG_LOCK_OBSERVE.off → s.admits i a.toNat m → m &&& writable r.fields false ≠ 0 →
      let n := (s.chip.countWr i).allowed a.toNat m d
      exec (.registerWrite i a m d 0) s =
        .next (s.wrote i a.toNat (Chip.wrote (s.chip.countWr i) (s.took i a.toNat n d) s.lock.bits a.toNat n (n &&& d)))) ∧
    (∀ (i : Ifc) (a : BitVec 19) (r : RegDef), mapped a.toNat = some r → r.wide ≠ 0 → r.place a.toNat = 0 → s.admitsRead i a.toNat →
      let c := s.chip.countRd i
      let ws := (List.range r.wide).map fun k => (c.view s.lock (a.toNat + k)).toNat
      exec (.wideValueRead i a) s =
        .next (s.gave i a.toNat ((c.modIfc i fun y => { y with latch := { base := a.toNat, words := ws } }).readEff a.toNat) (c.view s.lock a.toNat))) ∧
    (∀ (i : Ifc) (a : BitVec 19) (m d : BitVec 16) (r : RegDef), mapped a.toNat = some r → r.place a.toNat + 1 < r.wide →
      postedBlock a.toNat = none → s.admitsRead i a.toNat → m &&& writable r.fields false ≠ 0 →
      let pl := r.place a.toNat
      let c := (s.chip.countWr i).stageKeep i (a.toNat - pl)
      exec (.wideValueWrite i a [(m, d)]) s =
        .next (s.wrote i a.toNat (c.modIfc i fun y => { y with stage := some (Stage.add y.stage (a.toNat - pl) pl m.toNat d.toNat) }))) ∧
    (∀ (i : Ifc) (m d : BitVec 16), let a := REGB + REG_LOCK_OBSERVE.off
      s.admitsRead i a → m ≠ 0 → m &&& s.lock.written = 0 →
      exec (.regLockWrite i m d) s = .next { s.wrote i a (s.chip.countWr i) with lock := s.lock.write m d }) ∧
    (∀ (i : Ifc) (a : BitVec 19) (m d met : BitVec 16),
      exec (.registerWrite i a m d met) s = exec (.registerWrite i a m (s.chip.metData s.lock a.toNat d met) 0) s) ∧
    (∀ (a : BitVec 19) (words : List (BitVec 16 × BitVec 16)) (n per : Nat) (second : Bool) (mid : List Access), s.chip.answers = true →
      let late := decide (s.chip.get REGB REG_SPI_CTL_GAP * per < 150000 ∨ s.chip.get CLK CLK_STAT_CTRL_SRC = 2)
      let r := shareRun .spi0 late (if second then [] else wordsAt .spi0 a words) mid (s.chip, s.lock)
      let q := shareRun .spi0 late (if second then [] else readsAt .spi0 a n) mid (s.chip, s.lock)
      exec (.spiFrame 0x02 a words n per second mid) s =
        .next { s with chip := r.1.1.modIfc .spi0 fun y => { y with resp := r.2 }, lock := r.1.2 } ∧
      exec (.spiFrame 0x0B a words n per second mid) s =
        .next { s with chip := q.1.1.modIfc .spi0 fun y => { y with resp := q.2 }, lock := q.1.2 }) ∧
    (∀ (a : BitVec 19) (per : Nat) (r : RegDef), s.chip.answers = true → mapped a.toNat = some r → r.wide = 0 → s.chip.gate a.toNat = 0 →
      s.chip.observed a.toNat r = true → 150000 ≤ s.chip.get REGB REG_SPI_CTL_GAP * per → s.chip.get CLK CLK_STAT_CTRL_SRC ≠ 2 →
      exec (.spiObserveFrame 0x0B a [] 1 per false []) s = .next (s.gave .spi1 a.toNat s.chip (s.chip.view s.lock a.toNat))) ∧
    (∀ (p : Port) (phy mmd : BitVec 5) (data : BitVec 16), s.chip.answers = true →
      phy.toNat = (4 * s.chip.get GLB GLB_STRAP_MDIO + p.val) % 32 →
      exec (.mdioFrame 0 phy mmd data) s = .next (s.on ((s.chip.modFab fun y =>
        { y with mdioAddr := y.mdioAddr.set (32 * p.val + mmd.toNat) (data.toNat : Int) }).modIfc .mdio fun y => { y with resp := [] }))) ∧
    (s.chip.answers = true → let r := winAccess false 0 (s.chip, s.lock)
      exec (.mdioWinDataAccess none) s =
        .next { s with chip := r.1.1.modIfc .mdio fun y => { y with resp := be 2 r.2.toNat }, lock := r.1.2 }) ∧
    (∀ (dev : BitVec 7) (hi md lo : Byte) (b : Bytes) (mid : List Access), s.chip.answers = true → s.chip.twmMine dev = true →
      let g := twmGroups b
      let r := shareRun .twm false (wordsAt .twm (twmAddrOf [hi, md, lo]) g) mid (s.chip.wakeSource 2 0, s.lock)
      exec (.twmWrite dev ([hi, md, lo] ++ b) mid) s = .next { s with
        chip := ((r.1.1.modFab fun y => { y with
          twmAddr := ((twmAddrOf [hi, md, lo]).toNat + g.length) % 0x80000,
          twmStatus := if g = [] then none else some (r.2.foldl (fun n y => n ||| y.toNat) 0) }).twmAcked (List.replicate (b.length + 4) true)).modIfc
            .twm fun y => { y with resp := [] },
        lock := r.1.2 }) ∧
    (∀ (dev : BitVec 7) (a : BitVec 19) (n : Nat) (mid : List Access), s.chip.answers = true → s.chip.twmMine dev = true →
      let c := (s.chip.wakeSource 2 0).modFab fun y => { y with twmAddr := a.toNat, twmStatus := none }
      let r := shareRun .twm false (readsAt .twm a n) mid (c, s.lock)
      exec (.twmRead dev (some a) n mid) s = .next { s with
        chip := ((r.1.1.modFab fun y => { y with twmAddr := (a.toNat + n) % 0x80000 }).twmAcked (List.replicate 5 true)).modIfc
          .twm fun y => { y with resp := r.2 },
        lock := r.1.2 }) ∧
    (∀ (dev : BitVec 7) (read : Bool), s.chip.pwr.mode = 2 ∨ s.chip.pwr.mode = 3 → s.chip.twmMine dev = true → s.chip.pwr.wake = none →
      s.chip.pwr.rstLow = false →
      exec (.twmWakeAddress dev read) s = .next (s.on ((s.chip.wakeSource 2 0).twmAcked [true]))) ∧
    (∀ (dev : BitVec 7) (read : Bool), s.chip.pwr.mode = 2 ∨ s.chip.pwr.mode = 3 → s.chip.twmMine dev = false →
      exec (.twmWakeAddress dev read) s = .next (s.on (s.chip.twmAcked [false])))
/-- Each timer of a port's link state machine takes its own exit in the state that it belongs to (R49, R52, R146, R156, R162, R180, R458).
Readings and choices of the model in it: log entries 34, 35 and 38. -/
def Obligations.LinkTimersComplete : Prop :=
  ∀ (s : State) (p : Port), let c := s.chip
    (c.lState p = 1 → exec (.pipPreTimeout p) s = .next (s.on (c.noAgreement p))) ∧
    (c.lState p = 2 → exec (.pipCapTimeout p) s = .next (s.on (c.noAgreement p))) ∧
    (c.lState p = 3 → exec (.anTimeout p) s = .next (s.on (c.linkFail p 0 none))) ∧
    (c.lState p = 4 → exec (.trainTimeout p) s = .next (s.on (c.linkFail p 0 none))) ∧
    (c.lState p = 4 → exec (.trainFail p) s = .next (s.on (c.linkFail p 0 none))) ∧
    (let d := ((c.evt (lpB p) LINK_EVT_FAST_MISS).setReg (lpB p + AN_STAT_RESOLVED.off) 0).useDelay p
     c.lState p = 5 → exec (.fastTrainTimeout p) s =
        .next (s.on (if d.get (lpB p) LINK_CTL_MODE_SEL = 0 then d.toLink p 3 else d.toTrain p))) ∧
    (c.lState p = 8 → c.tdrBusy p = false → exec (.linkFailHoldExpiry p) s = .next (s.on (c.holdExit p))) ∧
    (c.lState p = 9 → c.tdrBusy p = false → exec (.backoffExpiry p) s = .next (s.on (c.startExit p))) ∧
    (c.lState p = 11 → exec (.calStateTimeout p) s = .next (s.on ((c.calAbort p.val).calReturn p))) ∧
    (c.linkUp p = true → exec (.linkUpStable p) s = .next (s.on (c.put (lpB p) LINK_STAT_ATTEMPTS 0))) ∧
    ((c.lState p = 9 ∨ c.lState p = 10) → c.get (lpB p) PIP_CTL_BEACON_PER ≠ 0 → c.on (lpB p) PIP_CTL_EN = true →
      exec (.beaconPeriodTimer p) s = .next (s.on (c.pipPost p 8 []))) ∧
    (c.lState p = 1 → (c.port p).pip.waiting = [] → exec (.helloDue p) s = .next (s.on (c.pipPost p 1
      (c.identBytes p ++ be 1 ((c.port p).link.appliedAdv / 16 % 2 + 2 * c.get (lpB p) LINK_CTL_FAST_RELINK_EN)))))

/-- Detection, resolution, monitoring and adaptation of a standard link complete with their own effect (R47 to R49, R58 to R61,
R68 to R71, R189, R190).
Readings and choices of the model in it: log entries 34 and 38. -/
def Obligations.LinkEventsComplete : Prop :=
  ∀ (s : State) (p : Port), let c := s.chip; let b := lpB p
    (c.lState p = 1 → c.get b LINK_CTL_MODE_SEL = 0 →
      exec (.clause98PagesDetected p) s = .next (s.on ((c.put b PMA_STAT_SIGNAL_DET 1).toLink p 3))) ∧
    (∀ (ability : BitVec 14) (master : Bool), let own := (c.port p).link.appliedAdv
      let m := bestMode own ability.toNat
      c.lState p = 3 → own.testBit 13 = false → m ≠ 0 →
      exec (.anComplete p ability master false) s = .next (s.on (((((c.put b AN_LP_ABILITY ability.toNat).put b AN_LP_VALID 1).resolve p m 1 master).modLink p
        fun x => { x with eee := own.testBit (7 + m) && ability.toNat.testBit (7 + m) }).toLink p 4))) ∧
    (∀ l : List (Nat × Nat × Int), c.lState p = 4 ∨ c.lState p = 5 →
      exec (.pcsLinkOk p l) s = .next (s.on ((c.tapsFrom p l).toLink p 7))) ∧
    (c.lState p = 7 → exec (.pcsLinkStatusFail p) s = .next (s.on (c.linkFail p 1 none))) ∧
    (c.lState p = 7 → c.on b PCS_STAT_RX_LPI = false →
      exec (.signalDetectLoss p) s = .next (s.on ((c.put b PMA_STAT_SIGNAL_DET 0).linkFail p 2 none))) ∧
    (∀ (snr : BitVec 10) (corr unc : Nat), let d := (c.bumpLp p 11 corr).bumpLp p 12 unc
      let m : Int := (snr.toNat : Int) - snrRef (d.modeOf p)
      let e := (d.put b DSP_SNR_SNR snr.toNat).putS b LM_STAT_SNR_MARGIN m
      c.lState p = 7 → d.on b PCS_STAT_RX_LPI = false → e.getS b LM_CTL_SNR_MIN ≤ m → unc ≤ e.get b LM_UNC_UNC_MAX →
      exec (.lmWindowEnd p snr corr unc) s = .next (s.on (e.modLink p fun x => { x with snrBad := 0, uncBad := 0 }))) ∧
    (∀ (snr : BitVec 10) (corr unc : Nat), let d := (c.bumpLp p 11 corr).bumpLp p 12 unc
      c.lState p = 7 → d.on b PCS_STAT_RX_LPI = true →
      exec (.lmWindowEnd p snr corr unc) s = .next (s.on (d.modLink p fun x => { x with snrBad := 0, uncBad := 0 }))) ∧
    (∀ l : List (Nat × Nat × Int), let m := c.tapMoves p l
      c.adapting p = true → c.on b DSP_STAT_REFRESH_ACTIVE = false → c.on b DSP_STAT_DRIFT_FROZEN = false → c.driftOut p m = none →
      exec (.adaptationStep p l) s = .next (s.on (c.tapsFrom p m))) ∧
    (c.adapting p = true → c.on b DSP_STAT_REFRESH_ACTIVE = true → (c.put b DSP_STAT_REFRESH_ACTIVE 0).settled p = true →
      (c.put b DSP_STAT_REFRESH_ACTIVE 0).getS b LM_CTL_SNR_MIN ≤ (c.put b DSP_STAT_REFRESH_ACTIVE 0).getS b LM_STAT_SNR_MARGIN →
      exec (.quickRefreshEnd p) s = .next (s.on (((c.put b DSP_STAT_REFRESH_ACTIVE 0).modLink p
        fun x => { x with centres := x.taps, frozen := [], retryDue := false }).writeSnap p))) ∧
    (c.adapting p = true → (c.port p).link.retryDue = true → c.refreshFails p < 3 →
      exec (.quickRefreshRetry p) s = .next (s.on (c.startRefresh p))) ∧
    (∀ lpi quiet : Bool, c.lState p = 7 →
      exec (.rxLpiQuietChange p lpi quiet) s = .next (s.on (((c.setRxLpi p lpi quiet).modDiag p fun x => { x with prevRtt := none }).modLink p
        fun x => { x with snrBad := 0, uncBad := 0 }))) ∧
    (c.adapting p = true → c.on b LPI_STAT_REFRESH_DEFERRED = true → c.on b PCS_STAT_RX_LPI = false →
      exec (.deferredRefreshStart p) s = .next (s.on (c.startRefresh p)))

/-- Received flow control and its timers act, and LPI starts, refreshes and ends (R72 to R77, R181 to R191, R238).
Readings and choices of the model in it: log entries 28, 42 and 43. -/
def Obligations.FlowControlAndIdleComplete : Prop :=
  ∀ (s : State) (p : Port) (k : Cls), let c := s.chip; let b := lpB p
    (∀ f : Bytes, c.linkFlows p = true → beAt f 16 2 % 256 &&& c.get b PFC_CTL_RX_EN ≠ 0 →
      exec (.pfcFrameRx p f) s = .next (s.on ((c.bumpLp p 8 1).each (List.range 8) fun c k =>
        if (beAt f 16 2 % 256 &&& s.chip.get b PFC_CTL_RX_EN).testBit k then
          (c.putBit b PFC_STAT_RX_PAUSED k (beAt f (18 + 2 * k) 2 != 0)).modLink p fun x => { x with pauseQuanta := x.pauseQuanta.set k (beAt f (18 + 2 * k) 2) }
        else c))) ∧
    (c.linkFlows p = true → exec (.pauseFrameRx p) s = .next (s.on (c.bumpLp p 10 1))) ∧
    (exec (.pfcPauseExpiry p k false) s =
      .next (s.on ((c.putBit b PFC_STAT_RX_PAUSED k.val false).modLink p fun x => { x with pauseQuanta := x.pauseQuanta.set k.val 0 }))) ∧
    (c.bit b PFC_CTL_TX_EN k.val = true → c.bit b PFC_STAT_TX_HOLD k.val = true → c.linkUp p = true →
      exec (.pfcRefreshTimer p k false) s =
        .next (s.on (c.modLink p fun l => { l with ctlq := pfcQueued (c.pfcFrame p (2 ^ k.val) (2 ^ k.val)) l.ctlq }))) ∧
    (c.lState p = 7 → (c.port p).link.eee = true → c.on b LPI_CTL_TX_EN = true → c.egressEmpty p = true → c.on b PCS_STAT_TX_LPI = false →
      exec (.lpiEntry p) s = .next (s.on (((c.setTxLpi p true).bumpLp p 27 1).modDiag p fun x => { x with lpiRefreshes := 0, prevRtt := none }))) ∧
    (c.lState p = 7 → c.on b PCS_STAT_TX_LPI = true → c.egressEmpty p = false → exec (.lpiExit p) s = .next (s.on ((c.setTxLpi p false).modDiag p fun x => { x with prevRtt := none }))) ∧
    (c.lState p = 7 → c.on b LPI_STAT_TX_QUIET = true →
      exec (.stdLpiRefresh p) s = .next (s.on (c.modDiag p fun x => { x with lpiRefreshes := x.lpiRefreshes + 1 }))) ∧
    (c.showtime p = true → c.on b LPI_CTL_TX_EN = true → c.on b LPI_CTL_OCT_TX_EN = true → c.egressEmpty p = true →
      c.on b PCS_STAT_TX_LPI = false → (c.port p).oct.omcTx = [] → c.on b OCT_STAT_SWAP_PENDING = false →
      c.on b OCT_STAT_RELOAD_PENDING = false → (c.port p).oct.pause = none →
      exec (.octLpiEntry p) s = .next (s.on ((((c.setTxLpi p true).bumpLp p 27 1).modDiag p fun x => { x with lpiSf := 0, lpiRefreshes := 0 }).modOct p
        fun x => { x with flag := .conj, fill := false, omcNow := [] }))) ∧
    (c.showtime p = true → c.on b PCS_STAT_TX_LPI = true →
      exec (.octLpiRefresh p) s = .next (s.on (((c.put b LPI_STAT_TX_QUIET 0).modDiag p fun x =>
        { x with lpiSf := x.lpiSf + c.get b LPI_OCT_QUIET + 1, lpiRefreshes := x.lpiRefreshes + 1 }).modOct p
          fun x => { x with flag := .plain, fill := true, omcNow := List.replicate (c.get b OCT_NCW_N_TX) idleSlice }))) ∧
    (c.showtime p = true → c.on b PCS_STAT_TX_LPI = true → c.egressEmpty p = false →
      exec (.octLpiResume p) s = .next (s.on (((c.setTxLpi p false).modDiag p fun x => { x with lpiSf := 0 }).sfBegin p 1))) ∧
    (∀ lpi quiet : Bool, c.showtime p = true →
      exec (.octRxQuietEntry p lpi quiet) s = .next (s.on ((c.setRxLpi p lpi quiet).modOct p fun o => { o with snrBad := 0, uncBad := 0 })))

/-- Octavo's training and its link monitoring complete with their own effect (R84, R88 to R91, R97 to R104, R108, R113,
R121, R122, R173, R187).
Readings and choices of the model in it: log entries 45, 46 and 127. -/
def Obligations.OctavoTrainingComplete : Prop :=
  ∀ (s : State) (p : Port), let c := s.chip; let b := lpB p
    (∀ (n : Nat) (snr : List Nat) (gd : List Int) (rx : List (List Point)), c.lState p = 6 → c.get b OCT_STAT_PHASE = n → 2 ≤ n → n ≤ 5 →
      exec (.octavoPhaseEnd p true snr gd rx) s = .next (s.on (c.setPhase p (n + 1)))) ∧
    (∀ (snr : List Nat) (gd : List Int) (rx : List (List Point)), c.lState p = 6 → c.get b OCT_STAT_PHASE = 6 → gd ≠ [] →
      let w := rx.zipIdx.map fun y => equaliser y.2 y.1
      exec (.octavoPhaseEnd p true snr gd rx) s = .next (s.on (((c.modOct p fun o => { o with weq := w, weq0 := w }).modDiag p
        fun x => { x with gd := relativeGd gd }).setPhase p 7))) ∧
    (∀ bs : Bytes, c.lState p = 6 → c.get b OCT_STAT_PHASE = 9 → (c.port p).oct.master = true → (c.port p).oct.report = [] → blockOk bs 42 0xE2 = true →
      let r := ((bs.drop 1).take 37).map (·.toNat)
      let d := c.octDecide p r
      exec (.loadReportRx p bs) s = .next (s.on (c.modOct p fun x => { x with report := r, decision := some d, block := decisionBytes d.1 d.2 }))) ∧
    (∀ bs : Bytes, c.lState p = 6 → c.get b OCT_STAT_PHASE = 9 → (c.port p).oct.master = false → (c.port p).oct.decision = none → blockOk bs 8 0xE3 = true →
      exec (.loadDecisionRx p bs) s = .next (s.on (c.modOct p fun x => { x with decision := some (beAt bs 1 1, beAt bs 2 2) }))) ∧
    (∀ bs : Bytes, let l := loadingOf ((bs.drop 8).take 1016)
      c.lState p = 6 → c.get b OCT_STAT_PHASE = 10 → (c.port p).oct.tableTaken = false → blockOk bs 1028 0xE1 = true → (∀ x ∈ l, x ≤ 12) →
      exec (.loadingTableRx p bs) s = .next (s.on (c.modOct p fun x => { x with txBits := l, tableTaken := true }))) ∧
    (c.lState p = 6 → c.get b OCT_STAT_PHASE = 10 → (c.port p).oct.showDue = true →
      exec (.showtimeStart p) s = .next (s.on (((((((((c.setPhase p 11).put b OCT_SF_TX_SF 0).put b OCT_SF_RX_SF 0).modOct p
        fun o => { o with showDue := false, sfAcc := 0, uncBad := 0, snrBad := 0, block := [], omcTx := [], cwBad := [] }).sfBegin p 1).evt b
          OCT_EVT_SHOWTIME).showMargin p).linkGained p).writeK2 p))) ∧
    (∀ llr : List Int, c.showtime p = true → let bits := ldpcDecode llr
      exec (.codewordRx p llr true) s =
        .next (s.on (c.codewordDone p (ldpcOk bits) (bits != llr.map fun v => decide (v < 0)) bits))) ∧
    (∀ (fixed : Bool) (bits : List Bool), c.codewordDone p false fixed bits =
      (c.modOct p fun o => { o with cwBad := (true :: o.cwBad).take 16 }).bumpLp p 12 1) ∧
    (∀ llr : List Int, exec (.codewordRx p llr false) s = .next s) ∧
    (∀ (tone : Fin 2048) (w : Equaliser), let v := (c.port p).oct.weq0.getD (tone.val - 8) {}
      let d := c.modOct p fun o => { o with weq := o.weq.set (tone.val - 8) w }
      c.showtime p = true → 8 ≤ tone.val → tone.val < 2040 → c.on b LPI_STAT_RX_QUIET = false → (c.port p).oct.drift.contains tone.val = false →
      exec (.toneEqTrack p tone w) s = .next (s.on (
        if eqOutside w v then (d.modOct p fun o => { o with drift := o.drift ++ [tone.val] }).evt b OCT_EVT_TONE_DRIFT
        else if eqInside w v then d.modOct p fun o => { o with drift := o.drift.filter (· != tone.val) } else d))) ∧
    (∀ (unc : Nat) (snr : List Nat), let d := (c.snrTaken p snr).showMargin p
      c.showtime p = true → d.on b PCS_STAT_RX_LPI = true ∨ (unc ≤ d.get b OCT_UNC_UNC_MAX ∧ d.getS b LM_CTL_SNR_MIN ≤ d.getS b LM_STAT_SNR_MARGIN) →
      exec (.octLmWindowEnd p unc snr) s = .next (s.on (d.modOct p fun o => { o with uncBad := 0, snrBad := 0 }))) ∧
    (c.showtime p = true → c.on b PCS_STAT_RX_LPI = false →
      exec (.octSignalLoss p) s = .next (s.on ((c.put b PMA_STAT_SIGNAL_DET 0).octDown p 3))) ∧
    (c.showtime p = true → c.on b PCS_STAT_RX_LPI = false → exec (.octFlagLoss p) s = .next (s.on (c.octDown p 4)))

/-- Octavo's swaps, reloads and calibration pauses complete with their own effect (R108 to R119).
Readings and choices of the model in it: log entries 46 to 52. -/
def Obligations.OctavoChangesComplete : Prop :=
  ∀ (s : State) (p : Port), let c := s.chip; let b := lpB p; let o := (c.port p).oct
    (let d := c.showMargin p; let q := (d.port p).oct
     let r := swapMoves (d.toneTable p q.snr (d.octBand p false)) q.drift (d.get b OCT_SWAP_TRIG) q.target 24384 q.rxBits []
     let l := r.2.map fun i => (i + 8, r.1.getD i 0)
     c.showtime p = true → d.on b OCT_CTL_SWAP_EN = true → q.swap = none → q.swapTx = none → q.reload = none → q.pause = none → d.inLpi p = false →
      d.calRuns p.val = false → r.2 ≠ [] →
      exec (.swapEvaluation p []) s = .next (s.on ((((d.modOct p fun x => { x with swap := some { seq := q.omcSeq, list := l, sends := 1 } }).omcNext p).omcSend p
        [omcMsg 1 q.omcSeq (be 1 l.length ++ l.flatMap fun x => be 2 (x.2 * 4096 + x.1))]).showPending p))) ∧
    (∀ m : Bytes, c.showtime p = true → c.omcRepeat p 1 (beAt m 2 1) = none →
      exec (.swapReqRx p m) s = .next (s.on (c.swapAnswer p m (beAt m 2 1)))) ∧
    (∀ m : Bytes, exec (.swapAckRx p m) s = .next (s.on (c.modOct p fun o =>
      { o with swap := o.swap.map fun x => if x.seq = beAt m 2 1 then { x with target := some (beAt m 3 1) } else x }))) ∧
    (∀ (m : Bytes) (x : SwapSt), o.swap = some x → x.seq = beAt m 2 1 → exec (.swapNakRx p m) s = .next (s.on (c.swapDropped p))) ∧
    (∀ x : SwapSt, c.showtime p = true → o.swapTx = some x →
      exec (.swapChangeover p true) s = .next (s.on (((c.put b OCT_SF_TX_SF (x.target.getD (c.sfCount p))).modOct p
        fun o => { o with swapTx := none, txBits := setBits o.txBits x.list, flag := .inverted }).swapTaken p))) ∧
    (∀ (x : SwapSt) (sf : Byte), c.showtime p = true → o.swap = some x → x.target = none ∨ x.target = some sf.toNat →
      o.rxChanged ≠ some sf.toNat →
      exec (.invertedFlagRx p sf) s = .next (s.on ((c.put b OCT_SF_RX_SF sf.toNat).swapRx p x.list))) ∧
    (∀ x : SwapSt, o.swap = some x → x.target = none → x.sends < 5 → c.inLpi p = false → o.pause = none → c.showtime p = true →
      exec (.swapRetryTimeout p) s = .next (s.on ((c.modOct p fun o => { o with swap := some { x with sends := x.sends + 1 } }).omcSend p
        [omcMsg 1 x.seq (be 1 x.list.length ++ x.list.flatMap fun y => be 2 (y.2 * 4096 + y.1))]))) ∧
    (∀ m : Bytes, c.showtime p = true → c.omcRepeat p 4 (beAt m 2 1) = none → c.reloadHeld p = 0 → o.master = true →
      exec (.reloadReqRx p m) s = .next (s.on ((c.reloadStart p (beAt m 2 1)).reloadAnswered p (beAt m 2 1)))) ∧
    (∀ (m : Bytes) (x : ReloadSt), o.reload = some x → c.showtime p = true → x.vals ≠ [] → x.frags = [] → x.second = false → x.last = none →
      x.sent = true →
      exec (.tableRx p m) s = .next (s.on (c.modOct p fun o =>
        { o with reload := some { x with frags := [(beAt m 3 1 % 16, m.drop 4)], last := some (beAt m 3 1 % 16) } }))) ∧
    (∀ (m : Bytes) (x : ReloadSt), o.reload = some x → x.seq = beAt m 2 1 → o.master = true → x.whole = true →
      exec (.reloadAckRx p m) s = .next (s.on (c.modOct p fun o => { o with reload := some { x with target := some (beAt m 3 1) } }))) ∧
    (∀ (m : Bytes) (x : ReloadSt), o.reload = some x → x.seq = beAt m 2 1 → o.master = true → x.whole = false →
      exec (.reloadAckRx p m) s = .next (s.on ((c.reloadFailed p).reloadNak p x.seq 7))) ∧
    (∀ (m : Bytes) (x : ReloadSt), o.reload = some x → x.seq = beAt m 2 1 → exec (.reloadNakRx p m) s = .next (s.on (c.reloadFailed p))) ∧
    (∀ (x : ReloadSt) (t : Nat), o.reload = some x → c.showtime p = true → x.target = some t →
      exec (.reloadChangeover p) s = .next (s.on ((((((((c.put b OCT_SF_TX_SF t).modOct p fun o =>
        { o.withVals x.vals with reload := none, rxBits := x.rxBits, txBits := x.bits, margin := achieved (o.withVals x.vals).snr x.rxBits,
                                 flag := .inverted, rxChanged := some t }).showRates p
        (c.reloadGrade p x.vals)).showPending p).evt b OCT_EVT_RELOAD_DONE).bumpLp p 18 1).showMargin p).writeK2 p |>.ageReloaded p))) ∧
    (∀ x : ReloadSt, o.reload = some x → x.target = none → exec (.reloadTimeout p) s = .next (s.on (c.reloadFailed p))) ∧
    (∀ x : PauseSt, o.pause = some x → c.showtime p = true → x.own = true → x.acked = false →
      exec (.pauseCancel p) s = .next (s.on (c.pauseDropped p))) ∧
    (c.showtime p = true → c.calRuns p.val = true → o.pause = none → o.cancels ≠ 0 →
      exec (.pauseRenotice p) s = .next (s.on (c.pauseAnnounce p))) ∧
    (∀ x : PauseSt, o.pause = some x → c.showtime p = true → x.acked = true →
      exec (.pauseStart p) s = .next (s.on (((((c.setPhase p 12).put b OCT_STAT_PAUSED 1).put b OCT_SF_TX_SF x.x).evt b OCT_EVT_PAUSE_BEGIN).modOct p
        fun o => { o with uncBad := 0, snrBad := 0, flag := .silent, fill := false, omcNow := [] }))) ∧
    (c.get b OCT_STAT_PHASE = 12 → exec (.pauseCalDone p) s = .next (s.on (c.modOct p fun o =>
      { o with pause := o.pause.map fun x => if x.own then { x with calDone := true } else x }))) ∧
    (∀ x : PauseSt, o.pause = some x → c.lState p = 6 → c.get b OCT_STAT_PHASE = 12 → x.own = false →
      exec (.pauseFlagPhase p) s = .next (s.on (((c.modOct p fun o =>
        { o with pause := some { x with flags := true }, flag := if o.master then .plain else .silent }).setTx p o.master).modDiag p
          fun y => { y with prevRtt := none }))) ∧
    (c.lState p = 6 → c.get b OCT_STAT_PHASE = 12 →
      let d := (((c.setPhase p 11).put b OCT_STAT_PAUSED 0).evt b OCT_EVT_PAUSE_END).modOct p fun o =>
        { o with pause := none, cancels := 0, uncBad := 0, snrBad := 0 }
      d.on b PCS_STAT_TX_LPI = false → exec (.pauseEnd p true) s = .next (s.on (d.sfBegin p 1)))

/-- Pip frames are received, sent, timed out and acted on (R127 to R159, R174).
Readings and choices of the model in it: log entries 31, 32, 33, 35, 39 and 132 to 134. -/
def Obligations.PipEventsComplete : Prop :=
  ∀ (s : State) (p : Port) (rate : Fin 3) (lq seq : Byte), let c := s.chip; let b := lpB p
    (∀ body : Bytes, let d := (c.pipGood p 1 rate.val lq.toNat).peerSeen p (beAt body 0 8)
      c.pipHears p = true → d.lState p = 1 → beAt body 0 1 = 0xCA →
      exec (.helloRx p rate lq body) s = .next (s.on ((d.toLink p 2).modPip p fun x => { x with
        waiting := x.waiting.map fun m => if m.typ = 2 then { m with answer := true, rate := rate.val } else m }))) ∧
    (∀ body : Bytes, let d := ((c.pipGood p 2 rate.val lq.toNat).peerSeen p (beAt body 0 8)).pipAck p 2 seq.toNat rate.val 0
      let adv := beAt body 8 2 % 2 ^ 14
      let cap : PeerCap := ⟨beAt body 0 8, adv, (beAt body 10 1).testBit 0, (beAt body 10 1).testBit 1, beAt body 10 1 / 16, (beAt body 11 1).testBit 0⟩
      let e := ((d.modPip p fun x => { x with peerCap := some cap }).put b AN_LP_ABILITY adv).put b AN_LP_VALID 1
      c.pipHears p = true → (c.pipGood p 2 rate.val lq.toNat).pipRepeat p 2 seq.toNat = none → d.lState p = 2 → e.lState p = 2 → beAt body 0 1 = 0xCA →
      exec (.capRx p rate lq seq body) s = .next (s.on (e.pipNegotiate p))) ∧
    (∀ (body : Bytes) (x : PeerCap), let d := c.pipGood p 3 rate.val lq.toNat
      c.pipHears p = true → d.pipRepeat p 3 seq.toNat = none → (d.port p).pip.peerCap = some x → d.lState p = 2 → d.capMaster p x = false →
      exec (.offerRx p rate lq seq body) s =
        .next (s.on ((d.pipAck p 3 seq.toNat rate.val (if d.offerOk p x body then 0 else 1)).modPip p fun y => { y with offer := body }))) ∧
    (∀ (body : Bytes) (turn : Nat) (o : PipOut), let d := c.pipGood p 4 rate.val lq.toNat
      let e := d.pipDrop p fun m => m == o.msg || (m.typ == 9 && m.seq == some (beAt body 1 1))
      c.pipHears p = true → (d.port p).pip.outstanding = [o] → o.msg.typ = 9 → o.msg.seq = some (beAt body 1 1) → beAt body 0 1 = 9 → e.lState p ≠ 2 →
      exec (.pipAckRx p rate lq body turn) s = .next (s.on (e.modPip p fun x => { x with rpt := be 1 4 ++ be 1 (beAt body 2 1) }))) ∧
    (let d := c.pipGood p 5 rate.val lq.toNat
     c.pipHears p = true → d.bit PWR PWR_WATCH_PAIRS_LISTEN p.val = true → d.pwr.mode = 1 →
      exec (.wakeRx p rate lq) s = .next (s.on (d.wakeSource 1 p.val))) ∧
    (∀ (st : Byte) (delay : BitVec 16), let d := c.pipGood p 6 rate.val lq.toNat
      c.pipHears p = true → d.pipRepeat p 6 seq.toNat = none → d.on PWR PWR_PARTNER_SLEEP_EN_EN = true → st = 1 ∨ st = 2 →
      exec (.sleepRx p rate lq seq st delay) s = .next (s.on
        (((d.evt b PIP_EVT_SLEEP_RX).pipAck p 6 seq.toNat rate.val 0).pwrRequest (st.toNat + 1) delay.toNat 2))) ∧
    (∀ body : Bytes, let d := c.pipGood p 7 rate.val lq.toNat
      c.pipHears p = true → d.pipRepeat p 7 seq.toNat = none → d.showtime p = true → (d.port p).oct.swap = none → (d.port p).oct.swapTx = none →
      (d.port p).oct.reload = none → (d.port p).oct.pause = none →
      exec (.pipPauseRx p rate lq seq body) s = .next (s.on
        ((d.pipAck p 7 seq.toNat rate.val 0).modOct p fun o => { o with pause := some { x := beAt body 0 1, own := false, acked := true } }))) ∧
    (∀ (body : Bytes) (frac : Nat), let d := c.pipGood p 8 rate.val lq.toNat
      let delay := if d.get b DLY_STAT_USED = 0 then (d.port p).diag.lastRx else d.wide (b + DLY_RX_RX.off) 2
      c.pipHears p = true →
      exec (.beaconRx p rate lq body frac) s = .next (s.on (d.beaconOffset p
        ((d.now : Int) + frac - d.latPip 0 - delay - ((beAt body 0 6 * 1000000000 + beAt body 6 4) * 65536 : Nat))))) ∧
    (∀ body : Bytes, let d := c.pipGood p 9 rate.val lq.toNat
      c.pipHears p = true → d.pipRepeat p 9 seq.toNat = none → beAt body 0 1 = 1 →
      exec (.diagReqRx p rate lq seq body) s = .next (s.on
        (d.pipAnswer p 9 seq.toNat rate.val 10 (be 1 1 ++ be 1 seq.toNat ++ be 2 (unsigned 16 d.topTemp))))) ∧
    (∀ (body : Bytes) (o : PipOut), let d := c.pipGood p 10 rate.val lq.toNat
      c.pipHears p = true → (d.port p).pip.outstanding = [o] → o.msg.typ = 9 → o.msg.seq = some (beAt body 1 1) →
      exec (.diagRptRx p rate lq body) s = .next (s.on (((d.pipDrop p fun m => m.typ == 9 && m.seq == some (beAt body 1 1)).evt b PIP_EVT_DIAG_RPT).modPip p
        fun x => { x with rpt := be 1 10 ++ body.take 1 ++ body.drop 2 }))) ∧
    (∀ why : PipBad, let d := ((c.bumpLp p (if why = .crc then 21 else 22) 1).put b PIP_STAT_RX_BUSY 0).modPip p fun x => { x with gain := 0 }
      c.pipHears p = true →
      exec (.pipBadFrameRx p why) s = .next (s.on (match why with
        | .typ t r q => ((d.put b PIP_STAT_LAST_RATE r.val).put b PIP_RX_LQ_LQ q.toNat).put b PIP_RX_LQ_TYPE t.toNat
        | _ => d))) ∧
    (∀ diff : Int, let d := c.put b PIP_STAT_RX_BUSY 1
      c.pipHears p = true → d.get b PIP_RX_CTL_CAPTURE_DB ≠ 0 → (d.get b PIP_RX_CTL_CAPTURE_DB : Int) ≤ diff →
      exec (.pipCapture p diff) s = .next (s.on (((d.bumpLp p 23 1).evt b PIP_EVT_CAPTURE).modPip p fun x => { x with gain := x.gain - diff }))) ∧
    (∀ (frac : Nat) (m : PipMsg), c.pipHears p = true → c.on b PIP_STAT_RX_BUSY = false → firstWaiting (c.port p).pip.waiting = some m → m.answer = false →
      exec (.pipBackoffEnd p frac) s = .next (s.on (((c.rollDie p).modPip p fun y => { y with waiting := dropMsg m y.waiting }).pipSend p m (c.now + frac)))) ∧
    (∀ (frac : Nat) (m : PipMsg), c.pipHears p = true → (c.port p).pip.waiting = [m] → m.answer = true → m.typ ≠ 4 →
      exec (.pipAnswerTx p frac) s = .next (s.on
        (((c.modPip p fun y => { y with waiting := dropMsg m y.waiting }).pipSend p m (c.now + frac)).pipNegotiate p))) ∧
    (∀ (typ : Byte) (o : PipOut), (c.port p).pip.outstanding = [o] → o.msg.typ = typ.toNat → o.msg.seq = some seq.toNat → (c.port p).pip.waiting = [] →
      exec (.pipAnswerTimeout p typ seq) s = .next (s.on (c.pipRetry p o))) ∧
    (let x := (c.port p).pip
     let d := c.countBurst p (burstSent x.burstLen (c.tpll - x.burstAt)) ((x.burstLen * 1000 + 198) / 199)
     x.burst = true →
      exec (.wakeBurstEnd p) s = .next (s.on (((d.modPip p fun y => { y with burst := false, deafTo := d.tpll + 2500 }).showPipTx p).evt b PIP_EVT_WAKE_DONE)))

/-- Reflectometry runs, round trips and their exchange with the partner (R160 to R180, R207).
Readings and choices of the model in it: log entries 36, 37, 41, 128 and 136. -/
def Obligations.CableEventsComplete : Prop :=
  ∀ (s : State) (p : Port), let c := s.chip; let b := lpB p
    (c.tdrBusy p = true → exec (.tdrTryStart p) s = .next (s.on (c.modDiag p fun x => { x with shooting := true }))) ∧
    (c.tdrBusy p = true → (c.port p).diag.shooting = false → exec (.tdrIdleTimeout p) s = .next (s.on (c.tdrTryFailed p))) ∧
    (∀ (noise : Nat) (l : List (Int × Nat)), let r := c.tdrReport p l
      c.tdrBusy p = true → (c.port p).diag.shooting = true → noise * 199526 < c.get b DIAG_THR_THR * 512 * 100000 → farEnd r = none →
      exec (.tdrTryEnd p true noise l) s = .next (s.on ((((((c.put b DIAG_STAT_COUNT r.length).modDiag p fun x => { x with refls := r }).put
        b DIAG_STAT_FAR_END 0).putWide (b + DIAG_TIME_TIME.off) 2 0).loseE p).tdrOver p 1))) ∧
    (∀ frac : Nat, c.markers p = true → c.on b AN_STAT_MS_RESULT = false →
      exec (.markerTurn p frac) s = .next (s.on (c.modDiag p fun x => { x with markTx := some (c.now + frac + tTurn (c.modeOf p)) }))) ∧
    (∀ m : Nat, let raw : Int := m - tTurn (c.modeOf p)
      let rtt := satU 32 (if c.modeOf p = 5 then raw else nearestRtt (c.modeOf p) raw ((c.port p).diag.coarse.getD 0)).toNat
      c.markers p = true → c.on b AN_STAT_MS_RESULT = true → c.on b DIAG_CTL_L_EN = true →
      c.modeOf p = 5 ∨ (c.port p).diag.coarse.isSome = true → (c.port p).diag.prevRtt = none →
      exec (.methodLWindowEnd p m) s = .next (s.on ((c.modDiag p fun x => { x with prevRtt := some rtt }).takeRtt p rtt))) ∧
    (let i := ptpOf p
     let tlv := be 2 3 ++ be 2 0xC ++ be 3 0x4AC948 ++ be 3 1 ++ be 4 (c.wide (b + DLY_RTT_RTT.off) 2) ++ be 1 (c.get b DLY_STAT_L_MODE) ++ be 1 0
     let f := c.ptpFrame i 0xC 0 0 c.folio.ptp[i].seqSig 5 0x7F (List.replicate 10 0xFF ++ tlv)
     c.folioOn = true → c.on b AN_STAT_MS_RESULT = true → c.on b DLY_STAT_L_VALID = true → c.linkUp p = true →
      exec (.rttSignalingTx p) s = .next (s.on ((c.queueCtl i { bytes := padded f }).modPtp i fun x => { x with seqSig := (x.seqSig + 1) % 2 ^ 16 }))) ∧
    (∀ f : Bytes, let tlv := f.drop 58
      c.folioOn = true → c.ptpOwn f = true → ptpType f = 0xC → beAt tlv 0 2 = 3 → beAt tlv 4 3 = 0x4AC948 → beAt tlv 7 3 = 1 →
      let d := c.bumpLp p 29 1
      d.linkFlows p = true → d.on b AN_STAT_MS_RESULT = false → d.on b DIAG_CTL_L_EN = true → beAt tlv 14 1 = d.modeOf p →
      exec (.rttSignalingRx p f) s = .next (s.on (d.takeRtt p (beAt tlv 10 4))))

/-- PTP messages, captures, event outputs, timeouts and ticks act on Folio (R193, R200 to R224).
Readings and choices of the model in it: log entries 12, 13, 16, 17, 18, 20 and 29. -/
def Obligations.FolioEventsComplete : Prop :=
  ∀ (s : State) (i : Fin 16), let c := s.chip
    (∀ n : Nat, exec (.timeTick n) s = .next (s.on (c.tick n))) ∧
    (∀ (b : Bytes) (frac : Nat), c.ptpFor i b 0 = true → exec (.syncRx i b frac) s = .next (s.on ((c.ptpCount i).syncRx i b (c.now + frac)))) ∧
    (∀ (b : Bytes) (frac : Nat), c.ptpFor i b 8 = true → exec (.followUpRx i b frac) s = .next (s.on ((c.ptpCount i).followRx i b (c.now + frac)))) ∧
    (∀ b : Bytes, c.ptpFor i b 0xB = true → exec (.announceRx i b) s = .next (s.on ((c.ptpCount i).announceRx i b))) ∧
    (∀ (b : Bytes) (frac : Nat), c.ptpFor i b 2 = true → exec (.pdelayMsgRx i b frac) s = .next (s.on ((c.ptpCount i).pdelayRx i b (c.now + frac)))) ∧
    (∀ b : Bytes, c.folioOn = true → c.ptpOwn b = true → c.ptpEn i = true → exec (.ptpOtherRx i b) s = .next (s.on (c.ptpCount i))) ∧
    (∀ j : Fin 16, c.srcPtp = some j → exec .syncTimeout s = .next (s.on c.srcLost)) ∧
    (c.isTail = false → c.get FOLIO FOLIO_CTL_SRC = 3 → exec .captureSourceTimeout s = .next (s.on c.srcLost)) ∧
    (∀ (k : Fin 4) (rising : Bool) (frac : Nat), let sel := c.get FOLIO FOLIO_CAP_CTL_EDGE / 4 ^ k.val % 4
      let t := ((c.now + frac : Nat) : Int) - c.latCap + ((Config.jitter c.freeCtr).val : Int) - 16384
      c.folioClk = true → (rising = true → sel % 2 = 1) → (rising = false → sel / 2 = 1) → (c.folio.caps[k].queue).length < 8 →
      c.get FOLIO FOLIO_CTL_SRC ≠ 3 →
      exec (.captureEdge k rising frac) s = .next (s.on (c.tickFree.modCap k fun x => { x with queue := x.queue ++ [(t.toNat, rising)] }))) ∧
    (c.ptpMaster i = true → c.on FOLIO FOLIO_CTL_TC = false →
      exec (.syncTx i) s = .next (s.on ((c.queueCtl i { kind := 1, bytes := c.ptpFrame i 0 0 0 c.folio.ptp[i].seqSync 0 (c.logSync i) (be 10 0) }).modPtp i
        fun x => { x with seqSync := (x.seqSync + 1) % 2 ^ 16 }))) ∧
    (c.ptpMaster i = true →
      exec (.announceTx i) s = .next (s.on ((c.queueCtl i { bytes := padded (c.ptpFrame i 0xB 0 0 c.folio.ptp[i].seqAnn 5 0 c.annBody) }).modPtp i
        fun x => { x with seqAnn := (x.seqAnn + 1) % 2 ^ 16 }))) ∧
    (c.folioOn = true → c.ptpEn i = true → c.ptpUp i = true → (c.folio.ptp[i]).req = none → (c.folio.ptp[i]).lost ≤ 9 →
      exec (.pdelayReqTx i) s = .next (s.on ((c.queueCtl i { kind := 3, bytes := c.ptpFrame i 2 0 0 c.folio.ptp[i].seqPd 5 (c.logPdelay i) (be 20 0) }).modPtp i
        fun x => { x with seqPd := (x.seqPd + 1) % 2 ^ 16 }))) ∧
    (∀ o : Fin 4, let e := c.folio.outs[o]
      e.armed = true → c.folioClk = true → e.next ≤ c.now + c.latEvt →
      exec (.eventOutputEdge o) s = .next (s.on (c.modEvo o fun x =>
        { x with pulse := true, armed := x.periodic, next := if x.periodic then x.next + x.per else x.next }))) ∧
    (∀ o : Fin 4, exec (.eventOutputPulseEnd o) s = .next (s.on (c.modEvo o fun x => { x with pulse := false })))

/-- Lane faults, retimer training, checkers and injection act (R231 to R237, R253 to R264).
Readings and choices of the model in it: log entries 54 to 57. -/
def Obligations.LaneEventsComplete : Prop :=
  ∀ (s : State) (l : Lane), let c := s.chip; let b := laneB l
    (∀ sig cdr blk fec rf : Bool, let d := c.laneRx l sig cdr blk fec rf
      c.laneRuns l = true → (d.lanes[l]).rxLost = true →
      exec (.laneFault l sig cdr blk fec rf) s = .next (s.on ((d.pairRx l).laneEval l))) ∧
    (∀ (v : List (Nat × Nat × Int)) (desk : Bool), let d := (c.laneRx l true true true true false).laneFit l v
      let all := desk && d.hostMode == 1 && hostLanes.all fun h => d.laneRuns h && !d.lanes[h].rxLost
      c.laneRuns l = true → c.trnState l ≠ 5 → (c.lanes[l]).train = false →
      exec (.laneFaultClear l v desk) s = .next (s.on (((if all then d.modHgrp fun h => { h with deskewed := true } else d).pairRx l).laneEval l))) ∧
    (c.hostMode = 2 → c.laneData l = true → c.laneUp l = true → c.on b XN_STAT_LIVE = false → c.quire.idleHold = false →
      c.bit HGRP HGRP_BOND_STAT_SHED l.val = false → hostLanes.all (fun h => !c.on (laneB h) XN_STAT_LIVE) = true →
      exec (.laneLive l) s = .next (s.on ((c.put b XN_STAT_LIVE 1).creditRestart))) ∧
    (exec (.replayRelease l) s = .next (s.on (c.modLane l fun x => { x with replay := x.replay.drop 1 }))) ∧
    (c.pairReady l = true → c.laneRuns l = true → c.trnState l = 0 →
      exec (.retimerSignalDetect l) s = .next (s.on ((c.put b XN_STAT_SIGNAL_DET 1).pairTo l
        (if ((c.put b XN_STAT_SIGNAL_DET 1).lanes[l]).train then 1 else 3)))) ∧
    (∀ page : BitVec 48, c.pairReady l = true → c.laneRuns l = true → (c.lanes[l]).train = true → c.trnState l = 1 →
      exec (.retimerPagesRx l page) s = .next (s.on ((c.put b XN_STAT_SIGNAL_DET 1).modLane (pairLane l) fun x => { x with page := page.toNat }))) ∧
    (c.pairReady l = true → c.laneRuns l = true → (c.lanes[l]).train = true → c.trnState l = 1 ∨ c.trnState l = 3 ∨ c.trnState l = 4 →
      exec (.retimerTrainingFramesRx l) s = .next (s.on (((c.trainBegin l).trainBegin (pairLane l)).pairTo l 2))) ∧
    (∀ n : Port, c.laneRetimed (hLane n) = true → c.trnState (hLane n) = 1 →
      exec (.retimerNoSignal n) s = .next (s.on
        (((c.put (laneB (hLane n)) XN_STAT_SIGNAL_DET 0).put (laneB (pairLane (hLane n))) XN_STAT_SIGNAL_DET 0).pairTo (hLane n) 0))) ∧
    (∀ v : List (Nat × Nat × Int), c.laneRetimed l = true → c.laneRuns l = true → c.trnState l = 2 →
      exec (.retimerRxTrained l true v) s = .next (s.on ((c.put b XN_TRN_STAT_REMOTE_READY 1).readySent l))) ∧
    (c.laneRetimed l = true → c.trnState l = 2 → c.on b XN_TRN_STAT_READY_SENT = true → c.on (laneB (pairLane l)) XN_TRN_STAT_READY_SENT = true →
      exec (.retimerTrainDone l) s = .next (s.on (((c.evt b XN_EVT_TRAIN_DONE).evt (laneB (pairLane l)) XN_EVT_TRAIN_DONE).pairTo l 3))) ∧
    (c.trnState l = 2 → c.laneRetimed l = true →
      exec (.retimerTrainFail l) s = .next (s.on (((c.evt b XN_EVT_TRAIN_FAIL).evt (laneB (pairLane l)) XN_EVT_TRAIN_FAIL).pairTo l 5))) ∧
    (c.trnState l = 5 → c.laneRetimed l = true → exec (.retimerFailTimeout l) s = .next (s.on (c.pairTo l 0))) ∧
    (c.laneRetimed l = true → c.laneRuns l = true → c.trnState l = 3 ∨ c.trnState l = 4 →
      exec (.retimerRxRelock l) s = .next (s.on (((c.laneRx l true true false false false).pairRx l).laneEval l))) ∧
    (c.on b XN_PAT_CTL_CHK_EN = true → c.pwr.mode = 0 → exec (.patCheckerLock l) s = .next (s.on (c.put b XN_PAT_STAT_LOCK 1))) ∧
    (∀ n : Fin 1025, c.on b XN_PAT_CTL_CHK_EN = true → c.on b XN_PAT_STAT_LOCK = true → 64 ≤ n.val →
      exec (.patCheckerUnlock l n) s = .next (s.on (((c.patErr l n.val).put b XN_PAT_STAT_LOCK 0).evt b XN_EVT_PAT_UNLOCK))) ∧
    (c.on b XN_PAT_INJ_PERIODIC = true → c.on b XN_PAT_CTL_GEN_EN = true → c.get b XN_CTL_LPBK = 0 →
      exec (.patPeriodicInject l) s = .next (s.on (c.modLane l fun x => { x with injected := x.injected + 1 }))) ∧
    (c.on b XN_PAT_INJ_PERIODIC = true → c.on b XN_PAT_CTL_GEN_EN = true → c.get b XN_CTL_LPBK = 1 → c.on b XN_PAT_CTL_CHK_EN = true →
      c.on b XN_PAT_STAT_LOCK = true →
      exec (.patPeriodicInject l) s = .next (s.on ((c.modLane l fun x => { x with injected := x.injected + 1 }).patErr l 1)))

/-- Frames pass from the pairs and the host into Quire and out of it, credit is exchanged, stores are scrubbed and rebuilt, and
spilled frames come back (R28 to R36, R240 to R250, R266 to R305).
Readings and choices of the model in it: log entries 15, 21 to 27, 58 to 66, 72, 111, 112 and 115. -/
def Obligations.FramePathsComplete : Prop :=
  ∀ (s : State) (p : Port), let c := s.chip; let b := lpB p
    (∀ (f : Bytes) (frac cws : Nat), let r := c.qCommit (qOf 0 p (frameClass f)) { bytes := f, time := c.now + frac - c.lat p 0 }
      c.linkFlows p = true → c.lineLoop p = 0 → (c.lState p = 6 → ((c.port p).oct.cwBad.take cws).any id = false) → f.length ≤ c.get b MAC_MAXLEN_MAXLEN → fcsOk f = true → beAt f 12 2 ≠ 0x8808 → c.ptpTakes (ptpOf p) f = false →
      c.carries p = true → c.quireOn = true → r.2 = true →
      exec (.lineRxFrame p f frac cws) s = .next (s.on ((r.1.bumpLp p 0 1).bumpLp p 1 f.length))) ∧
    (∀ (f : Bytes) (frac cws : Nat), c.linkFlows p = true → c.lineLoop p = 0 → c.lState p = 6 → ((c.port p).oct.cwBad.take cws).any id = true →
      f.length ≤ c.get b MAC_MAXLEN_MAXLEN →
      exec (.lineRxFrame p f frac cws) s = .next (s.on (c.bumpLp p 4 1))) ∧
    (∀ (l : Lane) (f : Bytes) (frac : Nat) (dec : LaneDec), c.laneRetimed l = true → exec (.hostRxFrame l f frac dec) s = .next (s.on (c.retime l f))) ∧
    (∀ (f : Bytes) (frac : Nat) (dec : LaneDec), let l := hLane p
      let c := c.laneDecoded l dec
      let d := c.laneGot l f.length
      let i : Fin 16 := Fin.ofNat 16 (8 + p.val)
      c.hostMode = 0 → c.laneRetimed l = false → c.laneData l = true → c.laneLoop l = 0 → c.laneUp l = true → c.pairedPort p = true → f.length ≤ c.get b MAC_MAXLEN_MAXLEN → fcsOk f = true → beAt f 12 2 ≠ 0x8808 →
      d.ptpTakes i f = false → d.quireOn = true →
      exec (.hostRxFrame (hLane p) f frac dec) s = .next (s.on (d.commitToLine p { bytes := f, time := d.now + frac }).1)) ∧
    (∀ (frac : Nat) (q : Queue) (r : WordRead) (started : Bool), let h := (c.quire.queues[q].frames).headD {}
      let x := c.readFrame q none r started
      let e := x.1.qTake q
      c.linkFlows p = true → c.on b PCS_STAT_TX_LPI = false → ctlNext (c.bit b PFC_STAT_RX_PAUSED 7) (c.port p).link.ctlq = none → c.quireOn = true →
      c.pickClass 1 p (fun q => !c.bit b PFC_STAT_RX_PAUSED (qCls q).val) = some q → x.2 ≠ 0 →
      exec (.queueServe (Fin.ofNat 17 p.val) frac r started) s = .next (s.on
        ((if x.2 = 1 then (e.bumpLp p 2 1).bumpLp p 3 h.bytes.length else e).lineSends p (wordSeen r h.bytes) (qCls q).val (x.2 == 1) frac))) ∧
    (∀ (x : HeldRx) (t : List HeldRx), c.hgrp.heldRx.getD p.val [] = x :: t →
      exec (.reorderTimeout p) s = .next (s.on (((c.bumpHgrp 3 1).evt HGRP HGRP_EVT_SEQ_GAP).heldGo p x.seq (x :: t)))) ∧
    (∀ (d1 : Byte) (limit : BitVec 32), let d := c.bumpHgrp 7 1
      c.hostMode = 1 → c.on HGRP HGRP_STAT_GATHER_UP = true → d1.toNat % 32 / 8 = d.pos →
      exec (.creditSetRx p d1 limit (crc8 (be 1 d1.toNat ++ be 4 limit.toNat)) 0) s = .next (s.on
        (d.modQ (qOf 0 (Fin.ofNat 8 (d1.toNat % 32)) (Fin.ofNat 8 (d1.toNat / 32))) fun x => { x with limit := limit.toNat, limitSeen := true }))) ∧
    (let q : Queue := Fin.ofNat 128 (64 + c.quire.crdNext % 64)
     c.hostMode = 1 → c.on HGRP HGRP_STAT_GATHER_UP = true →
      exec (.creditSetTx true) s = .next (s.on (((((c.modQ q fun x => { x with lastSent := x.limit }).modQuire fun x => { x with
        crdTx := some ((qCls q).val, 8 * c.pos + (qPort q).val, c.quire.queues[q].limit),
        crdWire := creditSet (qCls q).val (8 * c.pos + (qPort q).val) c.quire.queues[q].limit, crdNext := (x.crdNext + 1) % 64 }).bumpHgrp 9 1).pmcEvt 1 9 1)))) ∧
    (∀ (r : WordRead) (at_ : ScrubAt) (traffic : Bool), let d := (c.pmcEvt 1 7 1).scrubOn c.scrubWord
      c.on QUIRE QUIRE_CTL_SCRUB_EN = true → c.quireOn = true → c.banks ≠ 0 → r.store = 0 →
      exec (.scrubCycle r at_ traffic) s = .next (s.on (match wordFound r with
        | .clean => d
        | .corrected => if traffic then d else d.eccCorr
        | .bad => d.scrubBad c.scrubWord at_))) ∧
    (c.on QUIRE QUIRE_STAT_REBUILD = true →
      exec .rebuildDone s = .next (s.on ((((c.put QUIRE QUIRE_STAT_REBUILD 0).evt QUIRE QUIRE_EVT_REBUILD_DONE).modQuire
        fun x => { x with unreached := 0 }).qSettle))) ∧
    (c.quire.idleHold = true → let d := (c.modQuire fun x => { x with idleHold := false }).each hostLanes Chip.laneShow
      exec .taggedIdleHoldEnd s = .next (s.on d.gatherCheck)) ∧
    (∀ (q : Fin 64) (n : BitVec 16) (y : QFrame), let i : Queue := ⟨q.val, by omega⟩
      let f : Face := if y.south then .s else .n
      let m := min n.toNat ((c.quire.queues[i]).frames.countP fun z => z.at_ f)
      let d := (c.modFace f fun z => { z with recalls := z.recalls + m }).recallShow
      ((c.quire.queues[i]).frames.find? fun z => z.spilled.isSome) = some y → m ≠ 0 → c.fSt f = 4 →
      exec (.spillRecall q n) s = .next (s.on (d.spSend f 4 (d.beyond f) (be 1 (8 * d.pos + (qPort i).val) ++ be 1 (qCls i).val ++ be 2 m))))
/-- The faces of the Spine come up, lose their clock, fall back and train again, and marks are sent and received (R313 to R322).
Readings and choices of the model in it: log entries 13, 30, 67 to 70 and 121. -/
def Obligations.SpineFacesComplete : Prop :=
  ∀ (s : State) (f : Face), let c := s.chip
    (c.spineOn = true → c.fSt f = 1 →
      exec (.spineClockPresent f) s = .next (s.on (((c.put (faceB f) SPF_STAT_CLK_OK 1).modFace f fun x => { x with announced := false }).toFace f 2))) ∧
    (c.fSt f = 2 → exec (.spineAlignDone f) s = .next (s.on ((c.toFace f 3).put (faceB f) SPF_STAT_RX_LANES 3))) ∧
    (∀ high : Bool, c.fSt f = 2 →
      exec (.spineAlignTimeout f true high) s = .next (s.on ((c.toFace f 3).put (faceB f) SPF_STAT_RX_LANES 1))) ∧
    (c.fSt f = 3 → exec (.spineHelloTimeout f) s = .next (s.on (c.toFace f 5))) ∧
    (c.fSt f = 5 → exec (.spineDownTimeout f) s = .next (s.on (c.toFace f 1))) ∧
    (c.fSt f = 4 → (c.face f).announced = true → f = .s →
      exec (.spineClockLoss f) s = .next (s.on ((c.put (faceB f) SPF_STAT_CLK_OK 0).toFace f 1))) ∧
    (c.fSt f = 4 → c.get (faceB f) SPF_STAT_RX_LANES = 3 → c.on (faceB f) SPF_CTL_FALLBACK_EN = true →
      exec (.spineLaneFail f 0xC []) s = .next (s.on ((c.modFace f fun x => { x with fallback := some 1 }).spSend f 7 (c.beyond f) (be 1 1)))) ∧
    (∀ frac : Nat, let a := c.now + frac + c.latSp true
      let d := if c.on (faceB .s) SPF_STAT_DLY_VALID then c.hopD .s else 0
      let b := be 1 1 ++ be 1 c.markFlags ++ be 1 c.spine.south.markCount ++ be 1 c.pos ++ be 12 (timeWord a) ++ be 6 (unsigned 48 c.rate) ++ be 4 d ++ be 2 0
      c.spineOn = true → c.fSt .s = 4 → c.role ≠ 3 →
      exec (.forwardMarkTx frac) s = .next (s.on ((c.modFace .s fun x =>
        { x with markTx := markBytes b, markTime := a, markCount := (x.markCount + 1) % 256 }).bumpFace .s 0 1))) ∧
    (∀ (b : Bytes) (frac : Nat) (r : BitVec 48), let d := c.bumpFace .n 1 1
      let t2 := d.now + frac - d.latSp false
      let hop := beAt b 22 4
      let coarse := (beAt b 1 1).testBit 0
      let e := (((d.modFace .n fun x => { x with echoDue := some (beAt b 2 1, t2) }).putB SPINE SPINE_STAT_UP_COARSE coarse).putB
        SPINE SPINE_STAT_UP_HOLD ((beAt b 1 1).testBit 1))
      let g := (((e.putWide (faceB .n + SPF_DLY_D.off) 2 hop).putB (faceB .n) SPF_STAT_DLY_VALID (hop != 0)).modSpine
        fun x => { x with upRate := signed 48 (beAt b 16 6), ratio := r.toInt })
      let h := if hop = 0 ∨ g.folioClk = false then g else g.follow ((t2 : Int) - (ofTimeWord (beAt b 4 12) + hop))
      c.spineOn = true → c.fSt .n = 4 →
      (markOk b = false → exec (.forwardMarkRx b frac r) s = .next (s.on (d.bumpFace .n 2 1))) ∧
      (markOk b = true → d.isTail = false ∨ beAt b 0 1 ≠ 1 → exec (.forwardMarkRx b frac r) s = .next (s.on d)) ∧
      (markOk b = true → d.isTail = true → beAt b 0 1 = 1 → exec (.forwardMarkRx b frac r) s = .next (s.on
        (if coarse then h.setCoarse else if h.fState = 5 ∧ h.on FOLIO FOLIO_STAT_COARSE then h.fine else h)))) ∧
    (∀ (frac n t2 : Nat), let b := be 1 2 ++ be 1 c.markFlags ++ be 1 n ++ be 1 c.pos ++ be 12 (timeWord (c.now + frac + c.latSp true)) ++ be 12 (timeWord t2)
      c.spine.north.echoDue = some (n, t2) → c.spineOn = true → c.fSt .n = 4 →
      exec (.echoMarkTx frac) s = .next (s.on ((c.modFace .n fun x => { x with markTx := markBytes b, echoDue := none }).bumpFace .n 0 1))) ∧
    (∀ (b : Bytes) (frac : Nat), let d := c.bumpFace .s 1 1
      let m := d.spine.south
      let rtt : Int := (((d.now + frac : Nat) - (d.latSp false : Nat) : Int) - m.markTime) - ((ofTimeWord (beAt b 4 12) : Nat) - (ofTimeWord (beAt b 16 12) : Nat))
      c.spineOn = true → c.fSt .s = 4 → markOk b = true → beAt b 0 1 = 2 → (beAt b 2 1 + 1) % 256 = m.markCount → m.dHist.length < 63 →
      exec (.echoMarkRx b frac) s = .next (s.on (d.modFace .s fun x => { x with dHist := (rtt :: m.dHist).take 64 }))) ∧
    (∀ r : BitVec 48, let d := (c.modSpine fun x => { x with ratio := r.toInt }).evt (faceB .n) SPF_EVT_MARK_LOSS
      c.isTail = true → c.on (faceB .n) SPF_STAT_CLK_OK = true →
      exec (.markLoss r) s = .next (s.on (if d.fState = 5 ∧ d.folioClk ∧ d.frozen = false then d.setServoRate d.headRate else d))) ∧
    (∀ (m : SpMsg) (n : Nat), (c.face f).out = some (m, n) → c.spHears f = true → n < 8 →
      exec (.spineMsgRetx f) s = .next (s.on ((c.modFace f fun x => { x with out := some (m, n + 1), wire := m.bytes }).bumpFace f 6 1)))

/-- Messages of the Spine are acknowledged once, acted on and relayed (R300 to R303, R323 to R333, R387, R425).
Readings and choices of the model in it: log entries 30, 71 to 77 and 118. -/
def Obligations.SpineMessagesComplete : Prop :=
  ∀ (s : State) (f : Face) (b : Bytes), let c := s.chip; let k := faceB f; let m := spParse b; let d := c.spTaken f b; let e := d.spRelay f m
    (let body := m.body
     m.typ = 1 → c.spNew f b → (match f with | .n => d.pos = beAt body 8 1 + 1 | .s => beAt body 8 1 = d.pos + 1) → (beAt body 9 1).testBit 0 = false →
      exec (.spineHelloRx f b) s = .next (s.on (((((d.put k SPF_STAT_PEER_POS (beAt body 8 1)).putB k SPF_STAT_PEER_ACTING false).modFace f
        fun x => { x with peerCount := beAt body 10 1, helloOk := true }).helloDone f).countShow))) ∧
    (∀ (o : SpMsg) (n : Nat), m.typ = 0 → spOk b = true → c.spHears f = true → (c.face f).out = some (o, n) → o.seq = m.seq → o.typ ≠ 1 → o.typ ≠ 7 →
      exec (.spineAckRx f b) s = .next (s.on (((c.bumpFace f 4 1).modFace f fun x => { x with out := none }).spGo f))) ∧
    (let body := m.body
     m.typ = 2 → c.spNew f b → d.role ≠ 3 → e.spMine m.dst = true → beAt body 3 1 < 128 → e.fromHead m.src = true →
      body.length = 4 + 4 * (beAt body 3 1 % 64) → e.binderOn = true → e.on (mbB 2) MBN_CTL_DOORBELL = false →
      exec (.mb2MsgRx f b) s = .next (s.on (e.mb2Put s.lock.bits (beAt body 0 2) (beAt body 2 1)
        ((List.range (beAt body 3 1 % 64)).map fun j => beAt body (4 + 4 * j) 4) m.src))) ∧
    (m.typ = 3 → c.spNew f b → d.role ≠ 3 → e.spMine m.dst = true →
      exec (.lendRx f b) s = .next (s.on ((e.modFace f fun x => { x with lend := 64 * beAt m.body 0 2 }).spillCheck))) ∧
    (let port := beAt m.body 0 1; let cls := beAt m.body 1 1; let key := faceKey f + port * 8 + cls % 8
     let r := recallSets (f == .s) port cls (beAt m.body 2 2) (Sparse.get e.quire.lentNext key).toNat e.quire.lent
     let g := (e.modQuire fun x => { x with lent := r.2.1, lentNext := Sparse.set x.lentNext key r.2.2.1 }).countDiscards 0 1
        (r.2.2.2.map fun x => { bytes := x.bytes })
     m.typ = 4 → c.spNew f b → d.role ≠ 3 → e.spMine m.dst = true →
      exec (.recallRx f b) s = .next (s.on ((g.modFace f fun x => { x with spillTx := r.1 }).bumpFace f 10 r.1.length))) ∧
    (c.spineOn = true → c.fSt f = 4 → spillOk b = true → beAt b 0 1 = 1 →
      exec (.spillFrameRx f b) s = .next (s.on ((c.bumpFace f 11 1).lentStore f (beAt b 1 1 * 8 + beAt b 2 1 % 8) (beAt b 4 2)
        (ofTimeWord (beAt b 8 12)) ((b.drop 20).take (b.length - 24))))) ∧
    (let g := if d.isTail ∧ m.dst = d.pos ∧ f = .n ∧ d.faceMay .s then d.spOut .s m else e
     let h := if beAt m.body 0 1 = 2 then g.resetAnnounced m.dst else g
     m.typ = 5 → c.spNew f b → d.role ≠ 3 → h.isTail = true → h.spMine m.dst = true → beAt m.body 0 1 = 1 ∨ beAt m.body 0 1 = 2 →
      exec (.stackResetRx f b) s = .next (s.on (h.modSpine fun x => { x with resetDue := some (beAt m.body 0 1) }))) ∧
    (∀ straps : BitVec 8, c.spine.resetDue = some 1 →
      exec (.stackResetAct straps) s = .next (s.on (((c.modSpine fun x => { x with resetDue := none }).put GLB GLB_RST_CAUSE_STACK_GLB 1).glbReset))) ∧
    (m.typ = 6 → c.spNew f b → d.role ≠ 3 → m.src ≠ m.dst → e.spMine m.dst = true → e.isTail = true → e.fromHead m.src = true →
      beAt m.body 0 1 = 1 ∨ beAt m.body 0 1 = 2 →
      exec (.powerRx f b) s = .next (s.on (e.pwrRequest (beAt m.body 0 1 + 1) (beAt m.body 1 2) 3))) ∧
    (c.spine.stopDue = true →
      exec .southClockStop s = .next (s.on ((c.modSpine fun x => { x with stopDue := false }).modFace .s fun x => { x with clkTx := false, stopped := true }))) ∧
    (let lanes := beAt m.body 0 1 % 4
     m.typ = 7 → c.spNew f b → d.role ≠ 3 → e.spMine m.dst = true → lanes ≠ 0 →
      exec (.fallbackRx f b) s = .next (s.on (((e.put k SPF_STAT_TX_LANES lanes).evt k SPF_EVT_FALLBACK).delayAnew f))) ∧
    (let p := beAt m.body 0 1
     m.typ = 8 → c.spNew f b → d.role ≠ 3 → e.spMine m.dst = true → 1 ≤ p → p ≤ 3 →
      exec (.alertRx f b) s = .next (s.on (e.putBit SPINE SPINE_TAIL_ALERT_ALERT (p - 1) (beAt m.body 1 1 % 2 == 1)))) ∧
    (let p := beAt m.body 0 1; let g := d.promotePass f
     let h := if g.role = 3 then g else match g.spOnward f m.dst with
        | some x => (if g.fSt x = 4 then g.promotePass x else g).spOut x m
        | none => g
     m.typ = 9 → p ≠ 0 → c.spNew f b → h.spMine m.dst = true →
      exec (.promoteRx f b) s = .next (s.on (h.modSpine fun x => { x with acting := p }))) ∧
    (c.role = 1 → c.pos = 1 → c.on SPINE SPINE_CTL_STACK_PROMOTE = true → c.on (faceB .n) SPF_STAT_CLK_OK = false → c.spine.north.announced = false →
      exec .promotionTimeout s = .next (s.on (((((c.put SPINE SPINE_STAT_ROLE 2).countShow).modSpine fun x => { x with acting := c.pos }).spPromote .s 1).ownSource)))

/-- Loops, sources, monitors, levels and islands act, and posted writes of the clock, power and sensor blocks take effect
(R357, R391 to R418, R421, R423, R425, R529).
Readings and choices of the model in it: log entries 79 and 99. -/
def Obligations.ClockEventsComplete : Prop :=
  ∀ s : State, let c := s.chip
    (∀ k : Fin 4, k = 0 ∨ k = 3 →
      exec (.sourceStable k) s = .next (s.on (c.modClk fun x => { x with stable := setB x.stable k.val true }))) ∧
    (∀ k : Fin 6, c.loopNeed k.val = true → c.refOk k.val = true →
      exec (.loopLock k) s = .next (s.on (c.modClk fun x => { x with lock := setB x.lock k.val true, hold := setB x.hold k.val false }))) ∧
    (∀ k : Fin 6, c.clk.lock.testBit k.val = true → k ≠ 0 → c.loopRuns k.val = false →
      exec (.loopReady k) s = .next (s.on ((c.modClk fun x => { x with ready := setB x.ready k.val true, run := setB x.run k.val true }).startBlocks k.val))) ∧
    (∀ k : Fin 6, c.clk.lock.testBit k.val = true → k = 5 ∨ c.refOk k.val = true →
      exec (.loopUnlock k) s = .next (s.on (((c.modClk fun x => { x with lock := setB x.lock k.val false, ready := setB x.ready k.val false, run := setB x.run k.val false }).evt CLK CLK_EVT_LOOP_UNLOCK).stopBlocks k.val))) ∧
    (∀ (k : Fin 3) (w : Posted), c.fab.posted[k] = some w → let m := BitVec.ofNat 16 w.mask; let d := BitVec.ofNat 16 w.data
      let e := c.modFab fun x => { x with posted := x.posted.set k.val none }
      exec (.postedWriteComplete k) s = .next (s.on (Chip.wroteAon e (e.merge w.addr m d) w.addr m (m &&& d)))) ∧
    (∀ w : Posted, c.fab.posted[(0 : Fin 3)] = some w → w.addr = 0x1000 ∨ w.addr = 0x1001 →
      let e := c.modFab fun x => { x with posted := x.posted.set 0 none }
      exec .clockEnableChange s = .next (s.on ((e.merge w.addr (BitVec.ofNat 16 w.mask) (BitVec.ofNat 16 w.data)).enWritten (e.reg CLK) (e.reg (CLK + 1))))) ∧
    (∀ k : Fin 8, 2 ≤ k.val → k.val ≤ 4 → c.pwr.mode = 0 → c.islandOn k.val = false → c.islandNeed k.val = true →
      exec (.islandPowerUp k) s = .next (s.on ((c.putBit PWR PWR_ISLANDS_ON k.val true).startBlocks k.val))) ∧
    (exec .switchForced s = .next (s.on (c.evt CLK CLK_EVT_SWITCH_FORCED))) ∧
    (∀ count : Nat, let d := c.put CLK CLK_MON_XA_COUNT (satU 10 count)
      c.on CLK CLK_MON_CTL_XA_EN = true → c.monRuns = true → c.clk.stable.testBit 0 = true → c.on CLK CLK_MON_STAT_VS_XB = true → d.windowFails count 250 = false →
      exec (.xaWindowEnd count) s = .next (s.on (d.modClk fun x => { x with xaFails := 0, xaPasses := min 16 (x.xaPasses + 1) }))) ∧
    (∀ count : Nat, let d := c.put CLK CLK_MON_XB_COUNT (satU 10 count)
      c.on CLK CLK_MON_CTL_XB_EN = true → c.monRuns = true → c.clk.xaFails = 0 → c.on CLK CLK_MON_STAT_VS_XB = false → c.on CLK CLK_MON_STAT_XA_FAIL = false →
      d.windowFails count 192 = false →
      exec (.xbWindowEnd count) s = .next (s.on (d.modClk fun x => { x with xbFails := 0, xbPasses := min 16 (x.xbPasses + 1) }))) ∧
    (∀ count : Nat, c.pwr.mode = 2 ∨ c.pwr.mode = 3 → c.on CLK CLK_MON_CTL_XB_EN = true → c.on CLK CLK_MON_STAT_XB_FAIL = false → 9600 ≤ count → count ≤ 28800 →
      exec (.xbSleepWindowEnd count) s = .next (s.on (c.modClk fun x => { x with xbFails := 0 }))) ∧
    (let r := c.get CLK CLK_MON_REF_REF; let n := c.clk.refCnt
     c.clk.learned = true → n ≠ 0 → c.on CLK CLK_MON_STAT_XA_FAIL = false → r * n < c.clk.refSum → n ≤ c.clk.refSum - r * n →
      exec .refUpdate s = .next (s.on ((c.put CLK CLK_MON_REF_REF (satU 10 (r + 1))).modClk fun x => { x with refSum := 0, refCnt := 0 }))) ∧
    (c.on CLK CLK_MON_STAT_XA_FAIL = true → c.clk.xaPasses = 16 → exec (.sourceRecovered false) s = .next (s.on c.recoverXa)) ∧
    (∀ w : Posted, c.fab.posted[(0 : Fin 3)] = some w → w.addr = 0x1020 →
      exec .clkResume s = .next (s.on ((c.postDone 0).autoResume))) ∧
    (∀ w : Posted, c.fab.posted[(0 : Fin 3)] = some w → w.addr = 0x1031 → let e := c.modFab fun x => { x with posted := x.posted.set 0 none }
      exec .clkEvtClr s = .next (s.on ((e.merge 0x1031 (BitVec.ofNat 16 w.mask) (BitVec.ofNat 16 w.data)).clkEvtClear))) ∧
    (∀ w : Posted, c.fab.posted[(0 : Fin 3)] = some w → w.addr = 0x1040 → BitVec.ofNat 16 w.mask &&& CLK_LEVEL_TARGET.mask ≠ 0 →
      let e := c.modFab fun x => { x with posted := x.posted.set 0 none }
      exec .levelChangeStart s = .next (s.on ((e.merge 0x1040 (BitVec.ofNat 16 w.mask) (BitVec.ofNat 16 w.data)).levelWritten))) ∧
    (∀ t : Nat, c.clk.levelTo = some t → c.clk.levelNext = none → c.halted = false →
      exec .pgoodHigh s = .next (s.on (((((c.modClk fun x => { x with levelTo := none, levelNext := none, div := t }).put CLK CLK_LEVEL_ACTUAL t).put
        CLK CLK_LEVEL_BUSY 0).put CLK CLK_LEVEL_VHIGH 0).evt CLK CLK_EVT_LEVEL_DONE))) ∧
    (∀ t : Nat, c.clk.levelTo = some t → c.halted = false → let a := c.get CLK CLK_LEVEL_ACTUAL
      exec .pgoodTimeout s = .next (s.on ((((((c.modClk fun x => { x with levelTo := none, levelNext := none, vsel := max t a, vselAt := some c.tpll, div := min t a }).put CLK CLK_LEVEL_ACTUAL (min t a)).put CLK CLK_LEVEL_TARGET (min t a)).put CLK CLK_LEVEL_BUSY 0).put CLK CLK_LEVEL_VHIGH 1).evt
        CLK CLK_EVT_PGOOD_FAIL))) ∧
    (c.clk.levelTo = none → exec .pgoodLow s = .next (s.on (c.evt CLK CLK_EVT_PGOOD_FAIL))) ∧
    (∀ w : Posted, c.fab.posted[(1 : Fin 3)] = some w → w.addr = 0x2000 → exec .pwrReq s = .next (s.on (c.postDone 1))) ∧
    (∀ w : Posted, c.fab.posted[(2 : Fin 3)] = some w → w.addr = 0x7013 → let e := c.modFab fun x => { x with posted := x.posted.set 2 none }
      exec .snsEvtClr s = .next (s.on ((e.merge 0x7013 (BitVec.ofNat 16 w.mask) (BitVec.ofNat 16 w.data)).snsEvtClear)))

/-- Sleep entries, wakes, resets and the loss of supply act (R420 to R446, R512, R518).
Readings and choices of the model in it: log entries 78, 95 and 100. -/
def Obligations.PowerEventsComplete : Prop :=
  ∀ s : State, let c := s.chip
    (∀ r : PwrReqSt, c.pwr.req = some r → c.cal.mtpq = [] → c.mbRunning = none →
      exec (.sleepDelayExpiry []) s = .next (s.on ((if r.target = 1 then c.dozeEnter else c.sleepEnter r.target).wakeSources [] true))) ∧
    (c.pwr.mode = 1 → c.pwr.dozeDue = true → exec .dozeExit s = .next (s.on c.dozeLeave)) ∧
    (∀ temps rails : List (BitVec 16), let d := c.sensorsSeen temps rails
      c.pwr.mode = 3 → c.pwr.wake = none → c.on PWR PWR_WATCH_PAIRS_SENSE = true →
      (∀ k < 14, ∀ w, (if k < 8 then temps[k]? else rails[k - 8]?) = some w →
        signed 16 (d.get (bk k PWR) PWR_THR_LO_LOW) ≤ signed 16 w.toNat ∧ signed 16 w.toNat ≤ signed 16 (d.get (bk k PWR) PWR_THR_HI_HIGH)) →
      exec (.watchPeriod temps rails) s = .next (s.on d)) ∧
    (∀ (i : Fin 4) (rising : Bool), c.bit PWR PWR_WAKE_SRC_CAP_EDGE i.val ≠ rising →
      exec (.capWakeEdge i rising) s = .next (s.on (c.wakeSource (3 + i.val) 0))) ∧
    (exec .spineWakeClock s = .next (s.on (c.wakeSource 8 0))) ∧
    (∀ l : List (Fin 11 × Fin 16), exec (.wakeStart l) s = .next (s.on (c.wakeSources (l.map fun x => (x.1.val, x.2.val)) false))) ∧
    (∀ errs : List (Fin 4 × Fin 8192 × BitVec 145), let d := c.keepCheck errs
      c.pwr.wake = some 2 → c.pwr.pinDue = false → d.pwr.pinDue = false →
      exec (.wakeStepReady errs) s = .next (s.on ((d.put PWR PWR_WAKE_STEP_MEM 1).modPwr fun x => { x with wake := some 3 }))) ∧
    (c.pwr.mode ≠ 4 → exec .rstNAssert s = .next (s.on c.pinAssert)) ∧
    (∀ straps : BitVec 8, c.pwr.rstLow = true →
      exec (.rstNRelease straps) s = .next (s.on ((c.modPwr fun x => { x with rstLow := false, rdy := decide (x.mode ≤ 1) }).strapSample straps))) ∧
    (∀ (straps : BitVec 8) (bad : List Nat) (fails : List (Nat × Nat × Nat)) (second : List Nat) (stores : Bool),
      exec (.powerOnReset straps bad fails second stores) s = .next { s with chip := c.powerOn straps bad fails second stores, lock := {} }) ∧
    (exec .supplyFail s = .next { s with chip := c.powerOff, lock := {} })

/-- Calibration, ageing and the NVM queue act (R452 to R472).
Readings and choices of the model in it: log entries 80 to 88. -/
def Obligations.CalibrationEventsComplete : Prop :=
  ∀ (s : State) (t : Fin 24), let c := s.chip
    (∀ (vals : List (BitVec 8 × BitVec 16)) (eye : BitVec 16), t.val < 8 → c.bgSignal t = true →
      exec (.bgTargetUpdate t vals eye) s = .next (s.on (c.each vals fun c (x : BitVec 8 × BitVec 16) =>
        if x.1.toNat < trimCount t then c.modCal fun y => { y with tgt := y.tgt.set (256 * t + x.1.toNat) (trimClip t x.1.toNat x.2.toInt) } else c))) ∧
    (exec .bgTrimStep s = .next (s.on (c.each ((List.range 24).filter c.bgOn) fun c t =>
      c.each (List.range (trimCount t)) fun c i =>
        let v := c.cal.cur.get (256 * t + i)
        let g := c.cal.tgt.get (256 * t + i)
        let w := if v < g then v + 1 else if g < v then v - 1 else v
        if w = v then c else (c.modCal fun x => { x with cur := x.cur.set (256 * t + i) w }).bgLimit t i v w))) ∧
    (let us := (c.tpll - ((c.cal.running.find? fun r => r.1 == t.val).map (·.2)).getD 0) / 1250
     let d := ((c.put CAL CAL_FG_TIME_TIME (min 65535 us)).modCal fun x => { x with temps := x.temps.set t c.tempMax, lastFg := x.lastFg.set t x.runCyc }).calEnd t 1
     8 ≤ t.val → c.calRuns t = true →
      exec (.calFgEnd t []) s = .next (s.on
        (((d.putBit CAL CAL_BG_DUE_L_DUE (t - 8) false).modLane (calLaneOf t) fun x => { x with fgCal := false }).laneEval (calLaneOf t)))) ∧
    (∀ (w : MtpWrite) (l : List MtpWrite), c.cal.mtpq = w :: l →
      let seq := ((c.mtpSlots w.record).head?.map (·.seq)).getD 0
      exec (.mtpWriteDone true) s = .next (s.on (((c.modCal fun x => { x with
        mtpq := l, writes := x.writes.set w.record (x.writes.get w.record + 1),
        mtp := slotPut x.mtp (c.mtpPlace w.record) { words := w.words, seq := (seq + 1) % 65536, good := true } }).putB CAL CAL_FG_STAT_SAVE_BUSY (!l.isEmpty)).entryDue))) ∧
    (∀ temp : Bool, c.pwr.mode = 0 → c.get CAL CAL_SCHED_INT_VALUE ≠ 0 → c.cal.sched = none → c.calDue t temp = true → c.calReady t = true →
      ((List.range t.val).all fun u => !c.calReady u) = true →
      let x := c.calStart t
      exec (.calSchedulerDue t temp) s = .next (s.on (x.1.modCal fun y => { y with
        sched := if x.2 = 0 then some t.val else none, held := if x.2 = 2 then y.held.set t (1 + c.calKey t) else y.held }))) ∧
    (∀ d : List Int, c.pwr.mode = 0 → exec (.ageingHourlyStep d) s = .next (s.on
      ((c.modAge fun x => let h := max c.tempMax (x.tHour.getD c.tempMax)
        { x with d := agePairs.map fun (a, n) => maxOf ((d.drop a).take n), sums := Vector.ofFn fun i => x.sums[i].turn (c.ageMargin i.val), tMax := if x.tN = 0 then h else max x.tMax h, tSum := x.tSum + h, tN := x.tN + 1, tHour := none }).each
        ([0, 1, 2, 3] : List (Fin 4)) (Chip.propTry (s.lock.bits.getLsbD 1))))) ∧
    (let n := match c.age.log with | r :: _ => (r.slot + 1) % 16 | [] => 0
     let r : HourRec := { hours := c.hours, l2 := c.hoursL2, sums := c.age.sums, temp := (c.age.tSum, c.age.tN, c.age.tMax), slot := n }
     exec .hourLogWrite s = .next (s.on
      ((c.modAge fun x => { x with log := (r :: x.log.filter fun y => y.slot != n) }).mtpAdd { record := 0x60 + n, words := [r.hours, r.l2] }))) ∧
    (exec .ledgerEntry s = .next (s.on c.ledgerEntry)) ∧
    (∀ (a : AgeProp) (before after : Nat), c.age.props[(0 : Fin 4)] = some a → a.kind = 1 → a.approved = true → before + 5000 ≤ after →
      exec (.vguardCheck before after) s = .next (s.on ((c.modAge fun x => { x with guard := min 4 (x.guard + 1) }).ageTaken 0 a)))

/-- Self test, the TAP, the Roll engines, the privileged counters and the sensors act (R482 to R494, R503 to R506, R527, R528).
Readings and choices of the model in it: log entries 71 and 90 to 95. -/
def Obligations.TestEventsComplete : Prop :=
  ∀ s : State, let c := s.chip
    (c.get BIST BIST_STAT_PHASE = 1 → exec .bistDrainEnd s = .next (s.on (c.bistDiscard.put BIST BIST_STAT_PHASE 2))) ∧
    (∀ (t count : Nat) (sig : BitVec 32) (sigOk : Bool), let b := bk t BIST; let want := 10 * bistWords t
      let d := ((c.putWide (b + BIST_COUNT_VALUE.off) 2 (c.wide (b + BIST_COUNT_VALUE.off) 2 + min count want)))
      let e := d.putWide (b + BIST_SIG_VALUE.off) 2 sig.toNat
      c.bist.run = some t → c.get BIST BIST_STAT_PHASE = 3 →
      exec (.bistPassEnd count [] sig sigOk) s = .next (s.on (((e.modBist fun x => { x with passes := x.passes + 1, sigBad := x.sigBad || !sigOk }).modBist
        fun x => { x with bad := x.bad || false }).put BIST BIST_STAT_PHASE 4))) ∧
    (∀ code : Byte, let n := tapInstr code.toNat
      exec (.tapInstructionUpdate code) s = .next (s.on
        (((c.put TAP TAP_STAT_INSTR n).putB TAP TAP_STAT_CORE_OFF ([0x00, 0x04, 0x05, 0x08, 0x09].contains n)).put TAP TAP_STAT_TLR 0))) ∧
    (exec .tapReset s = .next (s.on (((c.put TAP TAP_STAT_INSTR 0x01).put TAP TAP_STAT_CORE_OFF 0).put TAP TAP_STAT_TLR 1))) ∧
    (∀ e : Fin 26, c.rollOn = true → c.on (bk e.val ROLL) ROLL_CTL_EN = true → c.rollSelects e (.symbol true) = true → (c.rollActs e).2 = true →
      exec (.rollEngineEvent e (.symbol true)) s = .next (s.on (((c.rollActs e).1.modRoll e fun r =>
        { r with altered := (c.rollActs e).1.get (bk e.val ROLL) ROLL_PARAM_PARAM }).rollBump e ROLL_HITS_COUNT.off))) ∧
    (∀ (e : Fin 26) (h : RollHeld) (l : List RollHeld), (c.bist.engines[e]).held = h :: l →
      exec (.rollHoldRelease e) s = .next (s.on (c.modRoll e fun r => { r with held := l, delaying := r.delaying && !l.isEmpty, out := [h.bytes] }))) ∧
    (∀ (u : Fin 2) (k : Fin 8) (n : BitVec 32), c.bit (pmcB u) PMC_CTL_EN k.val = true → c.pmcChained u k.val = false →
      c.get (pmcB u + k.val) PMC_SEL_EVENT ≠ 0 → 2 ^ 32 ≤ c.wide (pmcB u + PMC_CNT_COUNT.off + 2 * k.val) 2 + n.toNat →
      exec (.pmcOverflow u k n) s = .next (s.on (c.pmcAdd u k.val n.toNat))) ∧
    (∀ temps rails : List (BitVec 16), c.pwr.mode ≤ 1 → exec (.sensorUpdate temps rails) s = .next (s.on (c.sensorsSeen temps rails)))

/-- The commands of links, Octavo, PIP and the host interface run to their end or start their job
(11_binder_mailboxes.md R364, R370, R374, R380, R383).
Readings and choices of the model in it: log entries 97 and 98. -/
def Obligations.LinkCommandsComplete : Prop :=
  ∀ (s : State) (m : Fin 4) (r : MbReq), let c := s.chip; let k := s.lock; let p := portNo (r.p 0); let b := lpB p
    (let x := breads k [(b + LINK_STAT_STATE.off, 1), (b + AN_STAT_RESOLVED.off, 1), (b + LM_STAT_SNR_MARGIN.off, 1), (b + OCT_STAT_PHASE.off, 1),
        (b + PCS_STAT_BLOCK_LOCK.off, 1)] (c, 0)
     c.cmdNow 0x0101 = some (m, r) → x.1.2 = 0 → exec .linkInfo s = .next (s.done m r 0 (x.1.1, x.2))) ∧
    (let x := runEach (portsOf (r.p 0)) (fun p => bput k (lpB p) PMA_CTL_ENABLE ((r.p 1).testBit p.val).toNat) (c, 0)
     c.cmdNow 0x0102 = some (m, r) → x.2 = 0 → exec .linkEnable s = .next (s.done m r 0 (x.1, []))) ∧
    (let x := runEach (portsOf (r.p 0)) (fun p => bput k (lpB p) LINK_CTL_RESTART 1) (c, 0)
     c.cmdNow 0x0103 = some (m, r) → x.2 = 0 → exec .linkRestart s = .next (s.done m r 0 (x.1, []))) ∧
    (let x := bwr k (b + AN_ADV_ADV_EEE.off) 0xFFFF (BitVec.ofNat 16 (r.p 2)) (bput k b LINK_CTL_MODE_SEL (r.p 1) (c, 0))
     c.cmdNow 0x0104 = some (m, r) → x.2 = 0 → exec .linkMode s = .next (s.done m r 0 (x.1, []))) ∧
    (c.cmdNow 0x0105 = some (m, r) → exec .linkWaitUp s = .next (s.jobbed m r [] c)) ∧
    (let w := fun (f : Fld) (n : BitVec 16) (i : Nat) => bwr k (b + f.off) n (BitVec.ofNat 16 (r.p i))
     let x := w OCT_SWAP_TRIG 0xFFFF 4 (w OCT_MARGIN_TARGET 0xFFFF 3 (w OCT_PART_TX_RATE 0xFFFF 2 (w OCT_CTL_DUPLEX 0x7F 1 (c, 0))))
     c.cmdNow 0x0106 = some (m, r) → x.2 = 0 → exec .octConfig s = .next (s.done m r 0 (x.1, []))) ∧
    (let x := bput k b OCT_CTL_RELOAD 1 (c, 0)
     c.cmdNow 0x0107 = some (m, r) → c.showtime p = true → c.reloadHeld p = 0 → x.2 = 0 → exec .octReload s = .next (s.jobbed m r [] x.1)) ∧
    (let tone := fun (z : Run × Nat) (j : Nat) =>
        if 2039 < r.p 1 + j then z
        else let v := withSel b OCT_TONE_SEL_TONE (r.p 1 + j) (bread k (b + OCT_TONE_BITS_RX_BITS.off) 1) z.1; (v.1, z.2 + v.2 % 16 * 16 ^ j)
     let x := (List.range 8).foldl tone ((c, 0), 0)
     c.cmdNow 0x0108 = some (m, r) → 1 ≤ r.p 2 → r.p 2 ≤ 8 → x.1.2 = 0 → exec .octTones s = .next (s.done m r 0 (x.1.1, [x.2]))) ∧
    (let x := (bread k (b + PIP_CTL_EN.off) 1 (c, 0)).1
     c.cmdNow 0x0109 = some (m, r) → x.2 = 0 → exec .pipDiag s = .next (s.jobbed m r []
       ((x.1.modPip p fun y => { y with rpt := [] }).pipRequest p 9 PIP_CTL_DIAG_REQ (be 1 (r.p 1) ++ ((r.par.drop 3).flatMap (be 4)).take (r.p 2))))) ∧
    (let x := runEach (portsOf (r.p 0)) (fun p x => bput k (lpB p) PIP_CTL_WAKE_REQ 1 (bput k (lpB p) PIP_WAKE_BURST (r.p 1) x)) (c, 0)
     c.cmdNow 0x010A = some (m, r) → x.2 = 0 → exec .pipWake s = .next (s.done m r 0 (x.1, []))) ∧
    (let x := runEach allLanes (fun l => bput k (laneB l) XN_CTL_ENABLE 0) (c, 0)
     let y := runEach allLanes (fun l => bput k (laneB l) XN_CTL_RATE (r.p 2 / 4 ^ l.val % 4)) (bput k HGRP HGRP_MODE_MODE (r.p 0) x)
     let z := runEach (allLanes.filter fun l => (r.p 1).testBit l.val) (fun l => bput k (laneB l) XN_CTL_ENABLE 1) y
     c.cmdNow 0x010B = some (m, r) → z.2 = 0 → exec .hostMode s = .next (s.jobbed m r [] z.1)) ∧
    (let b := laneB (laneNum (r.p 0))
     let x := breads k [(b + XN_STAT_UP.off, 1), (b + XN_TRN_STAT_STATE.off, 1), (b + XN_EYE_HEIGHT.off, 1), (b + XN_CTL_ENABLE.off, 1)] (c, 0)
     c.cmdNow 0x010C = some (m, r) → x.1.2 = 0 → exec .laneInfo s = .next (s.done m r 0 (x.1.1, x.2)))

/-- The commands of time run to their end or start their job (11_binder_mailboxes.md R370, R374, R383).
Readings and choices of the model in it: log entries 97 and 98. -/
def Obligations.TimeCommandsComplete : Prop :=
  ∀ (s : State) (m : Fin 4) (r : MbReq), let c := s.chip; let k := s.lock
    (let x := breads k [(FOLIO + FOLIO_TIME_TIME.off, 6), (FOLIO + FOLIO_STAT_STATE.off, 1)] (c, 0)
     c.cmdNow 0x0201 = some (m, r) → x.1.2 = 0 → exec .timeGet s = .next (s.done m r 0 (x.1.1, tWords (x.2.getD 0 0) ++ x.2.drop 1))) ∧
    (let x := bput k FOLIO FOLIO_CMD_SET 1 (bwide k (FOLIO + FOLIO_SET_VALUE.off) 6 (ofT (r.p 0) (r.p 1) (r.p 2) (r.p 3)) (c, 0))
     c.cmdNow 0x0202 = some (m, r) → x.2 = 0 → exec .timeSet s = .next (s.done m r 0 (x.1, []))) ∧
    (let x := bput k FOLIO FOLIO_CMD_ADD 1 (bwide k (FOLIO + FOLIO_ADD_VALUE.off) 4 (r.p 0 * 2 ^ 32 + r.p 1) (c, 0))
     c.cmdNow 0x0203 = some (m, r) → x.2 = 0 → exec .timeAdd s = .next (s.done m r 0 (x.1, []))) ∧
    (let x := bread k (FOLIO + FOLIO_STAT_STATE.off) 1 (c, 0)
     let old := bread k (FOLIO + FOLIO_RATE_RATE.off) 3 x.1
     let d := (r.p 2 * 2 ^ 56 / 1000000000 : Nat) * (signed 64 (r.p 0 * 2 ^ 32 + r.p 1)).sign
     let new := bread k (FOLIO + FOLIO_RATE_RATE.off) 3 (bwide k (FOLIO + FOLIO_RATE_RATE.off) 3 (unsigned 48 (signed 48 old.2 + d)) old.1)
     c.cmdNow 0x0204 = some (m, r) → x.1.2 = 0 → x.2 % 8 = 1 → new.1.2 = 0 →
     exec .timeSlew s = .next (s.jobbed m r [signed 48 old.2, signed 48 new.2 - signed 48 old.2, d] new.1.1)) ∧
    (let x := bread k (FOLIO + FOLIO_RATE_RATE.off) 3 (bwide k (FOLIO + FOLIO_RATE_RATE.off) 3 (r.p 0 * 2 ^ 32 + r.p 1) (c, 0))
     c.cmdNow 0x0205 = some (m, r) → x.1.2 = 0 → exec .timeRate s = .next (s.done m r 0 (x.1.1, hiLo x.2))) ∧
    (let x := bwr k (FOLIO + FOLIO_CTL_SRC.off) 0x3FF (BitVec.ofNat 16 (r.p 0)) (c, 0)
     c.cmdNow 0x0206 = some (m, r) → x.2 = 0 → exec .timeSource s = .next (s.done m r 0 (x.1, []))) ∧
    (c.cmdNow 0x0207 = some (m, r) → exec .timeWaitLock s = .next (s.jobbed m r [] c)) ∧
    (let o : Fin 4 := Fin.ofNat 4 (r.p 0); let x := evtArm k r (c, 0)
     c.cmdNow 0x0208 = some (m, r) → ((evtArm k r (c.outStop o, 0)).1.1.folio.outs[o]).armed = true → x.1.2 = 0 →
     exec .evtArm s = .next (s.done m r 0 (x.1.1, [x.2]))) ∧
    (let x := (bread k (FOLIO + FOLIO_CAP_STAT_LEVEL.off) 1 (c, 0)).1; let y := capMany (Fin.ofNat 4 (r.p 0)) x.1 [] (r.p 1)
     c.cmdNow 0x0209 = some (m, r) → x.2 = 0 →
     exec .capRead s = .next (s.done m r 0 (y.1, [y.2.length + 256 * ofBits (y.2.map (·.2))] ++ y.2.flatMap fun v => tWords v.1))) ∧
    (let b := lpB (portNo (r.p 0))
     let x := breads k [(b + TS_STAT_AS_CAPABLE.off, 1), (b + TS_PDLY_PDLY.off, 2), (b + DLY_TX_TX.off, 2), (b + DLY_RX_RX.off, 2), (b + DLY_STAT_USED.off, 1)] (c, 0)
     c.cmdNow 0x020A = some (m, r) → x.1.2 = 0 → exec .portTime s = .next (s.done m r 0 (x.1.1, x.2)))

/-- The commands of diagnosis run to their end or start their job (11_binder_mailboxes.md R370, R374, R376, R383).
Readings and choices of the model in it: log entries 97 and 98. -/
def Obligations.DiagnosticCommandsComplete : Prop :=
  ∀ (s : State) (m : Fin 4) (r : MbReq), let c := s.chip; let k := s.lock
    (let p := portNo (r.p 0); let x := bput k (lpB p) DIAG_CTL_TDR_START 1 (c, 0)
     c.cmdNow 0x0301 = some (m, r) → (c.lState p = 8 ∨ c.lState p = 9 ∨ c.lState p = 10) → x.2 = 0 → exec .tdrRun s = .next (s.jobbed m r [] x.1)) ∧
    (let x := runEach (portsOf (r.p 0)) (fun p => bput k (lpB p) DIAG_CTL_E_CLR 1) (c, 0)
     c.cmdNow 0x0302 = some (m, r) → x.2 = 0 → exec .delayClear s = .next (s.done m r 0 (x.1, []))) ∧
    (let x := breads k [(REGB + REG_ERRLOG_CAUSE_CAUSE.off, 1), (REGB + REG_ERRLOG_ADDR_ADDR.off, 2), (REGB + REG_ERRLOG_CNT_CNT.off, 1)] (c, 0)
     let y := bput k REGB REG_ERRLOG_CAUSE_VALID 1 x.1
     c.cmdNow 0x0303 = some (m, r) → (r.p 0 % 2 = 1 → y.2 = 0) → x.1.2 = 0 →
     exec .errlog s = .next (s.done m r 0 (if r.p 0 % 2 = 1 then y.1 else x.1.1, x.2))) ∧
    (let x := breads k ((List.range (r.p 2)).map fun i => (0x1000 * r.p 0 + r.p 1 + 4 * i, 3)) (c, 0)
     c.cmdNow 0x0304 = some (m, r) → x.1.2 = 0 → exec .ctrSnapshot s = .next (s.done m r 0 (x.1.1, x.2.flatMap fun v => [v % 2 ^ 32, v / 2 ^ 32]))) ∧
    (let x := breads k ((List.range 8).map (fun k => (SNS + SNS_TEMP_TEMP.off + k, 1)) ++ (List.range 6).map fun k => (SNS + SNS_RAIL_MV.off + k, 1)) (c, 0)
     c.cmdNow 0x0305 = some (m, r) → x.1.2 = 0 → exec .sensors s = .next (s.done m r 0 (x.1.1, (x.2.take 8).map sext ++ x.2.drop 8))) ∧
    (let x := breads k [(GLB + GLB_ALERT_SRC.off, 2), (GLB + GLB_NME_NME_CLK.off, 1)] (c, 0)
     c.cmdNow 0x0306 = some (m, r) → x.1.2 = 0 → exec .alerts s = .next (s.done m r 0 (x.1.1, x.2))) ∧
    (let j : Fin 8 := Fin.ofNat 8 (r.p 0); let b := jobB j
     c.cmdNow 0x0307 = some (m, r) → exec .jobRead s = .next (s.done m r 0 (if r.p 1 % 2 = 1 then c.jobRelease j else c,
       [(c.reg (b + MBX_JOB_STAT_STATE.off)).toNat, c.get b MBX_JOB_CMD_ID * 2 ^ 16 + c.get b MBX_JOB_CTL_TAG] ++
         (List.range 30).map fun i => c.wide (b + MBX_JOB_RES_DATA.off + 2 * i) 2))) ∧
    (let x := breads k [(QUIRE + QUIRE_STAT_BANKS.off, 1), (QUIRE + QUIRE_BANK_OK_OK.off, 2), (QUIRE + QUIRE_ECC_ADDR_ADDR.off, 2),
        (QUIRE + QUIRE_ECC_KIND_STORE.off, 1), (QUIRE + 0x60, 1)] (c, 0)
     c.cmdNow 0x0308 = some (m, r) → x.1.2 = 0 → exec .quireHealth s = .next (s.done m r 0 (x.1.1, x.2))) ∧
    (let x := breads k [(GLB + GLB_ID_PART.off, 1), (GLB + GLB_STEP_STEP.off, 1), (GLB + GLB_ROM_MINOR.off, 1), (GLB + GLB_SERIAL_SERIAL.off, 3),
        (GLB + GLB_STRAP_POS.off, 1)] (c, 0)
     let n := x.2.getD 3 0
     c.cmdNow 0x0309 = some (m, r) → x.1.2 = 0 →
     exec .identify s = .next (s.done m r 0 (x.1.1, x.2.take 3 ++ [n / 2 ^ 32 % 256, n % 2 ^ 32, x.2.getD 4 0 % 4]))) ∧
    (∀ (j : Fin 8) (limit ok : Bool) (a : Ans), c.binderOn = true → c.jobState j = 1 →
     c.jobResult k c.binder.jobs[j].req c.binder.jobs[j].keep limit ok = some a →
     exec (.jobEnd j limit ok) s = .next (s.on (a.1.jobDone j a.2.1 a.2.2))) ∧
    (c.binderOn = true → c.mbRunning = none → exec .binderWatchdog s = .next (s.on
      ((((((c.jobsEnd 10).put MBX MBX_WDOG_CNT (satU 8 (c.get MBX MBX_WDOG_CNT + 1))).evt MBX MBX_EVT_WDOG).mbServe k.bits)).entryDue)))

/-- The commands of calibration and ageing run to their end or start their job (11_binder_mailboxes.md R370, R374, R383).
Readings and choices of the model in it: log entries 97 and 98. -/
def Obligations.CalibrationCommandsComplete : Prop :=
  ∀ (s : State) (m : Fin 4) (r : MbReq), let c := s.chip; let k := s.lock
    (let x := (bread k (lpB (portNo (r.p 0)) + PMA_STAT_SIGNAL_DET.off) 1 (c, 0)).1; let y := x.1.calStart (r.p 0)
     c.cmdNow 0x0401 = some (m, r) → x.2 = 0 → y.2 = 0 → exec .calPort s = .next (s.jobbed m r [] y.1)) ∧
    (let x := (bread k (laneB (laneNum (r.p 0)) + XN_STAT_UP.off) 1 (c, 0)).1; let y := x.1.calStart (8 + r.p 0)
     c.cmdNow 0x0402 = some (m, r) → x.2 = 0 → y.2 = 0 → exec .calLane s = .next (s.jobbed m r [] y.1)) ∧
    (let w := fun (f : Fld) (v : Nat) => bwr k (CAL + f.off) 0xFFFF (BitVec.ofNat 16 v)
     let x := w CAL_SCHED_INT_VALUE (r.p 1) (w CAL_SCHED_LANE_VALUE (r.p 0 / 256) (w CAL_SCHED_PORT_VALUE (r.p 0 % 256) (c, 0)))
     c.cmdNow 0x0403 = some (m, r) → x.2 = 0 → exec .calSchedule s = .next (s.done m r 0 (x.1, []))) ∧
    (∀ v : NvmSlot, c.cmdNow 0x0404 = some (m, r) → c.nvmSlot (r.p 0) (r.p 1) = some v → c.cal.use.find? (fun x => x.1 == r.p 1) = none →
     exec .nvmRead s = .next (s.done m r 0 (c, [v.good.toNat] ++ (List.range (r.p 3)).map fun i => c.nvmWord (r.p 0) (r.p 1) (r.p 2 + i)))) ∧
    (c.cmdNow 0x0405 = some (m, r) → exec .nvmSaveCal s = .next (s.jobbed m r [] (c.calSave (r.p 0)))) ∧
    (let x := withSel AGE AGE_SEL_TARGET (r.p 0) (breads k [(AGE + AGE_YTL_VALUE.off, 1), (AGE + AGE_TREND_VALUE.off, 1)]) (c, 0)
     c.cmdNow 0x0406 = some (m, r) → x.1.2 = 0 →
     exec .ageRead s = .next (s.done m r 0 (x.1.1, [x.2.getD 0 0, sext (x.2.getD 1 0), (c.age.last.get (r.p 0)).toNat]))) ∧
    (∀ e : AgeEntry, c.cmdNow 0x0407 = some (m, r) → c.age.ledger[r.p 0]? = some e →
     exec .ageLedger s = .next (s.done m r 0 (c, (List.range 16).map fun i => e.words.getD i 0))) ∧
    (let x := bwr k (AGE + AGE_POLICY_VGUARD.off) 0x3FFF (BitVec.ofNat 16 (r.p 0 % 16 + 16 * r.p 1)) (c, 0)
     c.cmdNow 0x0408 = some (m, r) → x.2 = 0 → exec .agePolicy s = .next (s.done m r 0 (x.1, []))) ∧
    (∀ a : AgeProp, c.cmdNow 0x0409 = some (m, r) → c.age.props[(0 : Fin 4)] = some a → a.word = r.p 0 →
     exec .ageAnswer s = .next (s.done m r 0 (if r.p 1 = 0 then c.propApprove 0 else c.propVeto 0, []))) ∧
    (c.cmdNow 0x040A = some (m, r) → exec .ageEntryNow s = .next (s.jobbed m r [(c.age.seq : Int)] c.ledgerEntry))

/-- The commands of power run to their end (11_binder_mailboxes.md R370, R383, 13_power_and_reset.md R424).
Readings and choices of the model in it: log entries 97 and 98. -/
def Obligations.PowerCommandsComplete : Prop :=
  ∀ (s : State) (m : Fin 4) (r : MbReq), let c := s.chip; let k := s.lock
    (c.cmdNow 0x0501 = some (m, r) → exec .pwrEnter s = .next (s.done m r 0 (c.pwrRequest (r.p 0) (r.p 1) 1, []))) ∧
    (let x := bput k PWR PWR_KEEP_KEEP (r.p 0) (c, 0)
     c.cmdNow 0x0502 = some (m, r) → x.2 = 0 → exec .pwrKeep s = .next (s.done m r 0 (x.1, []))) ∧
    (∀ pgood : Bool, let x := bput k CLK CLK_LEVEL_TARGET (r.p 0) (c, 0); let d := x.1.levelEnds pgood
     c.cmdNow 0x0503 = some (m, r) → x.2 = 0 → exec (.pwrLevel pgood) s = .next (s.done m r 0 (d, [d.get CLK CLK_LEVEL_ACTUAL]))) ∧
    (let x := breads k [(PWR + PWR_STAT_STATE.off, 1), (CLK + CLK_LEVEL_ACTUAL.off, 1), (PWR + PWR_KEEP_LOST_LOST.off, 1), (PWR + PWR_WAKE_CAUSE_SRC.off, 1),
        (PWR + PWR_WAKE_STEP_REG.off, 1)] (c, 0)
     let level := x.2.getD 1 0 / 2 ^ CLK_LEVEL_ACTUAL.lo % 2 ^ CLK_LEVEL_ACTUAL.w
     c.cmdNow 0x0504 = some (m, r) → x.1.2 = 0 →
     exec .pwrStatus s = .next (s.done m r 0 (x.1.1, [x.2.getD 0 0 % 4 + 16 * level, x.2.getD 2 0, x.2.getD 3 0 % 16, x.2.getD 4 0]))) ∧
    (let x := bput k PWR PWR_WATCH_PAIRS_LISTEN (r.p 2) (bput k PWR PWR_WATCH_WIN_WINDOW (r.p 1) (bput k PWR PWR_WATCH_PERIOD (r.p 0) (c, 0)))
     c.cmdNow 0x0505 = some (m, r) → x.2 = 0 → exec .pwrWatch s = .next (s.done m r 0 (x.1, []))) ∧
    (let x := bwr k (PWR + PWR_WAKE_SRC_PIP.off) 0xFF (BitVec.ofNat 16 (r.p 0)) (c, 0)
     c.cmdNow 0x0506 = some (m, r) → x.2 = 0 → exec .pwrWakeSrc s = .next (s.done m r 0 (x.1, []))) ∧
    (let x := bput k PWR PWR_PARTNER_SLEEP_EN_EN (r.p 0) (c, 0)
     c.cmdNow 0x0507 = some (m, r) → x.2 = 0 → exec .pwrPartner s = .next (s.done m r 0 (x.1, []))) ∧
    (let x := inSel PWR PWR_THR_SEL_SEL (r.p 0) (fun x => bput k PWR PWR_THR_HI_HIGH (r.p 2 % 2 ^ 16) (bput k PWR PWR_THR_LO_LOW (r.p 1 % 2 ^ 16) x)) (c.postFor PWR, 0)
     c.cmdNow 0x0508 = some (m, r) → x.2 = 0 → exec .pwrThresh s = .next (s.done m r 0 (x.1, [])))

/-- The commands of self test, of the Roll and of loopbacks run to their end or start their job
(11_binder_mailboxes.md R370, R374, R383).
Readings and choices of the model in it: log entries 97 and 98. -/
def Obligations.TestCommandsComplete : Prop :=
  ∀ (s : State) (m : Fin 4) (r : MbReq), let c := s.chip; let k := s.lock
    (let x := c.bistAsk (r.p 0) (r.p 1 % 2 == 1)
     c.cmdNow 0x0601 = some (m, r) → x.2 = 0 → exec .bistRun s = .next (s.jobbed m r [] x.1)) ∧
    (let x := withSel BIST BIST_CTL_TARGET (r.p 0) (breads k [(BIST + BIST_RES_RESULT.off, 1), (BIST + BIST_ADDR_VALUE.off, 2), (BIST + BIST_BIT_VALUE.off, 1)]) (c, 0)
     let v := x.2.getD 0 0
     c.cmdNow 0x0602 = some (m, r) → x.1.2 = 0 →
     exec .bistResult s = .next (s.done m r 0 (x.1.1, [v % 4, x.2.getD 1 0, x.2.getD 2 0, v / 4 % 16 + 2 ^ 16 * (v / 64 % 4)]))) ∧
    (c.cmdNow 0x0603 = some (m, r) →
     exec .repairSave s = .next (s.jobbed m r [] (c.mtpAdd { record := 0x30 + r.p 0, words := c.repairWords (r.p 0) }))) ∧
    (let b := laneB (laneNum (r.p 0)); let x := breads k [(b + XN_PAT_BITS_COUNT.off, 3), (b + XN_PAT_ERR_COUNT.off, 3)] (c, 0)
     let y := bwr k (b + XN_PAT_CTL_GEN_EN.off) 0x3FF (BitVec.ofNat 16 (3 + 4 * r.p 1 + 64 * r.p 1)) x.1
     c.cmdNow 0x0604 = some (m, r) → y.2 = 0 → exec .prbsRun s = .next (s.jobbed m r (x.2.map fun v => (v : Int)) y.1)) ∧
    (let x := inSel ROLL ROLL_SEL_ENGINE (r.p 0) (fun x =>
        bwide k (ROLL + ROLL_SEED_LO_VALUE.off) 2 (r.p 4) (bwide k (ROLL + ROLL_N_LO_VALUE.off) 2 (r.p 3)
          (bwr k (ROLL + ROLL_CTL_OP.off) (ROLL_CTL_OP.mask ||| ROLL_CTL_MODE.mask) (BitVec.ofNat 16 (2 * r.p 1 + 32 * r.p 2)) x))) (c, 0)
     c.cmdNow 0x0605 = some (m, r) → x.2 = 0 → exec .rollSet s = .next (s.done m r 0 (x.1, []))) ∧
    (let x := if r.p 0 = 255 then bput k ROLL ROLL_CMD_STOP_ALL 1 (c, 0) else inSel ROLL ROLL_SEL_ENGINE (r.p 0) (bput k ROLL ROLL_CTL_EN 0) (c, 0)
     c.cmdNow 0x0606 = some (m, r) → x.2 = 0 → exec .rollStop s = .next (s.done m r 0 (x.1, []))) ∧
    (c.cmdNow 0x0607 = some (m, r) → exec .echo s = .next (s.done m r 0 (c, r.par))) ∧
    (let x := if r.p 0 < 8 then bput k (lpB (portNo (r.p 0))) PMA_CTL_LPBK (r.p 1) (c, 0)
        else bput k (laneB (laneNum (r.p 0 - 8))) XN_CTL_LPBK (r.p 1) (c, 0)
     c.cmdNow 0x0608 = some (m, r) → x.2 = 0 → exec .loopback s = .next (s.done m r 0 (x.1, [])))

/-- The commands of the cascade run to their end or start their job (11_binder_mailboxes.md R370, R374, R383, R384).
Readings and choices of the model in it: log entries 97, 98 and 126. -/
def Obligations.StackCommandsComplete : Prop :=
  ∀ (s : State) (m : Fin 4) (r : MbReq), let c := s.chip; let k := s.lock
    (c.cmdNow 0x0701 = some (m, r) → exec .remote s = .next (s.jobbed m r []
      (c.spToward (r.p 0 % 4) (mb2Request (r.p 1 / 2 ^ 16) (r.p 1 % 256) (remotePar (r.p 1) (r.par.drop 2)))))) ∧
    (let x := breads k [(SPINE + SPINE_STAT_POS.off, 1), (faceB .n + SPF_STAT_STATE.off, 1), (faceB .s + SPF_STAT_STATE.off, 1),
        (faceB .n + SPF_DLY_D.off, 2), (faceB .s + SPF_DLY_D.off, 2), (SPINE + SPINE_TAIL_ALERT_ALERT.off, 1)] (c, 0)
     c.cmdNow 0x0702 = some (m, r) → x.1.2 = 0 → exec .stackInfo s = .next (s.done m r 0 (x.1.1, x.2))) ∧
    (let x := bwr k (SPINE + SPINE_CMD_STACK_RST.off) 0x1F (BitVec.ofNat 16 (1 + 2 * (r.p 0 % 4) + 8 * (r.p 1 % 4))) (c, 0)
     c.cmdNow 0x0703 = some (m, r) → x.2 = 0 → exec .stackReset s = .next (s.done m r 0 (x.1, []))) ∧
    (let x := bput k SPINE SPINE_CTL_STACK_PROMOTE (r.p 0) (c, 0)
     c.cmdNow 0x0704 = some (m, r) → x.2 = 0 → exec .stackPromote s = .next (s.done m r 0 (x.1, []))) ∧
    (let x := bput k SPINE SPINE_CMD_DEMOTE 1 (c, 0)
     c.cmdNow 0x0705 = some (m, r) → c.role = 2 → x.2 = 0 → exec .stackDemote s = .next (s.done m r 0 (x.1, []))) ∧
    (let w := fun (f : Fld) (v : Nat) => bput k QUIRE f v
     let x := bwr k (QUIRE + QUIRE_SPILL_CTL_EN.off) 3 (BitVec.ofNat 16 (r.p 0 % 4))
        (w QUIRE_SPILL_LEND_VALUE (r.p 3) (w QUIRE_SPILL_OFF_VALUE (r.p 2) (w QUIRE_SPILL_ON_VALUE (r.p 1) (c, 0))))
     c.cmdNow 0x0706 = some (m, r) → x.2 = 0 → exec .spillConfig s = .next (s.done m r 0 (x.1, []))) ∧
    (let w := r.p 0; let par := remotePar w (r.par.drop 1)
     let d := (c.jobStart k.bits m r [-1, -1, -1, -1]).each [Face.n, Face.s] fun c f =>
        if c.faceMay f then c.spSend f 2 15 (mb2Request (w / 2 ^ 16) (w % 256) par) else c
     let e := d.modBinder fun x => { x with own := x.own ++ [{ cmd := w / 2 ^ 16, tag := w % 256, par := par, src := d.pos }] }
     c.cmdNow 0x0707 = some (m, r) → exec .stackAll s = .next (s.on (e.mbOwn.mbServe k.bits).entryDue))
/-- A write with mask 0x0000 changes nothing but the interface's answer: BSY as the block's BUSY bit stands, IGN and ERR clear; on
SPI_CS1_N it is refused as R343 says (10_register_fabric.md R355). -/
def Obligations.ZeroMaskWriteChangesNothing : Prop :=
  ∀ (s : State) (i : Ifc) (a : BitVec 19) (d : BitVec 16), s.chip.serves i = true →
    let c := s.chip; let st := c.statusByte a.toNat 0
    (i ≠ .spi1 → exec (.registerWrite i a 0 d 0) s = .next (s.on (c.modIfc i fun y => { y with resp := be 1 st })) ∧
      st.testBit 2 = c.posting a.toNat ∧ st.testBit 1 = false ∧ st.testBit 0 = false) ∧
    (i = .spi1 → let e := c.errLog i a.toNat 5 true
      exec (.registerWrite i a 0 d 0) s = .next (s.on (e.modIfc i fun y => { y with resp := be 1 (e.statusByte a.toNat 1) })))

/-- SPI_CS1_N reads only what REG_OBSERVE_EN enables, and every write there is discarded with ERR and logged as UNMAPPED
(10_register_fabric.md R343). -/
def Obligations.ObserveWindowOnlyReadsEnabledGroups : Prop :=
  ∀ (s : State) (a : BitVec 19) (m d : BitVec 16), s.chip.serves .spi1 = true → let c := s.chip
    (let e := c.errLog .spi1 a.toNat 5 true
     exec (.registerWrite .spi1 a m d 0) s = .next (s.on (e.modIfc .spi1 fun y => { y with resp := be 1 (e.statusByte a.toNat 1) }))) ∧
    (let e := c.errLog .spi1 a.toNat 5 false
     (∀ r, mapped a.toNat = some r → c.observed a.toNat r = false) →
     exec (.wideValueRead .spi1 a) s = .next (s.on (e.modIfc .spi1 fun y => { y with resp := be 1 (e.statusByte a.toNat 1) ++ be 2 0 }))) ∧
    (∀ r, mapped a.toNat = some r → c.observed a.toNat r = true → c.gate a.toNat = 0 → r.wide = 0 →
     exec (.wideValueRead .spi1 a) s = .next (s.gave .spi1 a.toNat c (c.view s.lock a.toNat)))

/-- A read through SPI_CS1_N returns the value and changes nothing but that interface, whose latch it uses
(10_register_fabric.md R344). -/
def Obligations.ObserveReadHasNoSideEffect : Prop :=
  ∀ (s : State) (a : BitVec 19) (r : RegDef), let c := s.chip; let ifc := c.fab.ifcs[ifcNum .spi1]
    s.chip.serves .spi1 = true → mapped a.toNat = some r → c.observed a.toNat r = true → c.gate a.toNat = 0 →
    ∃ y : IfcSt, exec (.wideValueRead .spi1 a) s = .next (s.on (c.modIfc .spi1 fun _ => y)) ∧
      (r.wide = 0 → y.latch = ifc.latch ∧ y.resp = be 1 (c.statusByte a.toNat 0) ++ be 2 (c.view s.lock a.toNat).toNat) ∧
      (r.wide ≠ 0 → r.place a.toNat = 0 →
        y.latch = { base := a.toNat, words := (List.range r.wide).map fun k => (c.view s.lock (a.toNat + k)).toNat } ∧
        y.resp = be 1 (c.statusByte a.toNat 0) ++ be 2 (c.view s.lock a.toNat).toNat) ∧
      (r.wide ≠ 0 → r.place a.toNat ≠ 0 → ifc.latch.base = a.toNat - r.place a.toNat → ifc.latch.words ≠ [] →
        y.latch = ifc.latch ∧ y.resp = be 1 (c.statusByte a.toNat 0) ++ be 2 (BitVec.ofNat 16 (ifc.latch.words.getD (r.place a.toNat) 0)).toNat)

/-- The error log takes the first refused access whole, counts the later ones, and is armed again by a write of 1 to VALID
(10_register_fabric.md R359); refusals of a register that does not exist and of a gated or unpowered block are such accesses.
Readings and choices of the model in it: log entry 99. -/
def Obligations.RefusedAccessesEnterTheErrorLog : Prop :=
  ∀ (s : State) (i : Ifc) (a : BitVec 19) (m d : BitVec 16) (cause : Nat) (wr : Bool), s.chip.serves i = true → i ≠ .spi1 → m ≠ 0 →
    let c := s.chip; let e := c.errLog i a.toNat cause wr
    (cause < 8 → c.on REGB REG_ERRLOG_CAUSE_VALID = false →
      e.on REGB REG_ERRLOG_CAUSE_VALID = true ∧ e.get REGB REG_ERRLOG_CAUSE_CAUSE = cause ∧ e.get REGB REG_ERRLOG_CAUSE_SOURCE = ifcCode i ∧
      e.on REGB REG_ERRLOG_CAUSE_WRITE = wr ∧ e.wide (REGB + REG_ERRLOG_ADDR_ADDR.off) 2 = a.toNat ∧ e.get REGB REG_ERRLOG_CNT_CNT = 0) ∧
    (c.on REGB REG_ERRLOG_CAUSE_VALID = true → e = c.put REGB REG_ERRLOG_CNT_CNT (min 0xFFFF (c.get REGB REG_ERRLOG_CNT_CNT + 1))) ∧
    (mapped a.toNat = none ∧ cause = 5 ∨ (mapped a.toNat).isSome = true ∧ c.gate a.toNat ≠ 0 ∧ cause = c.gate a.toNat → wr = true →
      exec (.registerWrite i a m d 0) s = .next (s.on (e.modIfc i fun y => { y with resp := be 1 (e.statusByte a.toNat 1) }))) ∧
    (∃ t, exec (.registerWrite i (BitVec.ofNat 19 (REGB + REG_ERRLOG_CAUSE_VALID.off)) 0x8000 0x8000 0) s = .next t ∧
      t.chip.on REGB REG_ERRLOG_CAUSE_VALID = false)

/-- A field of REG_LOCK takes one write and locks until power-on reset; a later write to it is ignored with IGN and logged as LOCKED
(00_scope.md R14, 10_register_fabric.md R356). -/
def Obligations.LockFieldTakesOneWrite : Prop :=
  ∀ (s : State) (i : Ifc) (m d : BitVec 16), s.chip.serves i = true → i ≠ .spi1 → m ≠ 0 → s.lock.sound →
    let l := s.lock; let n := l.write m d; let a := REGB + REG_LOCK_OBSERVE.off
    (m &&& l.written = 0 → exec (.regLockWrite i m d) s = .next { s.wrote i a (s.chip.countWr i) with lock := n }) ∧
    (m &&& l.written ≠ 0 → let e := (s.chip.countWr i).errLog i a 4 true
      exec (.regLockWrite i m d) s = .next { s.on (e.modIfc i fun y => { y with resp := be 1 (e.statusByte a 2) }) with lock := n }) ∧
    (∀ k < 7, m.getLsbD k = true → l.written.getLsbD k = false → n.bits.getLsbD k = d.getLsbD k ∧ n.written.getLsbD k = true) ∧
    (∀ k < 16, (m.getLsbD k = false ∨ l.written.getLsbD k = true ∨ 7 ≤ k) →
      n.bits.getLsbD k = l.bits.getLsbD k ∧ n.written.getLsbD k = l.written.getLsbD k) ∧
    (∀ straps bad fails second stores, ∃ t, exec (.powerOnReset straps bad fails second stores) s = .next t ∧ t.lock.written = 0 ∧ t.lock.bits = 0)

/-- No bit outside the mask of a write changes in any register as the write is merged (10_register_fabric.md R354). -/
def Obligations.MergeKeepsBitsOutsideTheMask : Prop :=
  ∀ (c : Chip) (a x : Nat) (m d : BitVec 16), ((c.merge a m d).reg x ^^^ c.reg x) &&& ~~~m = 0

/-- RATE is clipped to ±500 ppm, with RATE_LIMIT when it clips, whether software or the servo writes it (06_folio_time.md R194);
a write in the TPLL cycle of a servo update is lost unless FREEZE is set (R197).
Readings and choices of the model in it: log entry 117. -/
def Obligations.RateIsClipped : Prop :=
  (∀ (c : Chip) (v : Int), let w := max (-36028797018964) (min 36028797018964 v); let e := c.setRate v
    e.rate = w ∧ e.on FOLIO FOLIO_EVT_RATE_LIMIT = (c.on FOLIO FOLIO_EVT_RATE_LIMIT || decide (w ≠ v))) ∧
  (∀ (s : State) (i : Ifc) (v : BitVec 48), s.chip.serves i = true → i ≠ .spi1 → s.chip.gate FOLIO = 0 →
    s.chip.frozen = false → s.chip.folio.rateAt = some s.chip.tpll →
    ∃ t, exec (.rateWrite i v) s = .next t ∧ t.chip.rate = s.chip.rate ∧
      t.chip.on FOLIO FOLIO_EVT_RATE_LIMIT = s.chip.on FOLIO FOLIO_EVT_RATE_LIMIT) ∧
  (∀ (s : State) (i : Ifc) (v : BitVec 48), s.chip.serves i = true → i ≠ .spi1 → s.chip.gate FOLIO = 0 →
    s.chip.frozen = true ∨ s.chip.folio.rateAt ≠ some s.chip.tpll →
    ∃ t, exec (.rateWrite i v) s = .next t ∧ t.chip.rate = max (-36028797018964) (min 36028797018964 v.toInt) ∧
      t.chip.on FOLIO FOLIO_EVT_RATE_LIMIT =
        (s.chip.on FOLIO FOLIO_EVT_RATE_LIMIT || decide (v.toInt < -36028797018964 ∨ 36028797018964 < v.toInt)))

/-- A capture input queues eight stamps; the stamp of an edge that finds the queue full is dropped, with OVF and CAP_OVF
(06_folio_time.md R223). -/
def Obligations.CaptureQueueHoldsEight : Prop :=
  ∀ (s : State) (i : Fin 4) (rising : Bool) (frac : Nat), let c := s.chip; let q := c.folio.caps[i].queue
    let sel := c.get FOLIO FOLIO_CAP_CTL_EDGE / 4 ^ i.val % 4
    c.folioClk = true → (if rising then sel % 2 = 1 else sel / 2 = 1) → c.get FOLIO FOLIO_CTL_SRC ≠ 3 →
    ∃ t, exec (.captureEdge i rising frac) s = .next t ∧
      (∀ j : Fin 4, j ≠ i → t.chip.folio.caps[j] = c.folio.caps[j]) ∧
      (q.length < 8 → (∃ stamp, t.chip.folio.caps[i].queue = q ++ [(stamp, rising)]) ∧ t.chip.regs = c.regs) ∧
      (8 ≤ q.length → t.chip.folio.caps[i] = c.folio.caps[i] ∧ t.chip.on (bk i.val FOLIO) FOLIO_CAP_STAT_OVF = true ∧
        t.chip.on FOLIO FOLIO_EVT_CAP_OVF = true)

/-- A reflectometry run starts only in LINK_FAIL, BACKOFF or HALT; in every other state TDR_START only sets RESULT to REFUSED
(05_cable_and_idle.md R160). -/
def Obligations.ReflectometryStartsOnlyOnAnIdlePort : Prop :=
  ∀ (s : State) (i : Ifc) (p : Port), let c := s.chip; let b := lpB p
    s.admits1 i b DIAG_CTL_TDR_START →
    ((c.lState p = 8 ∨ c.lState p = 9 ∨ c.lState p = 10) →
      ∃ t, exec (.tdrStart i p) s = .next t ∧ t.chip.on b DIAG_CTL_TDR_START = true ∧ t.chip.on b DIAG_STAT_BUSY = true ∧
        (t.chip.port p).diag.tries = 0) ∧
    (c.lState p ≠ 8 → c.lState p ≠ 9 → c.lState p ≠ 10 →
      ∃ t, exec (.tdrStart i p) s = .next t ∧ t.chip.get b DIAG_STAT_RESULT = 4 ∧ t.chip.on b DIAG_CTL_TDR_START = false ∧
        t.chip = { c with regs := t.chip.regs, fab := t.chip.fab, pmc := t.chip.pmc } ∧ t.lock = s.lock ∧
        (∀ x, x / 0x1000 ≠ 9 → x ≠ b + DIAG_STAT_RESULT.off → x ≠ b + DIAG_CTL_TDR_START.off → t.chip.reg x = c.reg x) ∧
        (t.chip.reg (b + DIAG_STAT_RESULT.off) ^^^ c.reg (b + DIAG_STAT_RESULT.off)) &&& ~~~DIAG_STAT_RESULT.mask = 0 ∧
        (t.chip.reg (b + DIAG_CTL_TDR_START.off) ^^^ c.reg (b + DIAG_CTL_TDR_START.off)) &&& ~~~DIAG_CTL_TDR_START.mask = 0)

/-- A level change whose PGOOD stays low keeps the higher voltage with the lower level's divisions until a later change completes
(12_clocks.md R417). -/
def Obligations.FailedLevelChangeKeepsTheHigherVoltage : Prop :=
  ∀ (s : State) (n : Nat), let c := s.chip; let a := c.get CLK CLK_LEVEL_ACTUAL
    c.clk.levelTo = some n → n < 3 →
    (∃ t, exec .pgoodTimeout s = .next t ∧ t.chip.clk.vsel = max n a ∧ t.chip.clk.levelTo = none ∧ t.chip.clk.levelNext = none ∧
      (c.halted = false → t.chip.clk.div = min n a) ∧ t.chip.get CLK CLK_LEVEL_ACTUAL = min n a ∧ t.chip.get CLK CLK_LEVEL_TARGET = min n a ∧
      t.chip.on CLK CLK_LEVEL_VHIGH = true ∧ t.chip.on CLK CLK_EVT_PGOOD_FAIL = true) ∧
    (∃ t, exec .pgoodHigh s = .next t ∧ t.chip.on CLK CLK_LEVEL_VHIGH = false)

/-- In Nap and Watch the sources that arrive in one AON cycle start a wake under the lowest code, each is seen, and later ones leave
the cause as it is (13_power_and_reset.md R432).
Readings and choices of the model in it: log entry 100. -/
def Obligations.WakeCauseIsTheLowestFirstSource : Prop :=
  ∀ (s : State) (l : List (Fin 11 × Fin 16)), let c := s.chip
    let hits := l.filter fun x => c.wakeEnabled x.1.val && wakeIn x.1.val c.pwr.mode
    c.pwr.mode = 2 ∨ c.pwr.mode = 3 → c.pwr.rstLow = false → hits ≠ [] →
    ∃ t, exec (.wakeStart l) s = .next t ∧
      (∀ x ∈ hits, t.chip.get PWR ⟨PWR_WAKE_SEEN_SEEN.off, x.1.val, 1⟩ = 1) ∧
      (c.pwr.wake = none → ∃ x ∈ hits, (∀ y ∈ hits, x.1 ≤ y.1) ∧ t.chip.get PWR PWR_WAKE_CAUSE_SRC = x.1.val ∧ t.chip.pwr.wake = some 0) ∧
      (c.pwr.wake ≠ none → t.chip.get PWR PWR_WAKE_CAUSE_SRC = c.get PWR PWR_WAKE_CAUSE_SRC ∧ t.chip.pwr.wake = c.pwr.wake)

/-- A completed request shows its result in its mailbox's registers, with zeros beyond the result words, and its DONE bit
(11_binder_mailboxes.md R370); MB2's result travels further and is not stated here.
Readings and choices of the model in it: log entry 97. -/
def Obligations.CompletionShowsTheResult : Prop :=
  ∀ (c : Chip) (m : Fin 4) (r : MbReq) (code : Nat) (res : List Nat) (dup store : Bool), let b := mbB m; let t := c.mbDone m r code res dup store
    m ≠ 2 → code < 16 → r.tag < 256 → r.cmd < 65536 → res.length ≤ 32 → (∀ v ∈ res, v < 2 ^ 32) →
    (∀ k < 32, t.wide (b + 0x80 + 2 * k) 2 = res.getD k 0) ∧
    t.get b MBN_STAT_RESULT = code ∧ t.on b MBN_STAT_DUPLICATE = dup ∧ t.get b MBN_STAT_STATE = 3 ∧
    t.get b MBN_RTAG_RTAG = r.tag ∧ t.get b MBN_RTAG_NRESULT = res.length ∧ t.get b MBN_RCMD_ID = r.cmd ∧
    t.bit MBX MBX_EVT_DONE m.val = true ∧ (t.binder.mbs[m]).running = none

/-- A 48-bit counter counts modulo 2^48 and its wrap bit is set when it wraps and stays as it was otherwise, in each counter area
(16_counters.md R496, R497). -/
def Obligations.CountersWrapWithTheirBit : Prop :=
  ∀ (c : Chip) (a w k n : Nat), (a, w) ∈ ((List.range 8).map fun p => (0x10C00 + 0x1000 * p, 0x10DF0 + 0x1000 * p)) ++
      ((List.range 16).map fun l => (0x20200 + 0x1000 * l, 0x202F0 + 0x1000 * l)) ++
      [(HGRP + 0x200, HGRP + 0x2F0), (QUIRE + 0x200, QUIRE + 0x2F0), (faceC .n, faceC .n + 0x70), (faceC .s, faceC .s + 0x70)] →
    a + 4 * k + 3 ≤ w → c.wide (a + 4 * k) 3 < 2 ^ 48 → let t := c.bump a w k n
    t.wide (a + 4 * k) 3 = (c.wide (a + 4 * k) 3 + n) % 2 ^ 48 ∧
    (t.reg (w + k / 16)).getLsbD (k % 16) = ((c.reg (w + k / 16)).getLsbD (k % 16) || decide (2 ^ 48 ≤ c.wide (a + 4 * k) 3 + n)) ∧
    (∀ j, j ≠ k → a + 4 * j + 3 ≤ w → t.wide (a + 4 * j) 3 = c.wide (a + 4 * j) 3)

/-- A Roll engine never holds more than 4 frames and 16,384 bytes (15_self_test_and_faults.md R493).
Readings and choices of the model in it: log entries 90, 92 and 94. -/
def Obligations.RollEnginesHoldAtMostFourFrames : Prop :=
  ∀ (s t : State) (e k : Fin 26) (ev : RollEvt), let size := fun (c : Chip) => ((c.bist.engines[k]).held.map fun h => h.bytes.length).sum
    exec (.rollEngineEvent e ev) s = .next t → (s.chip.bist.engines[k]).held.length ≤ 4 → size s.chip ≤ 16384 →
    (t.chip.bist.engines[k]).held.length ≤ 4 ∧ size t.chip ≤ 16384

/-- A ledger entry is the newest of the 192 that are kept, and the older ones keep their order (14_calibration_and_ageing.md R466).
Readings and choices of the model in it: log entries 81 and 87. -/
def Obligations.LedgerKeepsTheNewestEntries : Prop :=
  ∀ s : State, ∃ (t : State) (e : AgeEntry), exec .ledgerEntry s = .next t ∧ t.chip.age.ledger = (e :: s.chip.age.ledger).take 192 ∧
    e.words.length = 16 ∧ t.chip.age.seq = (s.chip.age.seq + 1) % 65536 ∧ t.chip.on AGE AGE_EVT_ENTRY = true

/-- A host mode written while a lane is enabled is pending; written with every lane disabled, it is applied at once
(01_architecture.md R26).
Readings and choices of the model in it: log entry 53. -/
def Obligations.HostModeWaitsForDisabledLanes : Prop :=
  ∀ (s : State) (i : Ifc) (m : BitVec 3), let c := s.chip; let a := HGRP + HGRP_MODE_MODE.off; let d := splice 0 HGRP_MODE_MODE.lo HGRP_MODE_MODE.w m.toNat
    s.admits i a HGRP_MODE_MODE.mask → m.toNat ≤ 4 → m.toNat ≠ c.hostMode →
    (c.lanesOff = false → ∃ t, exec (.hgrpModeWrite i m) s = .next t ∧ t.chip.hostMode = c.hostMode ∧ t.chip.get HGRP HGRP_MODE_MODE = m.toNat ∧
      t.chip.on HGRP HGRP_MODE_PENDING = true ∧ t.chip.quire = c.quire) ∧
    (c.lanesOff = true → exec (.hgrpModeWrite i m) s =
      .next (s.wrote i a ((s.took i a HGRP_MODE_MODE.mask d).hostModeApply m.toNat)))

/-- What the TAP, the Roll engines, the privileged counters and the clock monitor do stays in their own registers and state
(15_self_test_and_faults.md R487, R493, 16_counters.md R503, 12_clocks.md R404, R418).
Readings and choices of the model in it: log entries 14, 90, 92 and 94. -/
def Obligations.LocalCommandsKeepTheRest : Prop :=
  ∀ (s t : State), let c := s.chip; let d := t.chip
    (∀ i : Instr, (∃ code, i = .tapInstructionUpdate code) ∨ i = .tapReset → exec i s = .next t →
      t = s.on { c with regs := d.regs } ∧ ∀ x, x ≠ TAP + TAP_STAT_INSTR.off → d.reg x = c.reg x) ∧
    (∀ (e : Fin 26) (i : Instr), (∃ ev, i = .rollEngineEvent e ev) ∨ i = .rollHoldRelease e → exec i s = .next t →
      t = s.on { c with regs := d.regs, bist := { c.bist with engines := d.bist.engines } } ∧ (∀ k : Fin 26, k ≠ e → d.bist.engines[k] = c.bist.engines[k]) ∧
      ∀ x, x / 0x1000 % 0x80 ≠ 0x0D → d.reg x = c.reg x) ∧
    (∀ (u : Fin 2) (k : Fin 8) (n : BitVec 32), exec (.pmcOverflow u k n) s = .next t →
      t = s.on { c with regs := d.regs, pmc := d.pmc } ∧ ∀ x, x / 0x1000 ≠ 0x09 → x / 0x1000 ≠ 0x0A → d.reg x = c.reg x) ∧
    (∀ i : Instr, i = .switchForced ∨ i = .pgoodLow ∨ i = .refUpdate ∨ (∃ k, i = .loopLock k) → exec i s = .next t →
      t = s.on { c with regs := d.regs, clk := d.clk } ∧ ∀ x, x / 0x1000 ≠ 0x01 → d.reg x = c.reg x)

/-- A step takes the command at the front of the queue and is its effect with the rest of the queue waiting. -/
def Obligations.StepRunsTheFrontCommand : Prop :=
  ∀ (i : Instr) (l : List Instr) (s : State), s.pending = i :: l → step s = exec i { s with pending := l }

/-- On an empty queue the part idles (log entry 3, the model's choice). -/
def Obligations.EmptyQueueIdles : Prop := ∀ s : State, s.pending = [] → step s = .next s

/-- Every command answers a next state and leaves the queue alone. -/
def Obligations.EveryCommandAnswers : Prop :=
  ∀ (i : Instr) (s : State), ∃ t, exec i s = .next t ∧ t.pending = s.pending

/-- Only a write at an address of its own choice, a power-on reset or the loss of supply reaches REG_LOCK. -/
def Obligations.OnlyWritesReachTheLock : Prop :=
  ∀ (i : Instr) (s t : State), exec i s = .next t → mayLock i = false → t.lock = s.lock

/-- A lock that is set stays set, and a field that has taken its write keeps its value, through every command but a power-on reset
and the loss of supply (00_scope.md R14). -/
def Obligations.SetLocksStay : Prop :=
  ∀ (i : Instr) (s t : State), exec i s = .next t → i ≠ .supplyFail → (∀ a b c d e, i ≠ .powerOnReset a b c d e) →
    (∀ k, s.lock.bits.getLsbD k = true → t.lock.bits.getLsbD k = true) ∧
    (∀ k, s.lock.written.getLsbD k = true → t.lock.written.getLsbD k = true ∧ t.lock.bits.getLsbD k = s.lock.bits.getLsbD k)

/-- Every step keeps REG_LOCK sound: only fields that have taken their write lock, and there are seven. -/
def Obligations.StepKeepsTheLockSound : Prop :=
  ∀ s t : State, s.lock.sound → step s = .next t → t.lock.sound

/-- REG_LOCK is sound after reset. -/
def Obligations.LockSoundAtReset : Prop := State.reset.lock.sound ∧ State.reset.pending = []

/-- After reset no clock is enabled, no lock is set, every line port is DISABLED, Folio's time word and RATE are 0 with STATE UNSET, and the
part is in Run (12_clocks.md R397, 06_folio_time.md R199, 13_power_and_reset.md R443).
Readings and choices of the model in it: log entries 4 and 78. -/
def Obligations.ResetState : Prop :=
  let c := State.reset.chip
  c.reg CLK = 0 ∧ c.reg (CLK + 1) = 0 ∧ State.reset.lock.bits = 0 ∧ (∀ p : Port, c.lState p = 0) ∧ c.now = 0 ∧ c.rate = 0 ∧ c.fState = 0 ∧
    c.pwr.mode = 0 ∧ c.reg (REGB + REG_ERRLOG_CAUSE_VALID.off) = 0 ∧ c.bist.run = none

/-- What the balls and the islands take from the power state while the core has its balls: in Nap and Watch RDY is low, ALERT_N
released, every lane transmitter idle and each pair silent but for Watch's windows; in Doze the listening pairs receive Pip, and the
stopped data islands have reverse bias (13_power_and_reset.md R441, R448, 17_pins_and_electrical.md R515).
Readings and choices of the model in it: log entry 142. -/
def Obligations.PowerStateAtTheBalls : Prop :=
  ∀ (c : Chip) (l : Lane) (p : Port) (neg : Bool), c.on TAP TAP_STAT_CORE_OFF = false →
    let hears := c.bit PWR PWR_WATCH_PAIRS_LISTEN p.val
    (c.pwr.mode = 2 ∨ c.pwr.mode = 3 →
      c.ball (.low .rdy) = .low ∧ c.ball (.low .alertN) = .released ∧ c.ball (.lane l true neg) = .idle ∧ c.ball (.lane l false neg) = .quiet ∧
      c.keepRetained = true ∧ c.readAssist = none ∧
      (c.pwr.rstLow = false → c.ball (.line p neg) = if c.pwr.mode = 3 ∧ hears then .windows else .quiet)) ∧
    (c.pwr.mode = 1 → c.ball (.lane l true neg) = .idle ∧ c.keepRetained = false ∧
      c.readAssist = some (c.get CLK CLK_LEVEL_ACTUAL == 0) ∧
      (c.pwr.rstLow = false → c.ball (.line p neg) = if hears then .listens else .quiet) ∧
      ∀ k, 2 ≤ k → k ≤ 5 → c.islandOn k = true → c.islandBias k = .reverse) ∧
    (c.pwr.mode = 0 → ∀ k, c.islandOn k = true → c.islandBias k = .none) ∧
    (c.pwr.mode = 4 → c.ball (.line p neg) = .unpowered ∧ c.ball (.low .alertN) = .highZ)
end

