-- ==== Sys2Proof/Laws/State.lean ====
section
/-! SUPPORT. One lemma per field of the part and per update: what an update leaves as it was. -/

namespace Sys2Proof.Machine

variable (c : Chip)

@[simp] theorem Chip.setReg_ports (a : Nat) (v : BitVec 16) : (c.setReg a v).ports = c.ports := rfl
@[simp] theorem Chip.setReg_lanes (a : Nat) (v : BitVec 16) : (c.setReg a v).lanes = c.lanes := rfl
@[simp] theorem Chip.setReg_hgrp (a : Nat) (v : BitVec 16) : (c.setReg a v).hgrp = c.hgrp := rfl
@[simp] theorem Chip.setReg_quire (a : Nat) (v : BitVec 16) : (c.setReg a v).quire = c.quire := rfl
@[simp] theorem Chip.setReg_folio (a : Nat) (v : BitVec 16) : (c.setReg a v).folio = c.folio := rfl
@[simp] theorem Chip.setReg_spine (a : Nat) (v : BitVec 16) : (c.setReg a v).spine = c.spine := rfl
@[simp] theorem Chip.setReg_fab (a : Nat) (v : BitVec 16) : (c.setReg a v).fab = c.fab := rfl
@[simp] theorem Chip.setReg_binder (a : Nat) (v : BitVec 16) : (c.setReg a v).binder = c.binder := rfl
@[simp] theorem Chip.setReg_clk (a : Nat) (v : BitVec 16) : (c.setReg a v).clk = c.clk := rfl
@[simp] theorem Chip.setReg_pwr (a : Nat) (v : BitVec 16) : (c.setReg a v).pwr = c.pwr := rfl
@[simp] theorem Chip.setReg_cal (a : Nat) (v : BitVec 16) : (c.setReg a v).cal = c.cal := rfl
@[simp] theorem Chip.setReg_age (a : Nat) (v : BitVec 16) : (c.setReg a v).age = c.age := rfl
@[simp] theorem Chip.setReg_bist (a : Nat) (v : BitVec 16) : (c.setReg a v).bist = c.bist := rfl
@[simp] theorem Chip.setReg_pmc (a : Nat) (v : BitVec 16) : (c.setReg a v).pmc = c.pmc := rfl
@[simp] theorem Chip.setReg_tpll (a : Nat) (v : BitVec 16) : (c.setReg a v).tpll = c.tpll := rfl
@[simp] theorem Chip.setReg_freeCtr (a : Nat) (v : BitVec 16) : (c.setReg a v).freeCtr = c.freeCtr := rfl
@[simp] theorem Chip.put_ports (b : Nat) (f : Fld) (v : Nat) : (c.put b f v).ports = c.ports := rfl
@[simp] theorem Chip.put_lanes (b : Nat) (f : Fld) (v : Nat) : (c.put b f v).lanes = c.lanes := rfl
@[simp] theorem Chip.put_hgrp (b : Nat) (f : Fld) (v : Nat) : (c.put b f v).hgrp = c.hgrp := rfl
@[simp] theorem Chip.put_quire (b : Nat) (f : Fld) (v : Nat) : (c.put b f v).quire = c.quire := rfl
@[simp] theorem Chip.put_folio (b : Nat) (f : Fld) (v : Nat) : (c.put b f v).folio = c.folio := rfl
@[simp] theorem Chip.put_spine (b : Nat) (f : Fld) (v : Nat) : (c.put b f v).spine = c.spine := rfl
@[simp] theorem Chip.put_fab (b : Nat) (f : Fld) (v : Nat) : (c.put b f v).fab = c.fab := rfl
@[simp] theorem Chip.put_binder (b : Nat) (f : Fld) (v : Nat) : (c.put b f v).binder = c.binder := rfl
@[simp] theorem Chip.put_clk (b : Nat) (f : Fld) (v : Nat) : (c.put b f v).clk = c.clk := rfl
@[simp] theorem Chip.put_pwr (b : Nat) (f : Fld) (v : Nat) : (c.put b f v).pwr = c.pwr := rfl
@[simp] theorem Chip.put_cal (b : Nat) (f : Fld) (v : Nat) : (c.put b f v).cal = c.cal := rfl
@[simp] theorem Chip.put_age (b : Nat) (f : Fld) (v : Nat) : (c.put b f v).age = c.age := rfl
@[simp] theorem Chip.put_bist (b : Nat) (f : Fld) (v : Nat) : (c.put b f v).bist = c.bist := rfl
@[simp] theorem Chip.put_pmc (b : Nat) (f : Fld) (v : Nat) : (c.put b f v).pmc = c.pmc := rfl
@[simp] theorem Chip.put_tpll (b : Nat) (f : Fld) (v : Nat) : (c.put b f v).tpll = c.tpll := rfl
@[simp] theorem Chip.put_freeCtr (b : Nat) (f : Fld) (v : Nat) : (c.put b f v).freeCtr = c.freeCtr := rfl
@[simp] theorem Chip.putB_ports (b : Nat) (f : Fld) (v : Bool) : (c.putB b f v).ports = c.ports := rfl
@[simp] theorem Chip.putB_lanes (b : Nat) (f : Fld) (v : Bool) : (c.putB b f v).lanes = c.lanes := rfl
@[simp] theorem Chip.putB_hgrp (b : Nat) (f : Fld) (v : Bool) : (c.putB b f v).hgrp = c.hgrp := rfl
@[simp] theorem Chip.putB_quire (b : Nat) (f : Fld) (v : Bool) : (c.putB b f v).quire = c.quire := rfl
@[simp] theorem Chip.putB_folio (b : Nat) (f : Fld) (v : Bool) : (c.putB b f v).folio = c.folio := rfl
@[simp] theorem Chip.putB_spine (b : Nat) (f : Fld) (v : Bool) : (c.putB b f v).spine = c.spine := rfl
@[simp] theorem Chip.putB_fab (b : Nat) (f : Fld) (v : Bool) : (c.putB b f v).fab = c.fab := rfl
@[simp] theorem Chip.putB_binder (b : Nat) (f : Fld) (v : Bool) : (c.putB b f v).binder = c.binder := rfl
@[simp] theorem Chip.putB_clk (b : Nat) (f : Fld) (v : Bool) : (c.putB b f v).clk = c.clk := rfl
@[simp] theorem Chip.putB_pwr (b : Nat) (f : Fld) (v : Bool) : (c.putB b f v).pwr = c.pwr := rfl
@[simp] theorem Chip.putB_cal (b : Nat) (f : Fld) (v : Bool) : (c.putB b f v).cal = c.cal := rfl
@[simp] theorem Chip.putB_age (b : Nat) (f : Fld) (v : Bool) : (c.putB b f v).age = c.age := rfl
@[simp] theorem Chip.putB_bist (b : Nat) (f : Fld) (v : Bool) : (c.putB b f v).bist = c.bist := rfl
@[simp] theorem Chip.putB_pmc (b : Nat) (f : Fld) (v : Bool) : (c.putB b f v).pmc = c.pmc := rfl
@[simp] theorem Chip.putB_tpll (b : Nat) (f : Fld) (v : Bool) : (c.putB b f v).tpll = c.tpll := rfl
@[simp] theorem Chip.putB_freeCtr (b : Nat) (f : Fld) (v : Bool) : (c.putB b f v).freeCtr = c.freeCtr := rfl
@[simp] theorem Chip.putBit_ports (b : Nat) (f : Fld) (k : Nat) (v : Bool) : (c.putBit b f k v).ports = c.ports := rfl
@[simp] theorem Chip.putBit_lanes (b : Nat) (f : Fld) (k : Nat) (v : Bool) : (c.putBit b f k v).lanes = c.lanes := rfl
@[simp] theorem Chip.putBit_hgrp (b : Nat) (f : Fld) (k : Nat) (v : Bool) : (c.putBit b f k v).hgrp = c.hgrp := rfl
@[simp] theorem Chip.putBit_quire (b : Nat) (f : Fld) (k : Nat) (v : Bool) : (c.putBit b f k v).quire = c.quire := rfl
@[simp] theorem Chip.putBit_folio (b : Nat) (f : Fld) (k : Nat) (v : Bool) : (c.putBit b f k v).folio = c.folio := rfl
@[simp] theorem Chip.putBit_spine (b : Nat) (f : Fld) (k : Nat) (v : Bool) : (c.putBit b f k v).spine = c.spine := rfl
@[simp] theorem Chip.putBit_fab (b : Nat) (f : Fld) (k : Nat) (v : Bool) : (c.putBit b f k v).fab = c.fab := rfl
@[simp] theorem Chip.putBit_binder (b : Nat) (f : Fld) (k : Nat) (v : Bool) : (c.putBit b f k v).binder = c.binder := rfl
@[simp] theorem Chip.putBit_clk (b : Nat) (f : Fld) (k : Nat) (v : Bool) : (c.putBit b f k v).clk = c.clk := rfl
@[simp] theorem Chip.putBit_pwr (b : Nat) (f : Fld) (k : Nat) (v : Bool) : (c.putBit b f k v).pwr = c.pwr := rfl
@[simp] theorem Chip.putBit_cal (b : Nat) (f : Fld) (k : Nat) (v : Bool) : (c.putBit b f k v).cal = c.cal := rfl
@[simp] theorem Chip.putBit_age (b : Nat) (f : Fld) (k : Nat) (v : Bool) : (c.putBit b f k v).age = c.age := rfl
@[simp] theorem Chip.putBit_bist (b : Nat) (f : Fld) (k : Nat) (v : Bool) : (c.putBit b f k v).bist = c.bist := rfl
@[simp] theorem Chip.putBit_pmc (b : Nat) (f : Fld) (k : Nat) (v : Bool) : (c.putBit b f k v).pmc = c.pmc := rfl
@[simp] theorem Chip.putBit_tpll (b : Nat) (f : Fld) (k : Nat) (v : Bool) : (c.putBit b f k v).tpll = c.tpll := rfl
@[simp] theorem Chip.putBit_freeCtr (b : Nat) (f : Fld) (k : Nat) (v : Bool) : (c.putBit b f k v).freeCtr = c.freeCtr := rfl
@[simp] theorem Chip.putS_ports (b : Nat) (f : Fld) (v : Int) : (c.putS b f v).ports = c.ports := rfl
@[simp] theorem Chip.putS_lanes (b : Nat) (f : Fld) (v : Int) : (c.putS b f v).lanes = c.lanes := rfl
@[simp] theorem Chip.putS_hgrp (b : Nat) (f : Fld) (v : Int) : (c.putS b f v).hgrp = c.hgrp := rfl
@[simp] theorem Chip.putS_quire (b : Nat) (f : Fld) (v : Int) : (c.putS b f v).quire = c.quire := rfl
@[simp] theorem Chip.putS_folio (b : Nat) (f : Fld) (v : Int) : (c.putS b f v).folio = c.folio := rfl
@[simp] theorem Chip.putS_spine (b : Nat) (f : Fld) (v : Int) : (c.putS b f v).spine = c.spine := rfl
@[simp] theorem Chip.putS_fab (b : Nat) (f : Fld) (v : Int) : (c.putS b f v).fab = c.fab := rfl
@[simp] theorem Chip.putS_binder (b : Nat) (f : Fld) (v : Int) : (c.putS b f v).binder = c.binder := rfl
@[simp] theorem Chip.putS_clk (b : Nat) (f : Fld) (v : Int) : (c.putS b f v).clk = c.clk := rfl
@[simp] theorem Chip.putS_pwr (b : Nat) (f : Fld) (v : Int) : (c.putS b f v).pwr = c.pwr := rfl
@[simp] theorem Chip.putS_cal (b : Nat) (f : Fld) (v : Int) : (c.putS b f v).cal = c.cal := rfl
@[simp] theorem Chip.putS_age (b : Nat) (f : Fld) (v : Int) : (c.putS b f v).age = c.age := rfl
@[simp] theorem Chip.putS_bist (b : Nat) (f : Fld) (v : Int) : (c.putS b f v).bist = c.bist := rfl
@[simp] theorem Chip.putS_pmc (b : Nat) (f : Fld) (v : Int) : (c.putS b f v).pmc = c.pmc := rfl
@[simp] theorem Chip.putS_tpll (b : Nat) (f : Fld) (v : Int) : (c.putS b f v).tpll = c.tpll := rfl
@[simp] theorem Chip.putS_freeCtr (b : Nat) (f : Fld) (v : Int) : (c.putS b f v).freeCtr = c.freeCtr := rfl
@[simp] theorem Chip.resetRegs_ports (w : Nat → Bool) (k : Nat) : (c.resetRegs w k).ports = c.ports := rfl
@[simp] theorem Chip.resetRegs_lanes (w : Nat → Bool) (k : Nat) : (c.resetRegs w k).lanes = c.lanes := rfl
@[simp] theorem Chip.resetRegs_hgrp (w : Nat → Bool) (k : Nat) : (c.resetRegs w k).hgrp = c.hgrp := rfl
@[simp] theorem Chip.resetRegs_quire (w : Nat → Bool) (k : Nat) : (c.resetRegs w k).quire = c.quire := rfl
@[simp] theorem Chip.resetRegs_folio (w : Nat → Bool) (k : Nat) : (c.resetRegs w k).folio = c.folio := rfl
@[simp] theorem Chip.resetRegs_spine (w : Nat → Bool) (k : Nat) : (c.resetRegs w k).spine = c.spine := rfl
@[simp] theorem Chip.resetRegs_fab (w : Nat → Bool) (k : Nat) : (c.resetRegs w k).fab = c.fab := rfl
@[simp] theorem Chip.resetRegs_binder (w : Nat → Bool) (k : Nat) : (c.resetRegs w k).binder = c.binder := rfl
@[simp] theorem Chip.resetRegs_clk (w : Nat → Bool) (k : Nat) : (c.resetRegs w k).clk = c.clk := rfl
@[simp] theorem Chip.resetRegs_pwr (w : Nat → Bool) (k : Nat) : (c.resetRegs w k).pwr = c.pwr := rfl
@[simp] theorem Chip.resetRegs_cal (w : Nat → Bool) (k : Nat) : (c.resetRegs w k).cal = c.cal := rfl
@[simp] theorem Chip.resetRegs_age (w : Nat → Bool) (k : Nat) : (c.resetRegs w k).age = c.age := rfl
@[simp] theorem Chip.resetRegs_bist (w : Nat → Bool) (k : Nat) : (c.resetRegs w k).bist = c.bist := rfl
@[simp] theorem Chip.resetRegs_pmc (w : Nat → Bool) (k : Nat) : (c.resetRegs w k).pmc = c.pmc := rfl
@[simp] theorem Chip.resetRegs_tpll (w : Nat → Bool) (k : Nat) : (c.resetRegs w k).tpll = c.tpll := rfl
@[simp] theorem Chip.resetRegs_freeCtr (w : Nat → Bool) (k : Nat) : (c.resetRegs w k).freeCtr = c.freeCtr := rfl
@[simp] theorem Chip.modPort_regs (p : Port) (g : PortSt → PortSt) : (c.modPort p g).regs = c.regs := rfl
@[simp] theorem Chip.modPort_lanes (p : Port) (g : PortSt → PortSt) : (c.modPort p g).lanes = c.lanes := rfl
@[simp] theorem Chip.modPort_hgrp (p : Port) (g : PortSt → PortSt) : (c.modPort p g).hgrp = c.hgrp := rfl
@[simp] theorem Chip.modPort_quire (p : Port) (g : PortSt → PortSt) : (c.modPort p g).quire = c.quire := rfl
@[simp] theorem Chip.modPort_folio (p : Port) (g : PortSt → PortSt) : (c.modPort p g).folio = c.folio := rfl
@[simp] theorem Chip.modPort_spine (p : Port) (g : PortSt → PortSt) : (c.modPort p g).spine = c.spine := rfl
@[simp] theorem Chip.modPort_fab (p : Port) (g : PortSt → PortSt) : (c.modPort p g).fab = c.fab := rfl
@[simp] theorem Chip.modPort_binder (p : Port) (g : PortSt → PortSt) : (c.modPort p g).binder = c.binder := rfl
@[simp] theorem Chip.modPort_clk (p : Port) (g : PortSt → PortSt) : (c.modPort p g).clk = c.clk := rfl
@[simp] theorem Chip.modPort_pwr (p : Port) (g : PortSt → PortSt) : (c.modPort p g).pwr = c.pwr := rfl
@[simp] theorem Chip.modPort_cal (p : Port) (g : PortSt → PortSt) : (c.modPort p g).cal = c.cal := rfl
@[simp] theorem Chip.modPort_age (p : Port) (g : PortSt → PortSt) : (c.modPort p g).age = c.age := rfl
@[simp] theorem Chip.modPort_bist (p : Port) (g : PortSt → PortSt) : (c.modPort p g).bist = c.bist := rfl
@[simp] theorem Chip.modPort_pmc (p : Port) (g : PortSt → PortSt) : (c.modPort p g).pmc = c.pmc := rfl
@[simp] theorem Chip.modPort_tpll (p : Port) (g : PortSt → PortSt) : (c.modPort p g).tpll = c.tpll := rfl
@[simp] theorem Chip.modPort_freeCtr (p : Port) (g : PortSt → PortSt) : (c.modPort p g).freeCtr = c.freeCtr := rfl
@[simp] theorem Chip.modLink_regs (p : Port) (g : LinkSt → LinkSt) : (c.modLink p g).regs = c.regs := rfl
@[simp] theorem Chip.modLink_lanes (p : Port) (g : LinkSt → LinkSt) : (c.modLink p g).lanes = c.lanes := rfl
@[simp] theorem Chip.modLink_hgrp (p : Port) (g : LinkSt → LinkSt) : (c.modLink p g).hgrp = c.hgrp := rfl
@[simp] theorem Chip.modLink_quire (p : Port) (g : LinkSt → LinkSt) : (c.modLink p g).quire = c.quire := rfl
@[simp] theorem Chip.modLink_folio (p : Port) (g : LinkSt → LinkSt) : (c.modLink p g).folio = c.folio := rfl
@[simp] theorem Chip.modLink_spine (p : Port) (g : LinkSt → LinkSt) : (c.modLink p g).spine = c.spine := rfl
@[simp] theorem Chip.modLink_fab (p : Port) (g : LinkSt → LinkSt) : (c.modLink p g).fab = c.fab := rfl
@[simp] theorem Chip.modLink_binder (p : Port) (g : LinkSt → LinkSt) : (c.modLink p g).binder = c.binder := rfl
@[simp] theorem Chip.modLink_clk (p : Port) (g : LinkSt → LinkSt) : (c.modLink p g).clk = c.clk := rfl
@[simp] theorem Chip.modLink_pwr (p : Port) (g : LinkSt → LinkSt) : (c.modLink p g).pwr = c.pwr := rfl
@[simp] theorem Chip.modLink_cal (p : Port) (g : LinkSt → LinkSt) : (c.modLink p g).cal = c.cal := rfl
@[simp] theorem Chip.modLink_age (p : Port) (g : LinkSt → LinkSt) : (c.modLink p g).age = c.age := rfl
@[simp] theorem Chip.modLink_bist (p : Port) (g : LinkSt → LinkSt) : (c.modLink p g).bist = c.bist := rfl
@[simp] theorem Chip.modLink_pmc (p : Port) (g : LinkSt → LinkSt) : (c.modLink p g).pmc = c.pmc := rfl
@[simp] theorem Chip.modLink_tpll (p : Port) (g : LinkSt → LinkSt) : (c.modLink p g).tpll = c.tpll := rfl
@[simp] theorem Chip.modLink_freeCtr (p : Port) (g : LinkSt → LinkSt) : (c.modLink p g).freeCtr = c.freeCtr := rfl
@[simp] theorem Chip.modPip_regs (p : Port) (g : PipSt → PipSt) : (c.modPip p g).regs = c.regs := rfl
@[simp] theorem Chip.modPip_lanes (p : Port) (g : PipSt → PipSt) : (c.modPip p g).lanes = c.lanes := rfl
@[simp] theorem Chip.modPip_hgrp (p : Port) (g : PipSt → PipSt) : (c.modPip p g).hgrp = c.hgrp := rfl
@[simp] theorem Chip.modPip_quire (p : Port) (g : PipSt → PipSt) : (c.modPip p g).quire = c.quire := rfl
@[simp] theorem Chip.modPip_folio (p : Port) (g : PipSt → PipSt) : (c.modPip p g).folio = c.folio := rfl
@[simp] theorem Chip.modPip_spine (p : Port) (g : PipSt → PipSt) : (c.modPip p g).spine = c.spine := rfl
@[simp] theorem Chip.modPip_fab (p : Port) (g : PipSt → PipSt) : (c.modPip p g).fab = c.fab := rfl
@[simp] theorem Chip.modPip_binder (p : Port) (g : PipSt → PipSt) : (c.modPip p g).binder = c.binder := rfl
@[simp] theorem Chip.modPip_clk (p : Port) (g : PipSt → PipSt) : (c.modPip p g).clk = c.clk := rfl
@[simp] theorem Chip.modPip_pwr (p : Port) (g : PipSt → PipSt) : (c.modPip p g).pwr = c.pwr := rfl
@[simp] theorem Chip.modPip_cal (p : Port) (g : PipSt → PipSt) : (c.modPip p g).cal = c.cal := rfl
@[simp] theorem Chip.modPip_age (p : Port) (g : PipSt → PipSt) : (c.modPip p g).age = c.age := rfl
@[simp] theorem Chip.modPip_bist (p : Port) (g : PipSt → PipSt) : (c.modPip p g).bist = c.bist := rfl
@[simp] theorem Chip.modPip_pmc (p : Port) (g : PipSt → PipSt) : (c.modPip p g).pmc = c.pmc := rfl
@[simp] theorem Chip.modPip_tpll (p : Port) (g : PipSt → PipSt) : (c.modPip p g).tpll = c.tpll := rfl
@[simp] theorem Chip.modPip_freeCtr (p : Port) (g : PipSt → PipSt) : (c.modPip p g).freeCtr = c.freeCtr := rfl
@[simp] theorem Chip.modOct_regs (p : Port) (g : OctSt → OctSt) : (c.modOct p g).regs = c.regs := rfl
@[simp] theorem Chip.modOct_lanes (p : Port) (g : OctSt → OctSt) : (c.modOct p g).lanes = c.lanes := rfl
@[simp] theorem Chip.modOct_hgrp (p : Port) (g : OctSt → OctSt) : (c.modOct p g).hgrp = c.hgrp := rfl
@[simp] theorem Chip.modOct_quire (p : Port) (g : OctSt → OctSt) : (c.modOct p g).quire = c.quire := rfl
@[simp] theorem Chip.modOct_folio (p : Port) (g : OctSt → OctSt) : (c.modOct p g).folio = c.folio := rfl
@[simp] theorem Chip.modOct_spine (p : Port) (g : OctSt → OctSt) : (c.modOct p g).spine = c.spine := rfl
@[simp] theorem Chip.modOct_fab (p : Port) (g : OctSt → OctSt) : (c.modOct p g).fab = c.fab := rfl
@[simp] theorem Chip.modOct_binder (p : Port) (g : OctSt → OctSt) : (c.modOct p g).binder = c.binder := rfl
@[simp] theorem Chip.modOct_clk (p : Port) (g : OctSt → OctSt) : (c.modOct p g).clk = c.clk := rfl
@[simp] theorem Chip.modOct_pwr (p : Port) (g : OctSt → OctSt) : (c.modOct p g).pwr = c.pwr := rfl
@[simp] theorem Chip.modOct_cal (p : Port) (g : OctSt → OctSt) : (c.modOct p g).cal = c.cal := rfl
@[simp] theorem Chip.modOct_age (p : Port) (g : OctSt → OctSt) : (c.modOct p g).age = c.age := rfl
@[simp] theorem Chip.modOct_bist (p : Port) (g : OctSt → OctSt) : (c.modOct p g).bist = c.bist := rfl
@[simp] theorem Chip.modOct_pmc (p : Port) (g : OctSt → OctSt) : (c.modOct p g).pmc = c.pmc := rfl
@[simp] theorem Chip.modOct_tpll (p : Port) (g : OctSt → OctSt) : (c.modOct p g).tpll = c.tpll := rfl
@[simp] theorem Chip.modOct_freeCtr (p : Port) (g : OctSt → OctSt) : (c.modOct p g).freeCtr = c.freeCtr := rfl
@[simp] theorem Chip.modDiag_regs (p : Port) (g : DiagSt → DiagSt) : (c.modDiag p g).regs = c.regs := rfl
@[simp] theorem Chip.modDiag_lanes (p : Port) (g : DiagSt → DiagSt) : (c.modDiag p g).lanes = c.lanes := rfl
@[simp] theorem Chip.modDiag_hgrp (p : Port) (g : DiagSt → DiagSt) : (c.modDiag p g).hgrp = c.hgrp := rfl
@[simp] theorem Chip.modDiag_quire (p : Port) (g : DiagSt → DiagSt) : (c.modDiag p g).quire = c.quire := rfl
@[simp] theorem Chip.modDiag_folio (p : Port) (g : DiagSt → DiagSt) : (c.modDiag p g).folio = c.folio := rfl
@[simp] theorem Chip.modDiag_spine (p : Port) (g : DiagSt → DiagSt) : (c.modDiag p g).spine = c.spine := rfl
@[simp] theorem Chip.modDiag_fab (p : Port) (g : DiagSt → DiagSt) : (c.modDiag p g).fab = c.fab := rfl
@[simp] theorem Chip.modDiag_binder (p : Port) (g : DiagSt → DiagSt) : (c.modDiag p g).binder = c.binder := rfl
@[simp] theorem Chip.modDiag_clk (p : Port) (g : DiagSt → DiagSt) : (c.modDiag p g).clk = c.clk := rfl
@[simp] theorem Chip.modDiag_pwr (p : Port) (g : DiagSt → DiagSt) : (c.modDiag p g).pwr = c.pwr := rfl
@[simp] theorem Chip.modDiag_cal (p : Port) (g : DiagSt → DiagSt) : (c.modDiag p g).cal = c.cal := rfl
@[simp] theorem Chip.modDiag_age (p : Port) (g : DiagSt → DiagSt) : (c.modDiag p g).age = c.age := rfl
@[simp] theorem Chip.modDiag_bist (p : Port) (g : DiagSt → DiagSt) : (c.modDiag p g).bist = c.bist := rfl
@[simp] theorem Chip.modDiag_pmc (p : Port) (g : DiagSt → DiagSt) : (c.modDiag p g).pmc = c.pmc := rfl
@[simp] theorem Chip.modDiag_tpll (p : Port) (g : DiagSt → DiagSt) : (c.modDiag p g).tpll = c.tpll := rfl
@[simp] theorem Chip.modDiag_freeCtr (p : Port) (g : DiagSt → DiagSt) : (c.modDiag p g).freeCtr = c.freeCtr := rfl
@[simp] theorem Chip.modLane_regs (l : Lane) (g : LaneSt → LaneSt) : (c.modLane l g).regs = c.regs := rfl
@[simp] theorem Chip.modLane_ports (l : Lane) (g : LaneSt → LaneSt) : (c.modLane l g).ports = c.ports := rfl
@[simp] theorem Chip.modLane_hgrp (l : Lane) (g : LaneSt → LaneSt) : (c.modLane l g).hgrp = c.hgrp := rfl
@[simp] theorem Chip.modLane_quire (l : Lane) (g : LaneSt → LaneSt) : (c.modLane l g).quire = c.quire := rfl
@[simp] theorem Chip.modLane_folio (l : Lane) (g : LaneSt → LaneSt) : (c.modLane l g).folio = c.folio := rfl
@[simp] theorem Chip.modLane_spine (l : Lane) (g : LaneSt → LaneSt) : (c.modLane l g).spine = c.spine := rfl
@[simp] theorem Chip.modLane_fab (l : Lane) (g : LaneSt → LaneSt) : (c.modLane l g).fab = c.fab := rfl
@[simp] theorem Chip.modLane_binder (l : Lane) (g : LaneSt → LaneSt) : (c.modLane l g).binder = c.binder := rfl
@[simp] theorem Chip.modLane_clk (l : Lane) (g : LaneSt → LaneSt) : (c.modLane l g).clk = c.clk := rfl
@[simp] theorem Chip.modLane_pwr (l : Lane) (g : LaneSt → LaneSt) : (c.modLane l g).pwr = c.pwr := rfl
@[simp] theorem Chip.modLane_cal (l : Lane) (g : LaneSt → LaneSt) : (c.modLane l g).cal = c.cal := rfl
@[simp] theorem Chip.modLane_age (l : Lane) (g : LaneSt → LaneSt) : (c.modLane l g).age = c.age := rfl
@[simp] theorem Chip.modLane_bist (l : Lane) (g : LaneSt → LaneSt) : (c.modLane l g).bist = c.bist := rfl
@[simp] theorem Chip.modLane_pmc (l : Lane) (g : LaneSt → LaneSt) : (c.modLane l g).pmc = c.pmc := rfl
@[simp] theorem Chip.modLane_tpll (l : Lane) (g : LaneSt → LaneSt) : (c.modLane l g).tpll = c.tpll := rfl
@[simp] theorem Chip.modLane_freeCtr (l : Lane) (g : LaneSt → LaneSt) : (c.modLane l g).freeCtr = c.freeCtr := rfl
@[simp] theorem Chip.modHgrp_regs (g : HgrpSt → HgrpSt) : (c.modHgrp g).regs = c.regs := rfl
@[simp] theorem Chip.modHgrp_ports (g : HgrpSt → HgrpSt) : (c.modHgrp g).ports = c.ports := rfl
@[simp] theorem Chip.modHgrp_lanes (g : HgrpSt → HgrpSt) : (c.modHgrp g).lanes = c.lanes := rfl
@[simp] theorem Chip.modHgrp_quire (g : HgrpSt → HgrpSt) : (c.modHgrp g).quire = c.quire := rfl
@[simp] theorem Chip.modHgrp_folio (g : HgrpSt → HgrpSt) : (c.modHgrp g).folio = c.folio := rfl
@[simp] theorem Chip.modHgrp_spine (g : HgrpSt → HgrpSt) : (c.modHgrp g).spine = c.spine := rfl
@[simp] theorem Chip.modHgrp_fab (g : HgrpSt → HgrpSt) : (c.modHgrp g).fab = c.fab := rfl
@[simp] theorem Chip.modHgrp_binder (g : HgrpSt → HgrpSt) : (c.modHgrp g).binder = c.binder := rfl
@[simp] theorem Chip.modHgrp_clk (g : HgrpSt → HgrpSt) : (c.modHgrp g).clk = c.clk := rfl
@[simp] theorem Chip.modHgrp_pwr (g : HgrpSt → HgrpSt) : (c.modHgrp g).pwr = c.pwr := rfl
@[simp] theorem Chip.modHgrp_cal (g : HgrpSt → HgrpSt) : (c.modHgrp g).cal = c.cal := rfl
@[simp] theorem Chip.modHgrp_age (g : HgrpSt → HgrpSt) : (c.modHgrp g).age = c.age := rfl
@[simp] theorem Chip.modHgrp_bist (g : HgrpSt → HgrpSt) : (c.modHgrp g).bist = c.bist := rfl
@[simp] theorem Chip.modHgrp_pmc (g : HgrpSt → HgrpSt) : (c.modHgrp g).pmc = c.pmc := rfl
@[simp] theorem Chip.modHgrp_tpll (g : HgrpSt → HgrpSt) : (c.modHgrp g).tpll = c.tpll := rfl
@[simp] theorem Chip.modHgrp_freeCtr (g : HgrpSt → HgrpSt) : (c.modHgrp g).freeCtr = c.freeCtr := rfl
@[simp] theorem Chip.modQ_regs (q : Queue) (g : QSt → QSt) : (c.modQ q g).regs = c.regs := rfl
@[simp] theorem Chip.modQ_ports (q : Queue) (g : QSt → QSt) : (c.modQ q g).ports = c.ports := rfl
@[simp] theorem Chip.modQ_lanes (q : Queue) (g : QSt → QSt) : (c.modQ q g).lanes = c.lanes := rfl
@[simp] theorem Chip.modQ_hgrp (q : Queue) (g : QSt → QSt) : (c.modQ q g).hgrp = c.hgrp := rfl
@[simp] theorem Chip.modQ_folio (q : Queue) (g : QSt → QSt) : (c.modQ q g).folio = c.folio := rfl
@[simp] theorem Chip.modQ_spine (q : Queue) (g : QSt → QSt) : (c.modQ q g).spine = c.spine := rfl
@[simp] theorem Chip.modQ_fab (q : Queue) (g : QSt → QSt) : (c.modQ q g).fab = c.fab := rfl
@[simp] theorem Chip.modQ_binder (q : Queue) (g : QSt → QSt) : (c.modQ q g).binder = c.binder := rfl
@[simp] theorem Chip.modQ_clk (q : Queue) (g : QSt → QSt) : (c.modQ q g).clk = c.clk := rfl
@[simp] theorem Chip.modQ_pwr (q : Queue) (g : QSt → QSt) : (c.modQ q g).pwr = c.pwr := rfl
@[simp] theorem Chip.modQ_cal (q : Queue) (g : QSt → QSt) : (c.modQ q g).cal = c.cal := rfl
@[simp] theorem Chip.modQ_age (q : Queue) (g : QSt → QSt) : (c.modQ q g).age = c.age := rfl
@[simp] theorem Chip.modQ_bist (q : Queue) (g : QSt → QSt) : (c.modQ q g).bist = c.bist := rfl
@[simp] theorem Chip.modQ_pmc (q : Queue) (g : QSt → QSt) : (c.modQ q g).pmc = c.pmc := rfl
@[simp] theorem Chip.modQ_tpll (q : Queue) (g : QSt → QSt) : (c.modQ q g).tpll = c.tpll := rfl
@[simp] theorem Chip.modQ_freeCtr (q : Queue) (g : QSt → QSt) : (c.modQ q g).freeCtr = c.freeCtr := rfl
@[simp] theorem Chip.modOut_regs (o : Fin 9) (g : OutSt → OutSt) : (c.modOut o g).regs = c.regs := rfl
@[simp] theorem Chip.modOut_ports (o : Fin 9) (g : OutSt → OutSt) : (c.modOut o g).ports = c.ports := rfl
@[simp] theorem Chip.modOut_lanes (o : Fin 9) (g : OutSt → OutSt) : (c.modOut o g).lanes = c.lanes := rfl
@[simp] theorem Chip.modOut_hgrp (o : Fin 9) (g : OutSt → OutSt) : (c.modOut o g).hgrp = c.hgrp := rfl
@[simp] theorem Chip.modOut_folio (o : Fin 9) (g : OutSt → OutSt) : (c.modOut o g).folio = c.folio := rfl
@[simp] theorem Chip.modOut_spine (o : Fin 9) (g : OutSt → OutSt) : (c.modOut o g).spine = c.spine := rfl
@[simp] theorem Chip.modOut_fab (o : Fin 9) (g : OutSt → OutSt) : (c.modOut o g).fab = c.fab := rfl
@[simp] theorem Chip.modOut_binder (o : Fin 9) (g : OutSt → OutSt) : (c.modOut o g).binder = c.binder := rfl
@[simp] theorem Chip.modOut_clk (o : Fin 9) (g : OutSt → OutSt) : (c.modOut o g).clk = c.clk := rfl
@[simp] theorem Chip.modOut_pwr (o : Fin 9) (g : OutSt → OutSt) : (c.modOut o g).pwr = c.pwr := rfl
@[simp] theorem Chip.modOut_cal (o : Fin 9) (g : OutSt → OutSt) : (c.modOut o g).cal = c.cal := rfl
@[simp] theorem Chip.modOut_age (o : Fin 9) (g : OutSt → OutSt) : (c.modOut o g).age = c.age := rfl
@[simp] theorem Chip.modOut_bist (o : Fin 9) (g : OutSt → OutSt) : (c.modOut o g).bist = c.bist := rfl
@[simp] theorem Chip.modOut_pmc (o : Fin 9) (g : OutSt → OutSt) : (c.modOut o g).pmc = c.pmc := rfl
@[simp] theorem Chip.modOut_tpll (o : Fin 9) (g : OutSt → OutSt) : (c.modOut o g).tpll = c.tpll := rfl
@[simp] theorem Chip.modOut_freeCtr (o : Fin 9) (g : OutSt → OutSt) : (c.modOut o g).freeCtr = c.freeCtr := rfl
@[simp] theorem Chip.modQuire_regs (g : QuireSt → QuireSt) : (c.modQuire g).regs = c.regs := rfl
@[simp] theorem Chip.modQuire_ports (g : QuireSt → QuireSt) : (c.modQuire g).ports = c.ports := rfl
@[simp] theorem Chip.modQuire_lanes (g : QuireSt → QuireSt) : (c.modQuire g).lanes = c.lanes := rfl
@[simp] theorem Chip.modQuire_hgrp (g : QuireSt → QuireSt) : (c.modQuire g).hgrp = c.hgrp := rfl
@[simp] theorem Chip.modQuire_folio (g : QuireSt → QuireSt) : (c.modQuire g).folio = c.folio := rfl
@[simp] theorem Chip.modQuire_spine (g : QuireSt → QuireSt) : (c.modQuire g).spine = c.spine := rfl
@[simp] theorem Chip.modQuire_fab (g : QuireSt → QuireSt) : (c.modQuire g).fab = c.fab := rfl
@[simp] theorem Chip.modQuire_binder (g : QuireSt → QuireSt) : (c.modQuire g).binder = c.binder := rfl
@[simp] theorem Chip.modQuire_clk (g : QuireSt → QuireSt) : (c.modQuire g).clk = c.clk := rfl
@[simp] theorem Chip.modQuire_pwr (g : QuireSt → QuireSt) : (c.modQuire g).pwr = c.pwr := rfl
@[simp] theorem Chip.modQuire_cal (g : QuireSt → QuireSt) : (c.modQuire g).cal = c.cal := rfl
@[simp] theorem Chip.modQuire_age (g : QuireSt → QuireSt) : (c.modQuire g).age = c.age := rfl
@[simp] theorem Chip.modQuire_bist (g : QuireSt → QuireSt) : (c.modQuire g).bist = c.bist := rfl
@[simp] theorem Chip.modQuire_pmc (g : QuireSt → QuireSt) : (c.modQuire g).pmc = c.pmc := rfl
@[simp] theorem Chip.modQuire_tpll (g : QuireSt → QuireSt) : (c.modQuire g).tpll = c.tpll := rfl
@[simp] theorem Chip.modQuire_freeCtr (g : QuireSt → QuireSt) : (c.modQuire g).freeCtr = c.freeCtr := rfl
@[simp] theorem Chip.modFolio_regs (g : FolioSt → FolioSt) : (c.modFolio g).regs = c.regs := rfl
@[simp] theorem Chip.modFolio_ports (g : FolioSt → FolioSt) : (c.modFolio g).ports = c.ports := rfl
@[simp] theorem Chip.modFolio_lanes (g : FolioSt → FolioSt) : (c.modFolio g).lanes = c.lanes := rfl
@[simp] theorem Chip.modFolio_hgrp (g : FolioSt → FolioSt) : (c.modFolio g).hgrp = c.hgrp := rfl
@[simp] theorem Chip.modFolio_quire (g : FolioSt → FolioSt) : (c.modFolio g).quire = c.quire := rfl
@[simp] theorem Chip.modFolio_spine (g : FolioSt → FolioSt) : (c.modFolio g).spine = c.spine := rfl
@[simp] theorem Chip.modFolio_fab (g : FolioSt → FolioSt) : (c.modFolio g).fab = c.fab := rfl
@[simp] theorem Chip.modFolio_binder (g : FolioSt → FolioSt) : (c.modFolio g).binder = c.binder := rfl
@[simp] theorem Chip.modFolio_clk (g : FolioSt → FolioSt) : (c.modFolio g).clk = c.clk := rfl
@[simp] theorem Chip.modFolio_pwr (g : FolioSt → FolioSt) : (c.modFolio g).pwr = c.pwr := rfl
@[simp] theorem Chip.modFolio_cal (g : FolioSt → FolioSt) : (c.modFolio g).cal = c.cal := rfl
@[simp] theorem Chip.modFolio_age (g : FolioSt → FolioSt) : (c.modFolio g).age = c.age := rfl
@[simp] theorem Chip.modFolio_bist (g : FolioSt → FolioSt) : (c.modFolio g).bist = c.bist := rfl
@[simp] theorem Chip.modFolio_pmc (g : FolioSt → FolioSt) : (c.modFolio g).pmc = c.pmc := rfl
@[simp] theorem Chip.modFolio_tpll (g : FolioSt → FolioSt) : (c.modFolio g).tpll = c.tpll := rfl
@[simp] theorem Chip.modFolio_freeCtr (g : FolioSt → FolioSt) : (c.modFolio g).freeCtr = c.freeCtr := rfl
@[simp] theorem Chip.modPtp_regs (i : Fin 16) (g : PtpSt → PtpSt) : (c.modPtp i g).regs = c.regs := rfl
@[simp] theorem Chip.modPtp_ports (i : Fin 16) (g : PtpSt → PtpSt) : (c.modPtp i g).ports = c.ports := rfl
@[simp] theorem Chip.modPtp_lanes (i : Fin 16) (g : PtpSt → PtpSt) : (c.modPtp i g).lanes = c.lanes := rfl
@[simp] theorem Chip.modPtp_hgrp (i : Fin 16) (g : PtpSt → PtpSt) : (c.modPtp i g).hgrp = c.hgrp := rfl
@[simp] theorem Chip.modPtp_quire (i : Fin 16) (g : PtpSt → PtpSt) : (c.modPtp i g).quire = c.quire := rfl
@[simp] theorem Chip.modPtp_spine (i : Fin 16) (g : PtpSt → PtpSt) : (c.modPtp i g).spine = c.spine := rfl
@[simp] theorem Chip.modPtp_fab (i : Fin 16) (g : PtpSt → PtpSt) : (c.modPtp i g).fab = c.fab := rfl
@[simp] theorem Chip.modPtp_binder (i : Fin 16) (g : PtpSt → PtpSt) : (c.modPtp i g).binder = c.binder := rfl
@[simp] theorem Chip.modPtp_clk (i : Fin 16) (g : PtpSt → PtpSt) : (c.modPtp i g).clk = c.clk := rfl
@[simp] theorem Chip.modPtp_pwr (i : Fin 16) (g : PtpSt → PtpSt) : (c.modPtp i g).pwr = c.pwr := rfl
@[simp] theorem Chip.modPtp_cal (i : Fin 16) (g : PtpSt → PtpSt) : (c.modPtp i g).cal = c.cal := rfl
@[simp] theorem Chip.modPtp_age (i : Fin 16) (g : PtpSt → PtpSt) : (c.modPtp i g).age = c.age := rfl
@[simp] theorem Chip.modPtp_bist (i : Fin 16) (g : PtpSt → PtpSt) : (c.modPtp i g).bist = c.bist := rfl
@[simp] theorem Chip.modPtp_pmc (i : Fin 16) (g : PtpSt → PtpSt) : (c.modPtp i g).pmc = c.pmc := rfl
@[simp] theorem Chip.modPtp_tpll (i : Fin 16) (g : PtpSt → PtpSt) : (c.modPtp i g).tpll = c.tpll := rfl
@[simp] theorem Chip.modPtp_freeCtr (i : Fin 16) (g : PtpSt → PtpSt) : (c.modPtp i g).freeCtr = c.freeCtr := rfl
@[simp] theorem Chip.modCap_regs (i : Fin 4) (g : CapSt → CapSt) : (c.modCap i g).regs = c.regs := rfl
@[simp] theorem Chip.modCap_ports (i : Fin 4) (g : CapSt → CapSt) : (c.modCap i g).ports = c.ports := rfl
@[simp] theorem Chip.modCap_lanes (i : Fin 4) (g : CapSt → CapSt) : (c.modCap i g).lanes = c.lanes := rfl
@[simp] theorem Chip.modCap_hgrp (i : Fin 4) (g : CapSt → CapSt) : (c.modCap i g).hgrp = c.hgrp := rfl
@[simp] theorem Chip.modCap_quire (i : Fin 4) (g : CapSt → CapSt) : (c.modCap i g).quire = c.quire := rfl
@[simp] theorem Chip.modCap_spine (i : Fin 4) (g : CapSt → CapSt) : (c.modCap i g).spine = c.spine := rfl
@[simp] theorem Chip.modCap_fab (i : Fin 4) (g : CapSt → CapSt) : (c.modCap i g).fab = c.fab := rfl
@[simp] theorem Chip.modCap_binder (i : Fin 4) (g : CapSt → CapSt) : (c.modCap i g).binder = c.binder := rfl
@[simp] theorem Chip.modCap_clk (i : Fin 4) (g : CapSt → CapSt) : (c.modCap i g).clk = c.clk := rfl
@[simp] theorem Chip.modCap_pwr (i : Fin 4) (g : CapSt → CapSt) : (c.modCap i g).pwr = c.pwr := rfl
@[simp] theorem Chip.modCap_cal (i : Fin 4) (g : CapSt → CapSt) : (c.modCap i g).cal = c.cal := rfl
@[simp] theorem Chip.modCap_age (i : Fin 4) (g : CapSt → CapSt) : (c.modCap i g).age = c.age := rfl
@[simp] theorem Chip.modCap_bist (i : Fin 4) (g : CapSt → CapSt) : (c.modCap i g).bist = c.bist := rfl
@[simp] theorem Chip.modCap_pmc (i : Fin 4) (g : CapSt → CapSt) : (c.modCap i g).pmc = c.pmc := rfl
@[simp] theorem Chip.modCap_tpll (i : Fin 4) (g : CapSt → CapSt) : (c.modCap i g).tpll = c.tpll := rfl
@[simp] theorem Chip.modCap_freeCtr (i : Fin 4) (g : CapSt → CapSt) : (c.modCap i g).freeCtr = c.freeCtr := rfl
@[simp] theorem Chip.modEvo_regs (i : Fin 4) (g : EvtOut → EvtOut) : (c.modEvo i g).regs = c.regs := rfl
@[simp] theorem Chip.modEvo_ports (i : Fin 4) (g : EvtOut → EvtOut) : (c.modEvo i g).ports = c.ports := rfl
@[simp] theorem Chip.modEvo_lanes (i : Fin 4) (g : EvtOut → EvtOut) : (c.modEvo i g).lanes = c.lanes := rfl
@[simp] theorem Chip.modEvo_hgrp (i : Fin 4) (g : EvtOut → EvtOut) : (c.modEvo i g).hgrp = c.hgrp := rfl
@[simp] theorem Chip.modEvo_quire (i : Fin 4) (g : EvtOut → EvtOut) : (c.modEvo i g).quire = c.quire := rfl
@[simp] theorem Chip.modEvo_spine (i : Fin 4) (g : EvtOut → EvtOut) : (c.modEvo i g).spine = c.spine := rfl
@[simp] theorem Chip.modEvo_fab (i : Fin 4) (g : EvtOut → EvtOut) : (c.modEvo i g).fab = c.fab := rfl
@[simp] theorem Chip.modEvo_binder (i : Fin 4) (g : EvtOut → EvtOut) : (c.modEvo i g).binder = c.binder := rfl
@[simp] theorem Chip.modEvo_clk (i : Fin 4) (g : EvtOut → EvtOut) : (c.modEvo i g).clk = c.clk := rfl
@[simp] theorem Chip.modEvo_pwr (i : Fin 4) (g : EvtOut → EvtOut) : (c.modEvo i g).pwr = c.pwr := rfl
@[simp] theorem Chip.modEvo_cal (i : Fin 4) (g : EvtOut → EvtOut) : (c.modEvo i g).cal = c.cal := rfl
@[simp] theorem Chip.modEvo_age (i : Fin 4) (g : EvtOut → EvtOut) : (c.modEvo i g).age = c.age := rfl
@[simp] theorem Chip.modEvo_bist (i : Fin 4) (g : EvtOut → EvtOut) : (c.modEvo i g).bist = c.bist := rfl
@[simp] theorem Chip.modEvo_pmc (i : Fin 4) (g : EvtOut → EvtOut) : (c.modEvo i g).pmc = c.pmc := rfl
@[simp] theorem Chip.modEvo_tpll (i : Fin 4) (g : EvtOut → EvtOut) : (c.modEvo i g).tpll = c.tpll := rfl
@[simp] theorem Chip.modEvo_freeCtr (i : Fin 4) (g : EvtOut → EvtOut) : (c.modEvo i g).freeCtr = c.freeCtr := rfl
@[simp] theorem Chip.modSpine_regs (g : SpineSt → SpineSt) : (c.modSpine g).regs = c.regs := rfl
@[simp] theorem Chip.modSpine_ports (g : SpineSt → SpineSt) : (c.modSpine g).ports = c.ports := rfl
@[simp] theorem Chip.modSpine_lanes (g : SpineSt → SpineSt) : (c.modSpine g).lanes = c.lanes := rfl
@[simp] theorem Chip.modSpine_hgrp (g : SpineSt → SpineSt) : (c.modSpine g).hgrp = c.hgrp := rfl
@[simp] theorem Chip.modSpine_quire (g : SpineSt → SpineSt) : (c.modSpine g).quire = c.quire := rfl
@[simp] theorem Chip.modSpine_folio (g : SpineSt → SpineSt) : (c.modSpine g).folio = c.folio := rfl
@[simp] theorem Chip.modSpine_fab (g : SpineSt → SpineSt) : (c.modSpine g).fab = c.fab := rfl
@[simp] theorem Chip.modSpine_binder (g : SpineSt → SpineSt) : (c.modSpine g).binder = c.binder := rfl
@[simp] theorem Chip.modSpine_clk (g : SpineSt → SpineSt) : (c.modSpine g).clk = c.clk := rfl
@[simp] theorem Chip.modSpine_pwr (g : SpineSt → SpineSt) : (c.modSpine g).pwr = c.pwr := rfl
@[simp] theorem Chip.modSpine_cal (g : SpineSt → SpineSt) : (c.modSpine g).cal = c.cal := rfl
@[simp] theorem Chip.modSpine_age (g : SpineSt → SpineSt) : (c.modSpine g).age = c.age := rfl
@[simp] theorem Chip.modSpine_bist (g : SpineSt → SpineSt) : (c.modSpine g).bist = c.bist := rfl
@[simp] theorem Chip.modSpine_pmc (g : SpineSt → SpineSt) : (c.modSpine g).pmc = c.pmc := rfl
@[simp] theorem Chip.modSpine_tpll (g : SpineSt → SpineSt) : (c.modSpine g).tpll = c.tpll := rfl
@[simp] theorem Chip.modSpine_freeCtr (g : SpineSt → SpineSt) : (c.modSpine g).freeCtr = c.freeCtr := rfl
@[simp] theorem Chip.modIfc_regs (i : Ifc) (g : IfcSt → IfcSt) : (c.modIfc i g).regs = c.regs := rfl
@[simp] theorem Chip.modIfc_ports (i : Ifc) (g : IfcSt → IfcSt) : (c.modIfc i g).ports = c.ports := rfl
@[simp] theorem Chip.modIfc_lanes (i : Ifc) (g : IfcSt → IfcSt) : (c.modIfc i g).lanes = c.lanes := rfl
@[simp] theorem Chip.modIfc_hgrp (i : Ifc) (g : IfcSt → IfcSt) : (c.modIfc i g).hgrp = c.hgrp := rfl
@[simp] theorem Chip.modIfc_quire (i : Ifc) (g : IfcSt → IfcSt) : (c.modIfc i g).quire = c.quire := rfl
@[simp] theorem Chip.modIfc_folio (i : Ifc) (g : IfcSt → IfcSt) : (c.modIfc i g).folio = c.folio := rfl
@[simp] theorem Chip.modIfc_spine (i : Ifc) (g : IfcSt → IfcSt) : (c.modIfc i g).spine = c.spine := rfl
@[simp] theorem Chip.modIfc_binder (i : Ifc) (g : IfcSt → IfcSt) : (c.modIfc i g).binder = c.binder := rfl
@[simp] theorem Chip.modIfc_clk (i : Ifc) (g : IfcSt → IfcSt) : (c.modIfc i g).clk = c.clk := rfl
@[simp] theorem Chip.modIfc_pwr (i : Ifc) (g : IfcSt → IfcSt) : (c.modIfc i g).pwr = c.pwr := rfl
@[simp] theorem Chip.modIfc_cal (i : Ifc) (g : IfcSt → IfcSt) : (c.modIfc i g).cal = c.cal := rfl
@[simp] theorem Chip.modIfc_age (i : Ifc) (g : IfcSt → IfcSt) : (c.modIfc i g).age = c.age := rfl
@[simp] theorem Chip.modIfc_bist (i : Ifc) (g : IfcSt → IfcSt) : (c.modIfc i g).bist = c.bist := rfl
@[simp] theorem Chip.modIfc_pmc (i : Ifc) (g : IfcSt → IfcSt) : (c.modIfc i g).pmc = c.pmc := rfl
@[simp] theorem Chip.modIfc_tpll (i : Ifc) (g : IfcSt → IfcSt) : (c.modIfc i g).tpll = c.tpll := rfl
@[simp] theorem Chip.modIfc_freeCtr (i : Ifc) (g : IfcSt → IfcSt) : (c.modIfc i g).freeCtr = c.freeCtr := rfl
@[simp] theorem Chip.modFab_regs (g : FabSt → FabSt) : (c.modFab g).regs = c.regs := rfl
@[simp] theorem Chip.modFab_ports (g : FabSt → FabSt) : (c.modFab g).ports = c.ports := rfl
@[simp] theorem Chip.modFab_lanes (g : FabSt → FabSt) : (c.modFab g).lanes = c.lanes := rfl
@[simp] theorem Chip.modFab_hgrp (g : FabSt → FabSt) : (c.modFab g).hgrp = c.hgrp := rfl
@[simp] theorem Chip.modFab_quire (g : FabSt → FabSt) : (c.modFab g).quire = c.quire := rfl
@[simp] theorem Chip.modFab_folio (g : FabSt → FabSt) : (c.modFab g).folio = c.folio := rfl
@[simp] theorem Chip.modFab_spine (g : FabSt → FabSt) : (c.modFab g).spine = c.spine := rfl
@[simp] theorem Chip.modFab_binder (g : FabSt → FabSt) : (c.modFab g).binder = c.binder := rfl
@[simp] theorem Chip.modFab_clk (g : FabSt → FabSt) : (c.modFab g).clk = c.clk := rfl
@[simp] theorem Chip.modFab_pwr (g : FabSt → FabSt) : (c.modFab g).pwr = c.pwr := rfl
@[simp] theorem Chip.modFab_cal (g : FabSt → FabSt) : (c.modFab g).cal = c.cal := rfl
@[simp] theorem Chip.modFab_age (g : FabSt → FabSt) : (c.modFab g).age = c.age := rfl
@[simp] theorem Chip.modFab_bist (g : FabSt → FabSt) : (c.modFab g).bist = c.bist := rfl
@[simp] theorem Chip.modFab_pmc (g : FabSt → FabSt) : (c.modFab g).pmc = c.pmc := rfl
@[simp] theorem Chip.modFab_tpll (g : FabSt → FabSt) : (c.modFab g).tpll = c.tpll := rfl
@[simp] theorem Chip.modFab_freeCtr (g : FabSt → FabSt) : (c.modFab g).freeCtr = c.freeCtr := rfl
@[simp] theorem Chip.modBinder_regs (g : BinderSt → BinderSt) : (c.modBinder g).regs = c.regs := rfl
@[simp] theorem Chip.modBinder_ports (g : BinderSt → BinderSt) : (c.modBinder g).ports = c.ports := rfl
@[simp] theorem Chip.modBinder_lanes (g : BinderSt → BinderSt) : (c.modBinder g).lanes = c.lanes := rfl
@[simp] theorem Chip.modBinder_hgrp (g : BinderSt → BinderSt) : (c.modBinder g).hgrp = c.hgrp := rfl
@[simp] theorem Chip.modBinder_quire (g : BinderSt → BinderSt) : (c.modBinder g).quire = c.quire := rfl
@[simp] theorem Chip.modBinder_folio (g : BinderSt → BinderSt) : (c.modBinder g).folio = c.folio := rfl
@[simp] theorem Chip.modBinder_spine (g : BinderSt → BinderSt) : (c.modBinder g).spine = c.spine := rfl
@[simp] theorem Chip.modBinder_fab (g : BinderSt → BinderSt) : (c.modBinder g).fab = c.fab := rfl
@[simp] theorem Chip.modBinder_clk (g : BinderSt → BinderSt) : (c.modBinder g).clk = c.clk := rfl
@[simp] theorem Chip.modBinder_pwr (g : BinderSt → BinderSt) : (c.modBinder g).pwr = c.pwr := rfl
@[simp] theorem Chip.modBinder_cal (g : BinderSt → BinderSt) : (c.modBinder g).cal = c.cal := rfl
@[simp] theorem Chip.modBinder_age (g : BinderSt → BinderSt) : (c.modBinder g).age = c.age := rfl
@[simp] theorem Chip.modBinder_bist (g : BinderSt → BinderSt) : (c.modBinder g).bist = c.bist := rfl
@[simp] theorem Chip.modBinder_pmc (g : BinderSt → BinderSt) : (c.modBinder g).pmc = c.pmc := rfl
@[simp] theorem Chip.modBinder_tpll (g : BinderSt → BinderSt) : (c.modBinder g).tpll = c.tpll := rfl
@[simp] theorem Chip.modBinder_freeCtr (g : BinderSt → BinderSt) : (c.modBinder g).freeCtr = c.freeCtr := rfl
@[simp] theorem Chip.modMb_regs (m : Fin 4) (g : MbSt → MbSt) : (c.modMb m g).regs = c.regs := rfl
@[simp] theorem Chip.modMb_ports (m : Fin 4) (g : MbSt → MbSt) : (c.modMb m g).ports = c.ports := rfl
@[simp] theorem Chip.modMb_lanes (m : Fin 4) (g : MbSt → MbSt) : (c.modMb m g).lanes = c.lanes := rfl
@[simp] theorem Chip.modMb_hgrp (m : Fin 4) (g : MbSt → MbSt) : (c.modMb m g).hgrp = c.hgrp := rfl
@[simp] theorem Chip.modMb_quire (m : Fin 4) (g : MbSt → MbSt) : (c.modMb m g).quire = c.quire := rfl
@[simp] theorem Chip.modMb_folio (m : Fin 4) (g : MbSt → MbSt) : (c.modMb m g).folio = c.folio := rfl
@[simp] theorem Chip.modMb_spine (m : Fin 4) (g : MbSt → MbSt) : (c.modMb m g).spine = c.spine := rfl
@[simp] theorem Chip.modMb_fab (m : Fin 4) (g : MbSt → MbSt) : (c.modMb m g).fab = c.fab := rfl
@[simp] theorem Chip.modMb_clk (m : Fin 4) (g : MbSt → MbSt) : (c.modMb m g).clk = c.clk := rfl
@[simp] theorem Chip.modMb_pwr (m : Fin 4) (g : MbSt → MbSt) : (c.modMb m g).pwr = c.pwr := rfl
@[simp] theorem Chip.modMb_cal (m : Fin 4) (g : MbSt → MbSt) : (c.modMb m g).cal = c.cal := rfl
@[simp] theorem Chip.modMb_age (m : Fin 4) (g : MbSt → MbSt) : (c.modMb m g).age = c.age := rfl
@[simp] theorem Chip.modMb_bist (m : Fin 4) (g : MbSt → MbSt) : (c.modMb m g).bist = c.bist := rfl
@[simp] theorem Chip.modMb_pmc (m : Fin 4) (g : MbSt → MbSt) : (c.modMb m g).pmc = c.pmc := rfl
@[simp] theorem Chip.modMb_tpll (m : Fin 4) (g : MbSt → MbSt) : (c.modMb m g).tpll = c.tpll := rfl
@[simp] theorem Chip.modMb_freeCtr (m : Fin 4) (g : MbSt → MbSt) : (c.modMb m g).freeCtr = c.freeCtr := rfl
@[simp] theorem Chip.modJob_regs (j : Fin 8) (g : JobSt → JobSt) : (c.modJob j g).regs = c.regs := rfl
@[simp] theorem Chip.modJob_ports (j : Fin 8) (g : JobSt → JobSt) : (c.modJob j g).ports = c.ports := rfl
@[simp] theorem Chip.modJob_lanes (j : Fin 8) (g : JobSt → JobSt) : (c.modJob j g).lanes = c.lanes := rfl
@[simp] theorem Chip.modJob_hgrp (j : Fin 8) (g : JobSt → JobSt) : (c.modJob j g).hgrp = c.hgrp := rfl
@[simp] theorem Chip.modJob_quire (j : Fin 8) (g : JobSt → JobSt) : (c.modJob j g).quire = c.quire := rfl
@[simp] theorem Chip.modJob_folio (j : Fin 8) (g : JobSt → JobSt) : (c.modJob j g).folio = c.folio := rfl
@[simp] theorem Chip.modJob_spine (j : Fin 8) (g : JobSt → JobSt) : (c.modJob j g).spine = c.spine := rfl
@[simp] theorem Chip.modJob_fab (j : Fin 8) (g : JobSt → JobSt) : (c.modJob j g).fab = c.fab := rfl
@[simp] theorem Chip.modJob_clk (j : Fin 8) (g : JobSt → JobSt) : (c.modJob j g).clk = c.clk := rfl
@[simp] theorem Chip.modJob_pwr (j : Fin 8) (g : JobSt → JobSt) : (c.modJob j g).pwr = c.pwr := rfl
@[simp] theorem Chip.modJob_cal (j : Fin 8) (g : JobSt → JobSt) : (c.modJob j g).cal = c.cal := rfl
@[simp] theorem Chip.modJob_age (j : Fin 8) (g : JobSt → JobSt) : (c.modJob j g).age = c.age := rfl
@[simp] theorem Chip.modJob_bist (j : Fin 8) (g : JobSt → JobSt) : (c.modJob j g).bist = c.bist := rfl
@[simp] theorem Chip.modJob_pmc (j : Fin 8) (g : JobSt → JobSt) : (c.modJob j g).pmc = c.pmc := rfl
@[simp] theorem Chip.modJob_tpll (j : Fin 8) (g : JobSt → JobSt) : (c.modJob j g).tpll = c.tpll := rfl
@[simp] theorem Chip.modJob_freeCtr (j : Fin 8) (g : JobSt → JobSt) : (c.modJob j g).freeCtr = c.freeCtr := rfl
@[simp] theorem Chip.modClk_regs (g : ClkSt → ClkSt) : (c.modClk g).regs = c.regs := rfl
@[simp] theorem Chip.modClk_ports (g : ClkSt → ClkSt) : (c.modClk g).ports = c.ports := rfl
@[simp] theorem Chip.modClk_lanes (g : ClkSt → ClkSt) : (c.modClk g).lanes = c.lanes := rfl
@[simp] theorem Chip.modClk_hgrp (g : ClkSt → ClkSt) : (c.modClk g).hgrp = c.hgrp := rfl
@[simp] theorem Chip.modClk_quire (g : ClkSt → ClkSt) : (c.modClk g).quire = c.quire := rfl
@[simp] theorem Chip.modClk_folio (g : ClkSt → ClkSt) : (c.modClk g).folio = c.folio := rfl
@[simp] theorem Chip.modClk_spine (g : ClkSt → ClkSt) : (c.modClk g).spine = c.spine := rfl
@[simp] theorem Chip.modClk_fab (g : ClkSt → ClkSt) : (c.modClk g).fab = c.fab := rfl
@[simp] theorem Chip.modClk_binder (g : ClkSt → ClkSt) : (c.modClk g).binder = c.binder := rfl
@[simp] theorem Chip.modClk_pwr (g : ClkSt → ClkSt) : (c.modClk g).pwr = c.pwr := rfl
@[simp] theorem Chip.modClk_cal (g : ClkSt → ClkSt) : (c.modClk g).cal = c.cal := rfl
@[simp] theorem Chip.modClk_age (g : ClkSt → ClkSt) : (c.modClk g).age = c.age := rfl
@[simp] theorem Chip.modClk_bist (g : ClkSt → ClkSt) : (c.modClk g).bist = c.bist := rfl
@[simp] theorem Chip.modClk_pmc (g : ClkSt → ClkSt) : (c.modClk g).pmc = c.pmc := rfl
@[simp] theorem Chip.modClk_tpll (g : ClkSt → ClkSt) : (c.modClk g).tpll = c.tpll := rfl
@[simp] theorem Chip.modClk_freeCtr (g : ClkSt → ClkSt) : (c.modClk g).freeCtr = c.freeCtr := rfl
@[simp] theorem Chip.modPwr_regs (g : PwrSt → PwrSt) : (c.modPwr g).regs = c.regs := rfl
@[simp] theorem Chip.modPwr_ports (g : PwrSt → PwrSt) : (c.modPwr g).ports = c.ports := rfl
@[simp] theorem Chip.modPwr_lanes (g : PwrSt → PwrSt) : (c.modPwr g).lanes = c.lanes := rfl
@[simp] theorem Chip.modPwr_hgrp (g : PwrSt → PwrSt) : (c.modPwr g).hgrp = c.hgrp := rfl
@[simp] theorem Chip.modPwr_quire (g : PwrSt → PwrSt) : (c.modPwr g).quire = c.quire := rfl
@[simp] theorem Chip.modPwr_folio (g : PwrSt → PwrSt) : (c.modPwr g).folio = c.folio := rfl
@[simp] theorem Chip.modPwr_spine (g : PwrSt → PwrSt) : (c.modPwr g).spine = c.spine := rfl
@[simp] theorem Chip.modPwr_fab (g : PwrSt → PwrSt) : (c.modPwr g).fab = c.fab := rfl
@[simp] theorem Chip.modPwr_binder (g : PwrSt → PwrSt) : (c.modPwr g).binder = c.binder := rfl
@[simp] theorem Chip.modPwr_clk (g : PwrSt → PwrSt) : (c.modPwr g).clk = c.clk := rfl
@[simp] theorem Chip.modPwr_cal (g : PwrSt → PwrSt) : (c.modPwr g).cal = c.cal := rfl
@[simp] theorem Chip.modPwr_age (g : PwrSt → PwrSt) : (c.modPwr g).age = c.age := rfl
@[simp] theorem Chip.modPwr_bist (g : PwrSt → PwrSt) : (c.modPwr g).bist = c.bist := rfl
@[simp] theorem Chip.modPwr_pmc (g : PwrSt → PwrSt) : (c.modPwr g).pmc = c.pmc := rfl
@[simp] theorem Chip.modPwr_tpll (g : PwrSt → PwrSt) : (c.modPwr g).tpll = c.tpll := rfl
@[simp] theorem Chip.modPwr_freeCtr (g : PwrSt → PwrSt) : (c.modPwr g).freeCtr = c.freeCtr := rfl
@[simp] theorem Chip.modCal_regs (g : CalSt → CalSt) : (c.modCal g).regs = c.regs := rfl
@[simp] theorem Chip.modCal_ports (g : CalSt → CalSt) : (c.modCal g).ports = c.ports := rfl
@[simp] theorem Chip.modCal_lanes (g : CalSt → CalSt) : (c.modCal g).lanes = c.lanes := rfl
@[simp] theorem Chip.modCal_hgrp (g : CalSt → CalSt) : (c.modCal g).hgrp = c.hgrp := rfl
@[simp] theorem Chip.modCal_quire (g : CalSt → CalSt) : (c.modCal g).quire = c.quire := rfl
@[simp] theorem Chip.modCal_folio (g : CalSt → CalSt) : (c.modCal g).folio = c.folio := rfl
@[simp] theorem Chip.modCal_spine (g : CalSt → CalSt) : (c.modCal g).spine = c.spine := rfl
@[simp] theorem Chip.modCal_fab (g : CalSt → CalSt) : (c.modCal g).fab = c.fab := rfl
@[simp] theorem Chip.modCal_binder (g : CalSt → CalSt) : (c.modCal g).binder = c.binder := rfl
@[simp] theorem Chip.modCal_clk (g : CalSt → CalSt) : (c.modCal g).clk = c.clk := rfl
@[simp] theorem Chip.modCal_pwr (g : CalSt → CalSt) : (c.modCal g).pwr = c.pwr := rfl
@[simp] theorem Chip.modCal_age (g : CalSt → CalSt) : (c.modCal g).age = c.age := rfl
@[simp] theorem Chip.modCal_bist (g : CalSt → CalSt) : (c.modCal g).bist = c.bist := rfl
@[simp] theorem Chip.modCal_pmc (g : CalSt → CalSt) : (c.modCal g).pmc = c.pmc := rfl
@[simp] theorem Chip.modCal_tpll (g : CalSt → CalSt) : (c.modCal g).tpll = c.tpll := rfl
@[simp] theorem Chip.modCal_freeCtr (g : CalSt → CalSt) : (c.modCal g).freeCtr = c.freeCtr := rfl
@[simp] theorem Chip.modAge_regs (g : AgeSt → AgeSt) : (c.modAge g).regs = c.regs := rfl
@[simp] theorem Chip.modAge_ports (g : AgeSt → AgeSt) : (c.modAge g).ports = c.ports := rfl
@[simp] theorem Chip.modAge_lanes (g : AgeSt → AgeSt) : (c.modAge g).lanes = c.lanes := rfl
@[simp] theorem Chip.modAge_hgrp (g : AgeSt → AgeSt) : (c.modAge g).hgrp = c.hgrp := rfl
@[simp] theorem Chip.modAge_quire (g : AgeSt → AgeSt) : (c.modAge g).quire = c.quire := rfl
@[simp] theorem Chip.modAge_folio (g : AgeSt → AgeSt) : (c.modAge g).folio = c.folio := rfl
@[simp] theorem Chip.modAge_spine (g : AgeSt → AgeSt) : (c.modAge g).spine = c.spine := rfl
@[simp] theorem Chip.modAge_fab (g : AgeSt → AgeSt) : (c.modAge g).fab = c.fab := rfl
@[simp] theorem Chip.modAge_binder (g : AgeSt → AgeSt) : (c.modAge g).binder = c.binder := rfl
@[simp] theorem Chip.modAge_clk (g : AgeSt → AgeSt) : (c.modAge g).clk = c.clk := rfl
@[simp] theorem Chip.modAge_pwr (g : AgeSt → AgeSt) : (c.modAge g).pwr = c.pwr := rfl
@[simp] theorem Chip.modAge_cal (g : AgeSt → AgeSt) : (c.modAge g).cal = c.cal := rfl
@[simp] theorem Chip.modAge_bist (g : AgeSt → AgeSt) : (c.modAge g).bist = c.bist := rfl
@[simp] theorem Chip.modAge_pmc (g : AgeSt → AgeSt) : (c.modAge g).pmc = c.pmc := rfl
@[simp] theorem Chip.modAge_tpll (g : AgeSt → AgeSt) : (c.modAge g).tpll = c.tpll := rfl
@[simp] theorem Chip.modAge_freeCtr (g : AgeSt → AgeSt) : (c.modAge g).freeCtr = c.freeCtr := rfl
@[simp] theorem Chip.modBist_regs (g : BistSt → BistSt) : (c.modBist g).regs = c.regs := rfl
@[simp] theorem Chip.modBist_ports (g : BistSt → BistSt) : (c.modBist g).ports = c.ports := rfl
@[simp] theorem Chip.modBist_lanes (g : BistSt → BistSt) : (c.modBist g).lanes = c.lanes := rfl
@[simp] theorem Chip.modBist_hgrp (g : BistSt → BistSt) : (c.modBist g).hgrp = c.hgrp := rfl
@[simp] theorem Chip.modBist_quire (g : BistSt → BistSt) : (c.modBist g).quire = c.quire := rfl
@[simp] theorem Chip.modBist_folio (g : BistSt → BistSt) : (c.modBist g).folio = c.folio := rfl
@[simp] theorem Chip.modBist_spine (g : BistSt → BistSt) : (c.modBist g).spine = c.spine := rfl
@[simp] theorem Chip.modBist_fab (g : BistSt → BistSt) : (c.modBist g).fab = c.fab := rfl
@[simp] theorem Chip.modBist_binder (g : BistSt → BistSt) : (c.modBist g).binder = c.binder := rfl
@[simp] theorem Chip.modBist_clk (g : BistSt → BistSt) : (c.modBist g).clk = c.clk := rfl
@[simp] theorem Chip.modBist_pwr (g : BistSt → BistSt) : (c.modBist g).pwr = c.pwr := rfl
@[simp] theorem Chip.modBist_cal (g : BistSt → BistSt) : (c.modBist g).cal = c.cal := rfl
@[simp] theorem Chip.modBist_age (g : BistSt → BistSt) : (c.modBist g).age = c.age := rfl
@[simp] theorem Chip.modBist_pmc (g : BistSt → BistSt) : (c.modBist g).pmc = c.pmc := rfl
@[simp] theorem Chip.modBist_tpll (g : BistSt → BistSt) : (c.modBist g).tpll = c.tpll := rfl
@[simp] theorem Chip.modBist_freeCtr (g : BistSt → BistSt) : (c.modBist g).freeCtr = c.freeCtr := rfl
@[simp] theorem Chip.tickFree_regs : (c.tickFree).regs = c.regs := rfl
@[simp] theorem Chip.tickFree_ports : (c.tickFree).ports = c.ports := rfl
@[simp] theorem Chip.tickFree_lanes : (c.tickFree).lanes = c.lanes := rfl
@[simp] theorem Chip.tickFree_hgrp : (c.tickFree).hgrp = c.hgrp := rfl
@[simp] theorem Chip.tickFree_quire : (c.tickFree).quire = c.quire := rfl
@[simp] theorem Chip.tickFree_folio : (c.tickFree).folio = c.folio := rfl
@[simp] theorem Chip.tickFree_spine : (c.tickFree).spine = c.spine := rfl
@[simp] theorem Chip.tickFree_fab : (c.tickFree).fab = c.fab := rfl
@[simp] theorem Chip.tickFree_binder : (c.tickFree).binder = c.binder := rfl
@[simp] theorem Chip.tickFree_clk : (c.tickFree).clk = c.clk := rfl
@[simp] theorem Chip.tickFree_pwr : (c.tickFree).pwr = c.pwr := rfl
@[simp] theorem Chip.tickFree_cal : (c.tickFree).cal = c.cal := rfl
@[simp] theorem Chip.tickFree_age : (c.tickFree).age = c.age := rfl
@[simp] theorem Chip.tickFree_bist : (c.tickFree).bist = c.bist := rfl
@[simp] theorem Chip.tickFree_pmc : (c.tickFree).pmc = c.pmc := rfl
@[simp] theorem Chip.tickFree_tpll : (c.tickFree).tpll = c.tpll := rfl
@[simp] theorem Chip.modFace_regs (x : Face) (g : FaceSt → FaceSt) : (c.modFace x g).regs = c.regs := by cases x <;> rfl
@[simp] theorem Chip.modFace_ports (x : Face) (g : FaceSt → FaceSt) : (c.modFace x g).ports = c.ports := by cases x <;> rfl
@[simp] theorem Chip.modFace_lanes (x : Face) (g : FaceSt → FaceSt) : (c.modFace x g).lanes = c.lanes := by cases x <;> rfl
@[simp] theorem Chip.modFace_hgrp (x : Face) (g : FaceSt → FaceSt) : (c.modFace x g).hgrp = c.hgrp := by cases x <;> rfl
@[simp] theorem Chip.modFace_quire (x : Face) (g : FaceSt → FaceSt) : (c.modFace x g).quire = c.quire := by cases x <;> rfl
@[simp] theorem Chip.modFace_folio (x : Face) (g : FaceSt → FaceSt) : (c.modFace x g).folio = c.folio := by cases x <;> rfl
@[simp] theorem Chip.modFace_fab (x : Face) (g : FaceSt → FaceSt) : (c.modFace x g).fab = c.fab := by cases x <;> rfl
@[simp] theorem Chip.modFace_binder (x : Face) (g : FaceSt → FaceSt) : (c.modFace x g).binder = c.binder := by cases x <;> rfl
@[simp] theorem Chip.modFace_clk (x : Face) (g : FaceSt → FaceSt) : (c.modFace x g).clk = c.clk := by cases x <;> rfl
@[simp] theorem Chip.modFace_pwr (x : Face) (g : FaceSt → FaceSt) : (c.modFace x g).pwr = c.pwr := by cases x <;> rfl
@[simp] theorem Chip.modFace_cal (x : Face) (g : FaceSt → FaceSt) : (c.modFace x g).cal = c.cal := by cases x <;> rfl
@[simp] theorem Chip.modFace_age (x : Face) (g : FaceSt → FaceSt) : (c.modFace x g).age = c.age := by cases x <;> rfl
@[simp] theorem Chip.modFace_bist (x : Face) (g : FaceSt → FaceSt) : (c.modFace x g).bist = c.bist := by cases x <;> rfl
@[simp] theorem Chip.modFace_pmc (x : Face) (g : FaceSt → FaceSt) : (c.modFace x g).pmc = c.pmc := by cases x <;> rfl
@[simp] theorem Chip.modFace_tpll (x : Face) (g : FaceSt → FaceSt) : (c.modFace x g).tpll = c.tpll := by cases x <;> rfl
@[simp] theorem Chip.modFace_freeCtr (x : Face) (g : FaceSt → FaceSt) : (c.modFace x g).freeCtr = c.freeCtr := by cases x <;> rfl
@[simp] theorem Chip.putWide_ports (a n v : Nat) : (c.putWide a n v).ports = c.ports := by
  induction n generalizing c a v with
  | zero => rfl
  | succ n ih => simp [Chip.putWide, ih]
@[simp] theorem Chip.putWide_lanes (a n v : Nat) : (c.putWide a n v).lanes = c.lanes := by
  induction n generalizing c a v with
  | zero => rfl
  | succ n ih => simp [Chip.putWide, ih]
@[simp] theorem Chip.putWide_hgrp (a n v : Nat) : (c.putWide a n v).hgrp = c.hgrp := by
  induction n generalizing c a v with
  | zero => rfl
  | succ n ih => simp [Chip.putWide, ih]
@[simp] theorem Chip.putWide_quire (a n v : Nat) : (c.putWide a n v).quire = c.quire := by
  induction n generalizing c a v with
  | zero => rfl
  | succ n ih => simp [Chip.putWide, ih]
@[simp] theorem Chip.putWide_folio (a n v : Nat) : (c.putWide a n v).folio = c.folio := by
  induction n generalizing c a v with
  | zero => rfl
  | succ n ih => simp [Chip.putWide, ih]
@[simp] theorem Chip.putWide_spine (a n v : Nat) : (c.putWide a n v).spine = c.spine := by
  induction n generalizing c a v with
  | zero => rfl
  | succ n ih => simp [Chip.putWide, ih]
@[simp] theorem Chip.putWide_fab (a n v : Nat) : (c.putWide a n v).fab = c.fab := by
  induction n generalizing c a v with
  | zero => rfl
  | succ n ih => simp [Chip.putWide, ih]
@[simp] theorem Chip.putWide_binder (a n v : Nat) : (c.putWide a n v).binder = c.binder := by
  induction n generalizing c a v with
  | zero => rfl
  | succ n ih => simp [Chip.putWide, ih]
@[simp] theorem Chip.putWide_clk (a n v : Nat) : (c.putWide a n v).clk = c.clk := by
  induction n generalizing c a v with
  | zero => rfl
  | succ n ih => simp [Chip.putWide, ih]
@[simp] theorem Chip.putWide_pwr (a n v : Nat) : (c.putWide a n v).pwr = c.pwr := by
  induction n generalizing c a v with
  | zero => rfl
  | succ n ih => simp [Chip.putWide, ih]
@[simp] theorem Chip.putWide_cal (a n v : Nat) : (c.putWide a n v).cal = c.cal := by
  induction n generalizing c a v with
  | zero => rfl
  | succ n ih => simp [Chip.putWide, ih]
@[simp] theorem Chip.putWide_age (a n v : Nat) : (c.putWide a n v).age = c.age := by
  induction n generalizing c a v with
  | zero => rfl
  | succ n ih => simp [Chip.putWide, ih]
@[simp] theorem Chip.putWide_bist (a n v : Nat) : (c.putWide a n v).bist = c.bist := by
  induction n generalizing c a v with
  | zero => rfl
  | succ n ih => simp [Chip.putWide, ih]
@[simp] theorem Chip.putWide_pmc (a n v : Nat) : (c.putWide a n v).pmc = c.pmc := by
  induction n generalizing c a v with
  | zero => rfl
  | succ n ih => simp [Chip.putWide, ih]
@[simp] theorem Chip.putWide_tpll (a n v : Nat) : (c.putWide a n v).tpll = c.tpll := by
  induction n generalizing c a v with
  | zero => rfl
  | succ n ih => simp [Chip.putWide, ih]
@[simp] theorem Chip.putWide_freeCtr (a n v : Nat) : (c.putWide a n v).freeCtr = c.freeCtr := by
  induction n generalizing c a v with
  | zero => rfl
  | succ n ih => simp [Chip.putWide, ih]

/-- The member that an update of ports changes. -/
theorem Chip.port_modPort (p q : Port) (g : PortSt → PortSt) : (c.modPort p g).port q = if q = p then g (c.port p) else c.port q := by
  simp only [Chip.port, Chip.modPort, Fin.getElem_fin, Vector.getElem_set]
  by_cases h : q = p
  · subst h; simp
  · simp [h, show ¬ p.val = q.val from fun e => h (Fin.ext e.symm)]

/-- What a command that changes the part alone answers. -/
theorem State.act_next (s t : State) (f : Chip → Chip) (h : s.act f = .next t) : t.chip = f s.chip ∧ t.lock = s.lock ∧ t.pending = s.pending := by
  cases h; exact ⟨rfl, rfl, rfl⟩

end Sys2Proof.Machine
end

