-- ==== Sys2Proof/Laws/Regs.lean ====
section
/-! SUPPORT. The register store: what a read gives after an update, and the canonical form that every update keeps. -/

namespace Sys2Proof.Machine

/-- The canonical form: keys strictly rising, no register listed with its reset value. -/
def Regs.wf (r : Regs) : Bool := decide (r.Pairwise fun x y => x.1 < y.1) && r.all fun x => x.2 != resetOf x.1

theorem Regs.find_erase (r : Regs) (a b : Nat) : (r.erase a).find b = if b = a then none else r.find b := by
  induction r with
  | nil => simp [Regs.erase, Regs.find]
  | cons x t ih =>
    obtain ⟨k, v⟩ := x
    simp only [Regs.erase, Regs.find]
    by_cases h : k = a
    · subst h
      by_cases g : b = k
      · subst g; simp [ih]
      · simp [ih, g, Ne.symm g]
    · by_cases g : k = b
      · subst g; simp [h, Regs.find]
      · simp [h, g, Regs.find, ih]

theorem Regs.find_insert (r : Regs) (a b : Nat) (v : BitVec 16) : (r.insert a v).find b = if b = a then some v else r.find b := by
  induction r with
  | nil => simp [Regs.insert, Regs.find, eq_comm]
  | cons x t ih =>
    obtain ⟨k, w⟩ := x
    simp only [Regs.insert]
    split
    · by_cases g : b = a
      · subst g; simp [Regs.find]
      · simp [Regs.find, g, Ne.symm g]
    · split
      · rename_i h; subst h
        by_cases g : b = a
        · subst g; simp [Regs.find]
        · simp [Regs.find, g, Ne.symm g]
      · rename_i h1 h2
        by_cases g : k = b
        · subst g; simp [Regs.find, Ne.symm h2]
        · simp [Regs.find, g, ih]

/-- A read after an update of a register. -/
theorem Chip.reg_setReg (c : Chip) (a b : Nat) (v : BitVec 16) : (c.setReg a v).reg b = if b = a then v else c.reg b := by
  unfold Chip.setReg Chip.reg
  by_cases h : v = resetOf a
  · simp only [h, if_true, Regs.find_erase]
    by_cases g : b = a
    · subst g; simp
    · simp [g]
  · simp only [h, if_false, Regs.find_insert]
    by_cases g : b = a <;> simp [g]

@[simp] theorem Chip.reg_setReg_same (c : Chip) (a : Nat) (v : BitVec 16) : (c.setReg a v).reg a = v := by simp [Chip.reg_setReg]
theorem Chip.reg_setReg_ne (c : Chip) {a b : Nat} (h : b ≠ a) (v : BitVec 16) : (c.setReg a v).reg b = c.reg b := by simp [Chip.reg_setReg, h]

/-- The bits of a mask. -/
theorem fieldMask_getLsbD (lo w i : Nat) : (fieldMask lo w).getLsbD i = (decide (i < 16) && decide (lo ≤ i) && decide (i < lo + w)) := by
  simp only [fieldMask, BitVec.getLsbD_ofNat, ← Nat.shiftLeft_eq, Nat.testBit_shiftLeft, Nat.testBit_two_pow_sub_one]
  by_cases h : i < 16 <;> by_cases g : lo ≤ i <;> simp [h, g]
  omega

theorem splice_getLsbD (x : BitVec 16) (lo w v i : Nat) :
    (splice x lo w v).getLsbD i = (decide (i < 16) && if lo ≤ i ∧ i < lo + w then v.testBit (i - lo) else x.getLsbD i) := by
  simp only [splice, BitVec.getLsbD_or, BitVec.getLsbD_and, BitVec.getLsbD_not, fieldMask_getLsbD, BitVec.getLsbD_ofNat,
    ← Nat.shiftLeft_eq, Nat.testBit_shiftLeft, Nat.testBit_mod_two_pow]
  by_cases h : i < 16 <;> by_cases g : lo ≤ i <;> by_cases k : i < lo + w <;> simp [h, g, k]
  all_goals (intro e; omega)

/-- A field of a word with that field replaced. -/
theorem splice_field (x : BitVec 16) (lo w v : Nat) (h : lo + w ≤ 16) : (splice x lo w v).toNat / 2 ^ lo % 2 ^ w = v % 2 ^ w := by
  apply Nat.eq_of_testBit_eq
  intro i
  simp only [Nat.testBit_mod_two_pow, Nat.testBit_div_two_pow]
  by_cases g : i < w
  · have e : (splice x lo w v).toNat.testBit (i + lo) = (splice x lo w v).getLsbD (i + lo) := rfl
    rw [e, splice_getLsbD]
    have h1 : i + lo < 16 := by omega
    have h2 : i + lo < lo + w := by omega
    simp [h1, h2, g]
  · simp [g]

/-- A field of a word with another field replaced. -/
theorem splice_other (x : BitVec 16) (lo w v l k : Nat) (h : l + k ≤ lo ∨ lo + w ≤ l) :
    (splice x lo w v).toNat / 2 ^ l % 2 ^ k = x.toNat / 2 ^ l % 2 ^ k := by
  apply Nat.eq_of_testBit_eq
  intro i
  simp only [Nat.testBit_mod_two_pow, Nat.testBit_div_two_pow]
  by_cases g : i < k
  · have e : (splice x lo w v).toNat.testBit (i + l) = (splice x lo w v).getLsbD (i + l) := rfl
    have e' : x.toNat.testBit (i + l) = x.getLsbD (i + l) := rfl
    rw [e, e', splice_getLsbD]
    have hn : ¬ (lo ≤ i + l ∧ i + l < lo + w) := by omega
    by_cases h1 : i + l < 16
    · simp [h1, hn]
    · simp [h1, BitVec.getLsbD_of_ge x _ (by omega : 16 ≤ i + l)]
  · simp [g]

/-- A field lies in its register. -/
abbrev Fld.fits (f : Fld) : Prop := f.lo + f.w ≤ 16
/-- Two fields of blocks do not meet. -/
abbrev Fld.apart (b : Nat) (f : Fld) (b' : Nat) (f' : Fld) : Prop :=
  b + f.off ≠ b' + f'.off ∨ f'.lo + f'.w ≤ f.lo ∨ f.lo + f.w ≤ f'.lo

/-- A field reads what the hardware set it to. -/
theorem Chip.get_put (c : Chip) (b : Nat) (f : Fld) (v : Nat) (h : f.fits) : (c.put b f v).get b f = v % 2 ^ f.w := by
  simp [Chip.put, Chip.get, splice_field _ _ _ _ h]
/-- Every other field reads as before. -/
theorem Chip.get_put_apart (c : Chip) (b : Nat) (f : Fld) (v : Nat) (b' : Nat) (f' : Fld) (h : Fld.apart b f b' f') :
    (c.put b f v).get b' f' = c.get b' f' := by
  unfold Chip.put Chip.get
  by_cases g : b' + f'.off = b + f.off
  · rw [g, Chip.reg_setReg_same]
    exact splice_other _ _ _ _ _ _ (by rcases h with h | h | h <;> omega)
  · rw [Chip.reg_setReg_ne c g]
/-- A register that the field is not in reads as before. -/
theorem Chip.reg_put_ne (c : Chip) (b : Nat) (f : Fld) (v a : Nat) (h : a ≠ b + f.off) : (c.put b f v).reg a = c.reg a := by
  simp [Chip.put, Chip.reg_setReg_ne c h]
/-- A register after the hardware set a field of it. -/
theorem Chip.reg_put (c : Chip) (b : Nat) (f : Fld) (v : Nat) : (c.put b f v).reg (b + f.off) = splice (c.reg (b + f.off)) f.lo f.w v := by
  simp [Chip.put]
/-- A wide value's registers alone change. -/
theorem Chip.reg_putWide_ne (c : Chip) (a n v b : Nat) (h : b < a ∨ a + n ≤ b) : (c.putWide a n v).reg b = c.reg b := by
  induction n generalizing c a v with
  | zero => rfl
  | succ n ih => rw [Chip.putWide, ih _ _ _ (by omega), Chip.reg_setReg_ne c (by omega)]
/-- A wide value reads what the hardware set it to. -/
theorem Chip.wide_putWide (c : Chip) (a n v : Nat) : (c.putWide a n v).wide a n = v % 2 ^ (16 * n) := by
  induction n generalizing c a v with
  | zero => simp [Chip.wide, Nat.mod_one]
  | succ n ih =>
    rw [Chip.putWide, Chip.wide, ih, Chip.reg_putWide_ne _ _ _ _ _ (by omega), Chip.reg_setReg_same]
    have e : 2 ^ (16 * (n + 1)) = 2 ^ 16 * 2 ^ (16 * n) := by rw [← Nat.pow_add]; congr 1; omega
    rw [e, Nat.mod_mul]
    simp
/-- Reads depend on the register store alone. -/
theorem Chip.reg_congr {c d : Chip} (h : c.regs = d.regs) (a : Nat) : c.reg a = d.reg a := by simp [Chip.reg, h]
theorem Chip.get_congr {c d : Chip} (h : c.regs = d.regs) (b : Nat) (f : Fld) : c.get b f = d.get b f := by
  simp [Chip.get, Chip.reg_congr h]
theorem Chip.wide_congr {c d : Chip} (h : c.regs = d.regs) (a n : Nat) : c.wide a n = d.wide a n := by
  induction n generalizing a with
  | zero => rfl
  | succ n ih => simp [Chip.wide, ih, Chip.reg_congr h]

theorem Regs.mem_erase {r : Regs} {a : Nat} {x : Nat × BitVec 16} (h : x ∈ r.erase a) : x ∈ r := by
  induction r with
  | nil => simp [Regs.erase] at h
  | cons y t ih =>
    obtain ⟨k, v⟩ := y
    simp only [Regs.erase] at h
    split at h
    · exact List.mem_cons_of_mem _ (ih h)
    · rcases List.mem_cons.mp h with e | e
      · simp [e]
      · exact List.mem_cons_of_mem _ (ih e)
theorem Regs.mem_insert {r : Regs} {a : Nat} {v : BitVec 16} {x : Nat × BitVec 16} (h : x ∈ r.insert a v) : x = (a, v) ∨ x ∈ r := by
  induction r with
  | nil => simpa [Regs.insert] using h
  | cons y t ih =>
    obtain ⟨k, w⟩ := y
    simp only [Regs.insert] at h
    split at h
    · simpa using h
    · split at h
      · rcases List.mem_cons.mp h with e | e
        · exact .inl e
        · exact .inr (List.mem_cons_of_mem _ e)
      · rcases List.mem_cons.mp h with e | e
        · exact .inr (by simp [e])
        · rcases ih e with e | e
          · exact .inl e
          · exact .inr (List.mem_cons_of_mem _ e)
theorem Regs.sorted_erase {r : Regs} (a : Nat) (h : r.Pairwise fun x y => x.1 < y.1) : (r.erase a).Pairwise fun x y => x.1 < y.1 := by
  induction r with
  | nil => exact h
  | cons y t ih =>
    obtain ⟨k, v⟩ := y
    obtain ⟨h1, h2⟩ := List.pairwise_cons.mp h
    simp only [Regs.erase]
    split
    · exact ih h2
    · exact List.pairwise_cons.mpr ⟨fun x hx => h1 x (Regs.mem_erase hx), ih h2⟩
theorem Regs.sorted_insert {r : Regs} (a : Nat) (v : BitVec 16) (h : r.Pairwise fun x y => x.1 < y.1) :
    (r.insert a v).Pairwise fun x y => x.1 < y.1 := by
  induction r with
  | nil => simp [Regs.insert]
  | cons y t ih =>
    obtain ⟨k, w⟩ := y
    obtain ⟨h1, h2⟩ := List.pairwise_cons.mp h
    simp only [Regs.insert]
    split
    · rename_i g
      refine List.pairwise_cons.mpr ⟨fun x hx => ?_, h⟩
      rcases List.mem_cons.mp hx with e | e
      · simpa [e] using g
      · exact Nat.lt_trans g (h1 x e)
    · split
      · rename_i g; subst g
        exact List.pairwise_cons.mpr ⟨fun x hx => h1 x hx, h2⟩
      · rename_i g1 g2
        refine List.pairwise_cons.mpr ⟨fun x hx => ?_, ih h2⟩
        rcases Regs.mem_insert hx with e | e
        · simp only [e]; omega
        · exact h1 x e
/-- An update of a register keeps the canonical form of the store. -/
theorem Chip.setReg_wf (c : Chip) (a : Nat) (v : BitVec 16) (h : c.regs.wf) : (c.setReg a v).regs.wf := by
  simp only [Regs.wf, Bool.and_eq_true, decide_eq_true_eq, List.all_eq_true, bne_iff_ne] at h ⊢
  unfold Chip.setReg
  split
  · exact ⟨Regs.sorted_erase a h.1, fun x hx => h.2 x (Regs.mem_erase hx)⟩
  · rename_i g
    refine ⟨Regs.sorted_insert a v h.1, fun x hx => ?_⟩
    rcases Regs.mem_insert hx with e | e
    · simpa [e] using g
    · exact h.2 x e
theorem Chip.put_wf (c : Chip) (b : Nat) (f : Fld) (v : Nat) (h : c.regs.wf) : (c.put b f v).regs.wf := c.setReg_wf _ _ h
theorem Chip.putWide_wf (c : Chip) (a n v : Nat) (h : c.regs.wf) : (c.putWide a n v).regs.wf := by
  induction n generalizing c a v with
  | zero => exact h
  | succ n ih => exact ih _ _ _ (c.setReg_wf _ _ h)
theorem Regs.mem_keep {r : Regs} {w : Nat → Bool} {k : FieldDef → Bool} {x : Nat × BitVec 16} (h : x ∈ r.keep w k) : ∃ v, (x.1, v) ∈ r := by
  induction r with
  | nil => simp [Regs.keep] at h
  | cons y t ih =>
    obtain ⟨a, v⟩ := y
    have up : (∃ v', (x.1, v') ∈ t) → ∃ v', (x.1, v') ∈ (a, v) :: t := fun ⟨v', hv⟩ => ⟨v', List.mem_cons_of_mem _ hv⟩
    simp only [Regs.keep] at h
    split at h
    · split at h
      · exact up (ih h)
      · split at h
        · exact up (ih h)
        · rcases List.mem_cons.mp h with e | e
          · exact ⟨v, by simp [e]⟩
          · exact up (ih e)
    · rcases List.mem_cons.mp h with e | e
      · exact ⟨v, by simp [e]⟩
      · exact up (ih e)
/-- A reset of registers keeps the canonical form of the store. -/
theorem Regs.keep_wf (r : Regs) (w : Nat → Bool) (k : FieldDef → Bool) (h : r.wf) : (r.keep w k).wf := by
  simp only [Regs.wf, Bool.and_eq_true, decide_eq_true_eq, List.all_eq_true, bne_iff_ne] at h ⊢
  induction r with
  | nil => simp [Regs.keep]
  | cons y t ih =>
    obtain ⟨a, v⟩ := y
    obtain ⟨h1, h2⟩ := List.pairwise_cons.mp h.1
    have it := ih ⟨h2, fun x hx => h.2 x (List.mem_cons_of_mem _ hx)⟩
    have lt : ∀ x ∈ Regs.keep t w k, a < x.1 := fun x hx => by
      obtain ⟨v', hv⟩ := Regs.mem_keep hx
      exact h1 (x.1, v') hv
    simp only [Regs.keep]
    split
    · split
      · exact it
      · split
        · exact it
        · rename_i g
          refine ⟨List.pairwise_cons.mpr ⟨lt, it.1⟩, fun x hx => ?_⟩
          rcases List.mem_cons.mp hx with e | e
          · simpa [e] using g
          · exact it.2 x e
    · refine ⟨List.pairwise_cons.mpr ⟨lt, it.1⟩, fun x hx => ?_⟩
      rcases List.mem_cons.mp hx with e | e
      · have := h.2 (a, v) (by simp); simpa [e] using this
      · exact it.2 x e

end Sys2Proof.Machine
end

