-- ==== Sys2Proof/Laws/Fabric.lean ====
section
/-! SUPPORT. What the fabric's shared operations do: a masked write that is admitted, and what writes do to REG_LOCK. -/

namespace Sys2Proof.Machine

/-- A register is written at once, as one word: mapped, not wide, not in a posted block, not REG_LOCK. -/
def plainWord (a : Nat) : Bool :=
  match mapped a with
  | some r => decide (r.wide = 0) && (postedBlock a).isNone && decide (a ≠ REGB + REG_LOCK_OBSERVE.off)
  | none => false
/-- A mask reaches bits that a write can affect. -/
def reaches (a : Nat) (m : BitVec 16) : Bool :=
  match mapped a with
  | some r => m &&& writable r.fields false != 0
  | none => false

@[simp] theorem Chip.countWr_other (c : Chip) {i : Ifc} (h : i ≠ .binder) : c.countWr i = c := by simp [Chip.countWr, h]

/-- An admitted write of one word takes its bits and has its effect. -/
theorem accPut_admitted (i : Ifc) (a : Nat) (m d : BitVec 16) (c : Chip) (lk : LockSt)
    (hs : c.serves i = true) (h1 : i ≠ .spi1) (hg : c.gate a = 0) (hl : m &&& lockedBits lk.bits a = 0)
    (hb : m &&& (c.countWr i).mbLocked i a = 0) (hp : plainWord a = true) (hr : reaches a m = true) :
    accPut i a m d (c, lk) =
      let n := (c.countWr i).allowed a m d
      let x := Chip.wrote (c.countWr i) ((c.countWr i).merge a n d) lk.bits a n (n &&& d)
      (x.modIfc i fun y => { y with resp := be 1 (x.statusByte a 0) }, lk) := by
  unfold plainWord at hp
  unfold reaches at hr
  cases hm : mapped a with
  | none => simp [hm] at hp
  | some r =>
    simp only [hm, Bool.and_eq_true, decide_eq_true_eq, Option.isNone_iff_eq_none, bne_iff_ne, ne_eq] at hp hr
    obtain ⟨⟨hw, hpost⟩, hlock⟩ := hp
    have hm0 : ¬ m = 0#16 := by rintro rfl; simp at hr
    have hm' : (BitVec.ofNat 16 m.toNat) = m := by simp
    have hd' : (BitVec.ofNat 16 d.toNat) = d := by simp
    have held : m &&& ((lockedBits lk.bits a ||| (c.countWr i).mbLocked i a) &&& writable r.fields false) = 0 := by
      rw [← BitVec.and_assoc, BitVec.and_or_distrib_left, hl, hb]; simp
    have free : m &&& ~~~((lockedBits lk.bits a ||| (c.countWr i).mbLocked i a) &&& writable r.fields false) = m := by
      have : m = m &&& ((lockedBits lk.bits a ||| (c.countWr i).mbLocked i a) &&& writable r.fields false) |||
          m &&& ~~~((lockedBits lk.bits a ||| (c.countWr i).mbLocked i a) &&& writable r.fields false) := by
        generalize (lockedBits lk.bits a ||| (c.countWr i).mbLocked i a) &&& writable r.fields false = x
        ext k hk
        simp only [BitVec.getElem_and, BitVec.getElem_or, BitVec.getElem_not]
        cases m[k] <;> cases x[k] <;> rfl
      rw [held] at this; simpa using this.symm
    have hc : (if i = .binder then c.pmcEvt 0 8 1 else c) = c.countWr i := rfl
    have hws : (c.countWr i).commitWords i r a m.toNat d.toNat = [(a, m.toNat, d.toNat)] := by
      unfold Chip.commitWords; split <;> split <;> simp_all
    unfold accPut accWrite
    simp only [hs, if_true, writeRun, fabWrite, h1, if_false, hm, hg, hlock, hw, hr, hpost, hc, ne_eq, not_true_eq_false]
    simp [Chip.commit, hws, hm, hw, held, free, hm0, Chip.each, answer]

/-- No combination of the register's fields is reserved. -/
def noCombination (a : Nat) : Bool :=
  let b := a / 0x1000
  let o := a % 0x1000
  a != FOLIO + FOLIO_CTL_SRC.off && a != QUIRE + QUIRE_POOL_XON_XON.off && a != QUIRE + QUIRE_SPILL_OFF_VALUE.off &&
  a != CAL + CAL_NVM_SEL_RECORD.off &&
  a != ROLL + ROLL_CTL_OP.off && a != ROLL + ROLL_PARAM_PARAM.off && !(decide (0x10 ≤ b ∧ b < 0x18) && o == DSP_TAP_SEL_INDEX.off) &&
  !(decide (0x20 ≤ b ∧ b < 0x30) && (o == XN_RX_TAP_SEL_INDEX.off || o == XN_PAT_CTL_GEN_EN.off))

theorem Chip.allowed_all (c : Chip) (a : Nat) (m d : BitVec 16) (h : noCombination a = true) : c.allowed a m d = m := by
  simp only [noCombination, Bool.and_eq_true, bne_iff_ne, ne_eq, Bool.not_eq_true', Bool.and_eq_false_iff, decide_eq_false_iff_not,
    beq_eq_false_iff_ne, Bool.or_eq_false_iff] at h
  obtain ⟨⟨⟨⟨⟨⟨⟨h1, h2⟩, h3⟩, h8⟩, h4⟩, h5⟩, h6⟩, h7⟩ := h
  unfold Chip.allowed
  split
  · rfl
  · simp only [h1, h2, h3, h8, h4, h5, if_false]
    rw [if_neg (by rintro ⟨x, y, z⟩; rcases h6 with h | h <;> simp_all), if_neg (by rintro ⟨x, y, z⟩; rcases h7 with h | h <;> simp_all),
      if_neg (by rintro ⟨x, y, z⟩; rcases h7 with h | h <;> simp_all)]

theorem Chip.mbLocked_countWr (c : Chip) (i : Ifc) (a : Nat) : (c.countWr i).mbLocked i a = c.mbLocked i a := by
  cases i <;> try rfl
  have : ∀ (d : Chip) (m : Fin 4), mbOwner .binder m = false := by intro _ m; revert m; decide
  simp [Chip.mbLocked, this c]

/-- An admitted write of one word, as a command makes it. -/
theorem State.put_admitted (s : State) (i : Ifc) (a : Nat) (m d : BitVec 16) (h : s.admits i a m)
    (hp : plainWord a = true) (hr : reaches a m = true) (hn : noCombination a = true) :
    s.actL (accPut i a m d) =
      .next (s.wrote i a (Chip.wrote (s.chip.countWr i) (s.took i a m d) s.lock.bits a m (m &&& d))) := by
  obtain ⟨h1, h2, h3, h4, h5⟩ := h
  have := accPut_admitted i a m d s.chip s.lock h1 h2 h3 h4 (by rw [Chip.mbLocked_countWr]; exact h5) hp hr
  simp only [Chip.allowed_all _ _ _ _ hn] at this
  simp [State.actL, this]

theorem lp_mod (p : Port) (k : Nat) (h : k < 0x1000) : (lpB p + k) % 0x1000 = k := by simp only [lpB]; omega
theorem lane_mod (l : Lane) (k : Nat) (h : k < 0x1000) : (laneB l + k) % 0x1000 = k := by simp only [laneB]; omega
theorem wrote_lp (o c : Chip) (lk : BitVec 16) (p : Port) (k : Nat) (m t : BitVec 16) (h : k < 0x1000) :
    Chip.wrote o c lk (lpB p + k) m t = Chip.wroteLp o c p (lpB p + k) m t := by
  have hb : (lpB p + k) / 0x1000 = 0x10 + p.val := by simp only [lpB]; omega
  unfold Chip.wrote
  rw [hb]
  fin_cases p <;> simp
theorem wrote_lane (o c : Chip) (lk : BitVec 16) (l : Lane) (k : Nat) (m t : BitVec 16) (h : k < 0x1000) :
    Chip.wrote o c lk (laneB l + k) m t = Chip.wroteLane o c l (laneB l + k) m t := by
  have hb : (laneB l + k) / 0x1000 = 0x20 + l.val := by simp only [laneB]; omega
  unfold Chip.wrote
  rw [hb]
  fin_cases l <;> simp

/-- A place of block LPn is a word that a write of the mask reaches with no reserved combination. -/
def lpPlain (k : Nat) (m : BitVec 16) : Bool :=
  allPorts.all fun p => plainWord (lpB p + k) && reaches (lpB p + k) m && noCombination (lpB p + k)
/-- The same of a lane's block. -/
def lanePlain (k : Nat) (m : BitVec 16) : Bool :=
  allLanes.all fun l => plainWord (laneB l + k) && reaches (laneB l + k) m && noCombination (laneB l + k)
theorem mem_allPorts (p : Port) : p ∈ allPorts := by fin_cases p <;> decide
theorem mem_allLanes (l : Lane) : l ∈ allLanes := by fin_cases l <;> decide

/-- An admitted write in block LPn; t is its bits written 1. -/
theorem State.lp_put (s : State) (i : Ifc) (p : Port) (k : Nat) (m d t : BitVec 16) (hk : k < 0x1000) (hc : lpPlain k m = true)
    (ht : m &&& d = t) (h : s.admits i (lpB p + k) m) :
    s.actL (accPut i (lpB p + k) m d) =
      .next (s.wrote i (lpB p + k) (Chip.wroteLp (s.chip.countWr i) (s.took i (lpB p + k) m d) p (lpB p + k) m t)) := by
  have := List.all_eq_true.mp hc p (mem_allPorts p)
  simp only [Bool.and_eq_true] at this
  rw [State.put_admitted s i _ m d h this.1.1 this.1.2 this.2, wrote_lp _ _ _ _ _ _ _ hk, ht]
/-- An admitted write in a lane's block. -/
theorem State.lane_put (s : State) (i : Ifc) (l : Lane) (k : Nat) (m d t : BitVec 16) (hk : k < 0x1000) (hc : lanePlain k m = true)
    (ht : m &&& d = t) (h : s.admits i (laneB l + k) m) :
    s.actL (accPut i (laneB l + k) m d) =
      .next (s.wrote i (laneB l + k) (Chip.wroteLane (s.chip.countWr i) (s.took i (laneB l + k) m d) l (laneB l + k) m t)) := by
  have := List.all_eq_true.mp hc l (mem_allLanes l)
  simp only [Bool.and_eq_true] at this
  rw [State.put_admitted s i _ m d h this.1.1 this.1.2 this.2, wrote_lane _ _ _ _ _ _ _ hk, ht]

/-- The Binder's accesses count only in block PMC. -/
theorem Chip.pmcEvt_reg (c : Chip) (sel n a : Nat) (h : a / 0x1000 ≠ 9) : (c.pmcEvt 0 sel n).reg a = c.reg a := by
  have hb : pmcB 0 = 0x9000 := rfl
  have put : ∀ (c : Chip) (f : Fld) (v : Nat), f.off < 0x100 → (c.put (pmcB 0) f v).reg a = c.reg a := by
    intro c f v hf; exact c.reg_put_ne _ _ _ _ (by rw [hb]; omega)
  have wide : ∀ (c : Chip) (k w v : Nat), k + w < 0x100 → (c.putWide (pmcB 0 + k) w v).reg a = c.reg a := by
    intro c k w v hk; exact c.reg_putWide_ne _ _ _ _ (by rw [hb]; omega)
  have cnt : ∀ (c : Chip) (k v : Nat), k < 8 → (c.putWide (pmcB 0 + PMC_CNT_COUNT.off + 2 * k) 2 v).reg a = c.reg a := by
    intro c k v hk
    rw [Nat.add_assoc]
    exact wide _ _ _ _ (by have : PMC_CNT_COUNT.off = 16 := rfl; omega)
  have samp : ∀ (c : Chip) (k : Nat), (c.pmcSample 0 k).reg a = c.reg a := by
    intro c k
    unfold Chip.pmcSample
    split
    · rfl
    · exact (put _ PMC_SAMPLE_SRC_VALID _ (by decide)).trans ((put _ PMC_SAMPLE_SRC_CTR _ (by decide)).trans (wide _ PMC_SAMPLE_SAMPLE.off 2 _ (by decide)))
  have wrap : ∀ (c : Chip) (k x : Nat), k < 8 → (c.pmcWrap 0 k x).reg a = c.reg a := by
    intro c k x hk
    have ovf : (c.putBit (pmcB 0) PMC_OVF_OVF k true).reg a = c.reg a := put c ⟨_, _, _⟩ _ (by show PMC_OVF_OVF.off < 256; decide)
    unfold Chip.pmcWrap
    simp only []
    generalize (((if (c.putBit (pmcB 0) PMC_OVF_OVF k true).bit (pmcB 0) PMC_IRQ_RELOAD k = true then
      (c.putBit (pmcB 0) PMC_OVF_OVF k true).pmc[(0 : Fin 2)].last.getD k 0 else 0) + x) % 2 ^ 32) = v
    split
    · rw [samp, cnt _ _ _ hk, ovf]
    · rw [cnt _ _ _ hk, ovf]
  have add1 : ∀ (c : Chip) (k x : Nat), k < 8 → (c.pmcAdd1 0 k x).reg a = c.reg a := by
    intro c k x hk
    unfold Chip.pmcAdd1
    simp only []
    split
    · exact cnt _ _ _ hk
    · exact wrap _ _ _ hk
  have add : ∀ (c : Chip) (k x : Nat), k < 8 → (c.pmcAdd 0 k x).reg a = c.reg a := by
    intro c k x hk
    unfold Chip.pmcAdd
    simp only []
    split
    · next h => rw [add1 _ _ _ (by omega), add1 _ _ _ hk]
    · exact add1 _ _ _ hk
  unfold Chip.pmcEvt
  split
  · rfl
  · have go : ∀ (l : List Nat) (c : Chip), (∀ k ∈ l, k < 8) → (l.foldl (fun c k =>
        if c.bit (pmcB 0) PMC_CTL_EN k ∧ c.pmcChained 0 k = false ∧ c.get (pmcB 0 + k) PMC_SEL_EVENT = sel then c.pmcAdd 0 k n else c) c).reg a = c.reg a := by
      intro l
      induction l with
      | nil => intro c _; rfl
      | cons k l ih =>
        intro c hl
        rw [List.foldl_cons, ih _ (fun x hx => hl x (List.mem_cons_of_mem _ hx))]
        split
        · exact add _ _ _ (hl k List.mem_cons_self)
        · rfl
    exact go _ _ (by simp)
theorem Chip.countWr_reg (c : Chip) (i : Ifc) (a : Nat) (h : a / 0x1000 ≠ 9) : (c.countWr i).reg a = c.reg a := by
  unfold Chip.countWr; split
  · exact c.pmcEvt_reg _ _ _ h
  · rfl
theorem Chip.countRd_reg (c : Chip) (i : Ifc) (a : Nat) (h : a / 0x1000 ≠ 9) : (c.countRd i).reg a = c.reg a := by
  unfold Chip.countRd; split
  · exact c.pmcEvt_reg _ _ _ h
  · rfl

/-- A field under no bit of the mask takes nothing. -/
theorem fieldWrite_id (m d w : BitVec 16) (f : FieldDef) (h : m &&& fieldMask f.lo f.w = 0) : fieldWrite m d w f = w := by
  unfold fieldWrite
  have e : w &&& ~~~(0 : BitVec 16) = w := BitVec.and_allOnes
  have z : d &&& (0 : BitVec 16) = 0 := BitVec.and_zero
  have o : w ||| (0 : BitVec 16) = w := BitVec.or_zero
  simp only [h, z, e, o]
  split <;> split <;> rfl

/-- What a masked write leaves in the registers. -/
theorem Chip.merge_reg (c : Chip) (a : Nat) (m d : BitVec 16) (r : RegDef) (h : mapped a = some r)
    (h1 : a ≠ FOLIO + FOLIO_OUT_CTL_SEL.off) (h2 : a ≠ FOLIO + FOLIO_CAP_STAT_SEL.off) (x : Nat) :
    (c.merge a m d).reg x = if x = c.keyOf a then mergeWord r.fields m d (c.reg (c.keyOf a)) else c.reg x := by
  unfold Chip.merge
  rw [h]
  simp only [h1, h2, or_self, if_false]
  rw [Chip.reg_setReg]
/-- What a masked write changes besides registers: nothing. -/
theorem Chip.merge_regs (c : Chip) (a : Nat) (m d : BitVec 16) : c.merge a m d = { c with regs := (c.merge a m d).regs } := by
  unfold Chip.merge; split <;> [rfl; (split <;> rfl)]

end Sys2Proof.Machine
end

