-- ==== Sys2Proof/Laws/Sensors.lean ====
section
/-! SUPPORT. New sensor readings and messages of the Spine leave the registers of the other blocks alone. -/

namespace Sys2Proof.Machine

/-- What keeps a register at every member keeps it over a list. -/
theorem Chip.each_reg {α : Type} (l : List α) (f : Chip → α → Chip) (x : Nat) (h : ∀ c, ∀ a ∈ l, (f c a).reg x = c.reg x) (c : Chip) :
    (c.each l f).reg x = c.reg x := by
  induction l generalizing c with
  | nil => rfl
  | cons a l ih => rw [Chip.each, ih (fun c a m => h c a (List.mem_cons_of_mem _ m)), h c a List.mem_cons_self]

/-- A counter of a face changes only registers of block SPINE. -/
theorem Chip.bumpFace_reg (c : Chip) (f : Face) (k n x : Nat) (hk : k < 16) (h : x / 0x1000 ≠ 0xC) : (c.bumpFace f k n).reg x = c.reg x := by
  unfold Chip.bumpFace Chip.bump
  have g : (c.putWide (faceC f + 4 * k) 3 ((c.wide (faceC f + 4 * k) 3 + n) % 2 ^ 48)).reg x = c.reg x :=
    c.reg_putWide_ne _ _ _ _ (by cases f <;> simp only [faceC] <;> omega)
  simp only []
  split
  · exact g
  · rw [← g]; exact Chip.reg_put_ne _ _ _ _ _ (by cases f <;> simp only [faceC] <;> omega)

/-- A message of the Spine changes only registers of block SPINE. -/
theorem Chip.spOut_reg (c : Chip) (f : Face) (m : SpMsg) (x : Nat) (h : x / 0x1000 ≠ 0xC) : (c.spOut f m).reg x = c.reg x := by
  unfold Chip.spOut
  split
  · unfold Chip.spPush Chip.spGo
    split
    · rw [Chip.bumpFace_reg _ _ _ _ _ (by decide) h]
      exact Chip.reg_congr (by simp) x
    · exact Chip.reg_congr (by simp) x
  · unfold Chip.evt
    rw [Chip.reg_put_ne _ _ _ _ _ (by cases f <;> simp only [faceB] <;> omega), Chip.bumpFace_reg _ _ _ _ _ (by decide) h]

/-- New readings of the sensors change only registers of blocks SNS and SPINE. -/
theorem Chip.sensorsSeen_reg (c : Chip) (temps rails : List (BitVec 16)) (x : Nat) (h7 : x / 0x1000 ≠ 7) (hc : x / 0x1000 ≠ 0xC) :
    (c.sensorsSeen temps rails).reg x = c.reg x := by
  have put : ∀ (c : Chip) (f : Fld) (v : Nat), f.off < 0x1000 → (c.put SNS f v).reg x = c.reg x := by
    intro c f v hf; exact c.reg_put_ne _ _ _ _ (by simp only [SNS]; omega)
  have alert : ∀ c : Chip, c.alertCheck.reg x = c.reg x := by
    intro c; unfold Chip.alertCheck; split
    · exact Chip.spOut_reg _ _ _ _ hc
    · rfl
  have set : ∀ (c : Chip) (k : Nat) (v : BitVec 16), k < 0x1000 → (c.setReg (SNS + k) v).reg x = c.reg x := by
    intro c k v hk; exact Chip.reg_setReg_ne c (by simp only [SNS]; omega) v
  have bit : ∀ (c : Chip) (f : Fld) (k : Nat) (v : Bool), f.off < 0x1000 → (c.putBit SNS f k v).reg x = c.reg x := by
    intro c f k v hf; exact put _ ⟨_, _, _⟩ _ hf
  unfold Chip.sensorsSeen
  simp only []
  rw [alert]
  have therm : ∀ c : Chip, (if 1000 ≤ c.tempMax then (c.put SNS SNS_STAT_THERM 1).evt SNS SNS_EVT_NME_THERM
      else if c.tempMax < 960 then c.put SNS SNS_STAT_THERM 0 else c).reg x = c.reg x := by
    intro c
    split
    · exact (put _ _ _ (by decide)).trans (put _ _ _ (by decide))
    · split
      · exact put _ _ _ (by decide)
      · rfl
  rw [therm, Chip.each_reg, Chip.each_reg, Chip.each_reg, Chip.each_reg]
  · intro c a m
    exact set _ _ _ (by have := List.mem_range.mp (List.of_mem_zip m).1; omega)
  · intro c a m
    rw [Nat.add_assoc]
    exact set _ _ _ (by have := List.mem_range.mp (List.of_mem_zip m).1; omega)
  · intro c k _
    split
    · split
      · rfl
      · exact (put _ _ _ (by decide)).trans (bit _ _ _ _ (by decide))
    · split
      · exact bit _ _ _ _ (by decide)
      · rfl
  · intro c j _
    split
    · rfl
    · split
      · exact bit _ _ _ _ (by decide)
      · split
        · rfl
        · exact (put _ _ _ (by decide)).trans (bit _ _ _ _ (by decide))

/-- The thresholds of the Watch sensors stay. -/
theorem Chip.sensorsSeen_thr (c : Chip) (temps rails : List (BitVec 16)) (k : Nat) (_ : k < 14) :
    (c.sensorsSeen temps rails).get (bk k PWR) PWR_THR_LO_LOW = c.get (bk k PWR) PWR_THR_LO_LOW ∧
    (c.sensorsSeen temps rails).get (bk k PWR) PWR_THR_HI_HIGH = c.get (bk k PWR) PWR_THR_HI_HIGH := by
  unfold Chip.get
  rw [Chip.sensorsSeen_reg, Chip.sensorsSeen_reg]
  · exact ⟨rfl, rfl⟩
  all_goals simp only [bk, PWR]; omega

end Sys2Proof.Machine
end

