-- ==== Sys2Proof/WellFormed.lean ====
section
/-! DEFINITION. Well-formed commands: operands of the sizes that the spec gives. A meaning is total on ill-formed ones too. -/

namespace Sys2Proof

/-- A list has from lo to hi members. -/
def len (l : List α) (lo hi : Nat) : Bool := decide (lo ≤ l.length ∧ l.length ≤ hi)
/-- An instant lies within the tick of 0.8 ns that follows the last one (12_clocks.md R391), in 2^-16 ns. -/
def inTick (frac : Nat) : Bool := decide (frac < 52429)
/-- Wake sources have codes 1 to 10 (13_power_and_reset.md R431). -/
def sources (l : List (Fin 11 × Fin 16)) : Bool := l.all fun x => x.1 != 0

/-- Accesses that other interfaces hold waiting (10_register_fabric.md R335). -/
def others (i : Ifc) (mid : List Access) : Bool := mid.all fun x => x.ifc != i
/-- The operands have the sizes that the spec gives: Pip bodies (04_pip_channel.md R141), training messages (03_octavo.md R102,
R103), codewords (R88), sensors and rails (17_pins_and_electrical.md R528), marks of the Spine (09_spine_cascade.md R319, R320),
wear mechanisms (14_calibration_and_ageing.md R463), instants within a tick; a discarded Pip frame's TYPE is one that no message
has, and accesses between those of a frame come from the other interfaces. -/
def Instr.wf (i : Instr) : Bool :=
  match i with
  | .helloRx _ _ _ body => len body 9 9
  | .capRx _ _ _ _ body => len body 12 12
  | .offerRx _ _ _ _ body => len body 8 8
  | .pipAckRx _ _ _ body _ => len body 3 3
  | .pipPauseRx _ _ _ _ body => len body 4 4
  | .beaconRx _ _ _ body frac => len body 11 11 && inTick frac
  | .diagReqRx _ _ _ _ body => len body 1 62
  | .diagRptRx _ _ _ body => len body 2 62
  | .loadReportRx _ b => len b 42 42
  | .loadDecisionRx _ b => len b 8 8
  | .loadingTableRx _ b => len b 1028 1028
  | .sensorUpdate temps rails => len temps 8 8 && len rails 6 6
  | .watchPeriod temps rails => len temps 8 8 && len rails 6 6
  | .forwardMarkRx b frac _ => len b 32 32 && inTick frac
  | .echoMarkRx b frac => len b 32 32 && inTick frac
  | .spineLaneFail _ _ errs => len errs 4 4
  | .ageingHourlyStep d => len d 48 48
  | .sleepDelayExpiry during => sources during
  | .wakeStart l => l != [] && sources l
  | .lineRxFrame _ _ frac _ => inTick frac
  | .codewordRx _ llr _ => len llr 19200 19200
  | .pipBadFrameRx _ why => (match why with | .typ t _ _ => decide (t.toNat = 0 ∨ 10 < t.toNat) | _ => true)
  | .spiFrame _ _ _ _ _ _ mid => others .spi0 mid
  | .spiObserveFrame _ _ _ _ _ _ mid => others .spi1 mid
  | .twmWrite _ _ mid => others .twm mid
  | .twmRead _ _ _ mid => others .twm mid
  | .hostRxFrame _ _ frac _ => inTick frac
  | .captureEdge _ _ frac => inTick frac
  | .syncRx _ _ frac => inTick frac
  | .pdelayMsgRx _ _ frac => inTick frac
  | .followUpRx _ _ frac => inTick frac
  | .markerTurn _ frac => inTick frac
  | .queueServe _ frac _ _ => inTick frac
  | .pipAnswerTx _ frac => inTick frac
  | .pipBackoffEnd _ frac => inTick frac
  | .forwardMarkTx frac => inTick frac
  | .echoMarkTx frac => inTick frac
  | .hgrpModeWrite .. | .portEnable .. | .portDisable .. | .portSrst .. | .restart .. | .pipPreTimeout .. | .pipCapTimeout ..
  | .anTimeout .. | .trainTimeout .. | .fastTrainTimeout .. | .linkFailHoldExpiry .. | .backoffExpiry .. | .calStateTimeout ..
  | .clause98PagesDetected .. | .anComplete .. | .pcsLinkOk .. | .trainFail .. | .linkUpStable .. | .pcsLinkStatusFail ..
  | .signalDetectLoss .. | .lmWindowEnd .. | .adaptationStep .. | .quickRefreshEnd .. | .quickRefreshRetry .. | .refreshReq ..
  | .dspTapDataAccess .. | .groupFreeze .. | .pfcFrameRx .. | .pauseFrameRx .. | .pfcPauseExpiry .. | .pfcRefreshTimer ..
  | .octavoPhaseEnd .. | .showtimeStart .. | .toneEqTrack .. | .swapEvaluation .. | .swapReqRx .. | .swapAckRx ..
  | .swapNakRx .. | .swapChangeover .. | .invertedFlagRx .. | .swapRetryTimeout .. | .reload .. | .reloadReqRx .. | .tableRx ..
  | .reloadAckRx .. | .reloadNakRx .. | .reloadChangeover .. | .reloadTimeout .. | .pauseCancel .. | .pauseRenotice ..
  | .pauseStart .. | .pauseCalDone .. | .pauseFlagPhase .. | .pauseEnd .. | .octSignalLoss .. | .octFlagLoss ..
  | .octLmWindowEnd .. | .wakeRx .. | .sleepRx .. | .pipCapture .. | .helloDue .. | .pipAnswerTimeout .. | .wakeReq ..
  | .wakeBurstEnd .. | .sleepReq .. | .diagReq .. | .beaconPeriodTimer .. | .pipDiagCtlWrite .. | .pipDiagDataAccess ..
  | .tdrStart .. | .tdrTryStart .. | .tdrIdleTimeout .. | .tdrTryEnd .. | .eClr .. | .methodLWindowEnd .. | .rttSignalingTx ..
  | .rttSignalingRx .. | .lpiEntry .. | .lpiExit .. | .octLpiEntry .. | .octLpiRefresh .. | .octLpiResume ..
  | .octRxQuietEntry .. | .deferredRefreshStart .. | .timeTick .. | .folioCmdSet .. | .folioCmdAdd .. | .folioCmdFine ..
  | .folioCmdSrst .. | .folioTimeRead .. | .rateWrite .. | .syncTimeout | .captureSourceTimeout | .syncTx .. | .announceTx ..
  | .announceRx .. | .pdelayReqTx .. | .ptpOtherRx .. | .eventOutputEdge .. | .eventOutputPulseEnd .. | .outArm ..
  | .outStop .. | .capTimeRead .. | .laneEnable .. | .laneDisable .. | .laneSrst .. | .laneFault .. | .laneFaultClear ..
  | .laneLive .. | .replayRelease .. | .reorderTimeout .. | .creditSetRx .. | .creditSetTx .. | .retimerSignalDetect ..
  | .retimerPagesRx .. | .retimerTrainingFramesRx .. | .retimerNoSignal .. | .retimerRxTrained .. | .retimerTrainDone ..
  | .retimerTrainFail .. | .retimerFailTimeout .. | .retimerRxRelock .. | .trnRestart .. | .patCheckerLock ..
  | .patCheckerUnlock .. | .patInjOne .. | .patPeriodicInject .. | .scrubCycle .. | .rebuildDone | .quireSrst ..
  | .spillRecall .. | .spineFaceEnable .. | .spineClockPresent .. | .spineAlignDone .. | .spineAlignTimeout ..
  | .spineHelloTimeout .. | .spineDownTimeout .. | .spineClockLoss .. | .spineRetrain .. | .spineSrst .. | .markLoss ..
  | .spineHelloRx .. | .spineAckRx .. | .spineMsgRetx .. | .mb2MsgRx .. | .lendRx .. | .recallRx .. | .spillFrameRx ..
  | .stackResetRx .. | .stackResetAct .. | .powerRx .. | .southClockStop | .fallbackRx .. | .alertRx .. | .promoteRx ..
  | .promotionTimeout | .demote .. | .stackRst .. | .wakeSouth .. | .mdioFrame .. | .mdioWinDataAccess .. | .twmWakeAddress ..
  | .registerWrite .. | .wideValueRead .. | .wideValueWrite .. | .regLockWrite .. | .postedWriteComplete .. | .doorbell ..
  | .linkInfo | .linkEnable | .linkRestart | .linkMode | .linkWaitUp | .octConfig | .octReload | .octTones | .pipDiag
  | .pipWake | .hostMode | .laneInfo | .timeGet | .timeSet | .timeAdd | .timeSlew | .timeRate | .timeSource | .timeWaitLock
  | .evtArm | .capRead | .portTime | .tdrRun | .delayClear | .errlog | .ctrSnapshot | .sensors | .alerts | .jobRead
  | .quireHealth | .identify | .calPort | .calLane | .calSchedule | .nvmRead | .nvmSaveCal | .ageRead | .ageLedger | .agePolicy
  | .ageAnswer | .ageEntryNow | .pwrEnter | .pwrKeep | .pwrLevel .. | .pwrStatus | .pwrWatch | .pwrWakeSrc | .pwrPartner
  | .pwrThresh | .bistRun | .bistResult | .repairSave | .prbsRun | .rollSet | .rollStop | .echo | .loopback | .remote
  | .stackInfo | .stackReset | .stackPromote | .stackDemote | .spillConfig | .stackAll | .jobEnd .. | .jobRelease ..
  | .binderWatchdog | .sourceStable .. | .loopLock .. | .loopReady .. | .loopUnlock .. | .clockEnableChange | .islandPowerUp ..
  | .switchForced | .xaWindowEnd .. | .xbWindowEnd .. | .xbSleepWindowEnd .. | .refUpdate | .sourceRecovered .. | .clkResume
  | .clkEvtClr | .levelChangeStart | .pgoodHigh | .pgoodTimeout | .pgoodLow | .pwrReq | .dozeExit | .capWakeEdge ..
  | .spineWakeClock | .wakeStepReady .. | .rstNAssert | .rstNRelease .. | .powerOnReset .. | .supplyFail | .glbSwrst ..
  | .bgTargetUpdate .. | .bgTrimStep | .calFgStart .. | .calFgEnd .. | .calFgSave .. | .mtpWriteDone .. | .calSchedulerDue ..
  | .hourLogWrite | .ledgerEntry | .agePropApprove .. | .agePropVeto .. | .vguardCheck .. | .bistStart .. | .bistDrainEnd
  | .bistPassEnd .. | .bistManWrite .. | .tapInstructionUpdate .. | .tapReset | .rollEngineEvent .. | .rollHoldRelease ..
  | .rollStopAll .. | .rollSeedWrite .. | .pmcOverflow .. | .pmcCntWrite .. | .cycClr .. | .snsEvtClr | .stdLpiRefresh ..
  | .rxLpiQuietChange .. | .taggedIdleHoldEnd => true

end Sys2Proof
end

