-- ==== Sys2Proof/Tests/Slice0.lean ====
section
/-! SUPPORT. The tests: the well-formedness checks each refuse an ill-formed command, what the manual's examples and tables say,
and a witness for the hypotheses of every clause of the statements. -/

namespace Sys2Proof.Tests

set_option linter.unusedVariables false
set_option Elab.async false

open Sys2Proof Sys2Proof.Machine

/-- Fields set one after the other. -/
def puts (c : Chip) (l : List (Nat × Fld × Nat)) : Chip := l.foldl (fun c x => c.put x.1 x.2.1 x.2.2) c
/-- A part in Run with every block enabled, every loop ready and every island powered. -/
def base : Chip :=
  puts ((({ clk := { stable := 15, lock := 63, ready := 63, run := 63 } } : Chip).setReg CLK 0xFFFF).setReg (CLK + 1) 0xFFFF)
    [(PWR, PWR_ISLANDS_ON, 0xFF)]
/-- A state with such a part. -/
abbrev st (c : Chip) : State := { chip := c, lock := {}, pending := [] }
/-- Port 7, the last one. -/
abbrev p7 : Port := 7
/-- Port 7 in a link state with fields of its block set. -/
def link (n : Nat) (l : List (Fld × Nat)) : Chip := puts base (((LINK_STAT_STATE, n) :: l).map fun x => (lpB p7, x.1, x.2))
/-- Port 7 in SHOWTIME. -/
def show7 (l : List (Fld × Nat)) : Chip := link 6 ((OCT_STAT_PHASE, 11) :: l)
/-- Lane T7, the last one. -/
abbrev l15 : Lane := 15
/-- A lane with fields of its block set. -/
def lane (l : Lane) (c : Chip) (f : List (Fld × Nat)) : Chip := puts c (f.map fun x => (laneB l, x.1, x.2))
/-- All of a list of conditions. -/
abbrev allOf (l : List Bool) : Bool := l.all id

/-- Witnesses for PortControlWritesComplete, in the order of its clauses. -/
theorem witness_PortControlWrites : allOf [
    let s := st base; decide (s.admits1 .spi0 (lpB p7) PMA_CTL_ENABLE ∧ s.chip.on (lpB p7) PMA_CTL_ENABLE = false),
    let s := st (link 11 [(PMA_CTL_ENABLE, 1)]);
      decide (s.admits1 .binder (lpB p7) PMA_CTL_ENABLE ∧ s.chip.on (lpB p7) PMA_CTL_ENABLE = true ∧ s.chip.lState p7 ≠ 0),
    decide ((st base).admits1 .mdio (lpB p7) PMA_CTL_SRST),
    let s := st (link 6 []); let c := (s.set1 .twm (lpB p7) LINK_CTL_RESTART).put (lpB p7) LINK_CTL_RESTART 0;
      decide (s.admits1 .twm (lpB p7) LINK_CTL_RESTART ∧ c.lState p7 ≠ 0 ∧ c.lState p7 ≠ 8),
    let s := st (link 8 [(LINK_STAT_FAIL_CAUSE, 5)]);
      decide (s.admits1 .twm (lpB p7) LINK_CTL_RESTART ∧ s.chip.lState p7 = 8 ∧ s.chip.get (lpB p7) LINK_STAT_FAIL_CAUSE = 5),
    let s := st (link 7 []); let c := (s.set1 .spi0 (lpB p7) DSP_CTL_REFRESH_REQ).put (lpB p7) DSP_CTL_REFRESH_REQ 0;
      decide (s.admits1 .spi0 (lpB p7) DSP_CTL_REFRESH_REQ ∧ c.adapting p7 = true),
    decide ((st base).admits .spi0 (lpB p7 + DSP_CTL_FREEZE_AGC.off) 0x1F),
    let s := st (link 7 [(DSP_CTL_FREEZE_AGC, 1)]);
      decide (s.admits .spi0 (lpB p7 + DSP_TAP_DATA_VALUE.off) 0xFFFF ∧ s.chip.tapFrozen p7 (s.chip.tapSel p7).1 = true),
    decide (base.tapFrozen p7 (base.tapSel p7).1 = false),
    decide ((st base).admitsRead .spi0 (lpB p7)),
    let s := st base; let c := s.took .spi0 (HGRP + HGRP_MODE_MODE.off) HGRP_MODE_MODE.mask (splice 0 0 3 4);
      decide (s.admits .spi0 (HGRP + HGRP_MODE_MODE.off) HGRP_MODE_MODE.mask ∧ c.get HGRP HGRP_MODE_MODE ≠ c.hostMode ∧ c.lanesOff = true)] = true := by
  decide +kernel

/-- Witnesses for PortRequestWritesComplete. -/
theorem witness_PortRequestWrites : allOf [
    let s := st (show7 []); let c := (s.set1 .spi0 (lpB p7) OCT_CTL_RELOAD).put (lpB p7) OCT_CTL_RELOAD 0;
      decide (s.admits1 .spi0 (lpB p7) OCT_CTL_RELOAD ∧ c.showtime p7 = true ∧ c.reloadHeld p7 = 0 ∧ (c.port p7).oct.master = true),
    let s := st (link 10 [(PIP_CTL_EN, 1)]); let c := s.set1 .spi0 (lpB p7) PIP_CTL_WAKE_REQ;
      decide (s.admits1 .spi0 (lpB p7) PIP_CTL_WAKE_REQ ∧ c.lState p7 ≠ 0 ∧ c.on (lpB p7) PIP_CTL_EN = true),
    let s := st (link 10 [(PIP_CTL_EN, 1)]);
      decide (s.admits1 .spi0 (lpB p7) PIP_CTL_WAKE_REQ ∧ s.chip.pipRuns p7 = true ∧ s.chip.tdrBusy p7 = false ∧
        (s.chip.port p7).pip.sending = none ∧ (s.chip.port p7).pip.waiting = []),
    let s := st (link 11 [(PIP_CTL_EN, 1)]); let c := s.set1 .spi0 (lpB p7) PIP_CTL_SLEEP_REQ;
      decide (s.admits1 .spi0 (lpB p7) PIP_CTL_SLEEP_REQ ∧ c.lState p7 ≠ 0 ∧ c.on (lpB p7) PIP_CTL_EN = true),
    let s := st (link 1 [(PIP_CTL_EN, 1)]); let c := s.set1 .spi0 (lpB p7) PIP_CTL_DIAG_REQ;
      decide (s.admits1 .spi0 (lpB p7) PIP_CTL_DIAG_REQ ∧ c.lState p7 ≠ 0 ∧ c.on (lpB p7) PIP_CTL_EN = true),
    decide ((st base).admits .spi0 (lpB p7 + PIP_DIAG_CTL_CODE.off) 0xFFFF),
    decide ((st base).admits .spi0 (lpB p7 + PIP_DIAG_DATA_DATA.off) 0xFFFF),
    decide ((st base).admitsRead .spi0 (lpB p7)),
    let s := st (link 10 []); let c := s.set1 .spi0 (lpB p7) DIAG_CTL_TDR_START;
      decide (s.admits1 .spi0 (lpB p7) DIAG_CTL_TDR_START ∧ (c.lState p7 = 8 ∨ c.lState p7 = 9 ∨ c.lState p7 = 10) ∧ (c.port p7).pip.burst = false),
    decide ((st base).admits1 .spi0 (lpB p7) DIAG_CTL_E_CLR)] = true := by
  decide +kernel

/-- Witnesses for FolioAccessesComplete. -/
theorem witness_FolioAccesses : allOf [
    let s := st (base.putWide (FOLIO + FOLIO_SET_VALUE.off) 6 (999999999 * 2 ^ 16)); let c := (s.set1 .spi0 FOLIO FOLIO_CMD_SET).setReg 0xB001 0;
      decide (s.admits1 .spi0 FOLIO FOLIO_CMD_SET ∧ c.wide (FOLIO + FOLIO_SET_VALUE.off) 6 / 2 ^ 16 % 2 ^ 32 < 1000000000),
    decide ((st base).admits1 .spi0 FOLIO FOLIO_CMD_ADD),
    let s := st (base.put FOLIO FOLIO_STAT_COARSE 1); let c := (s.set1 .spi0 FOLIO FOLIO_CMD_FINE).setReg 0xB001 0;
      decide (s.admits1 .spi0 FOLIO FOLIO_CMD_FINE ∧ c.on FOLIO FOLIO_STAT_COARSE = true),
    decide ((st base).admits1 .spi0 FOLIO FOLIO_CMD_SRST), decide ((st base).admitsRead .mdio FOLIO),
    decide ((st base).admitsRead .spi0 FOLIO ∧ (base.frozen = true ∨ base.folio.rateAt ≠ some base.tpll)),
    decide ((st base).admits1 .spi0 FOLIO FOLIO_OUT_CTL_ARM), decide ((st base).admits1 .spi0 FOLIO FOLIO_OUT_CTL_STOP)] = true := by
  decide +kernel

/-- Witnesses for LaneQuireSpineWritesComplete. -/
theorem witness_LaneQuireSpineWrites : allOf [
    let s := st base; decide (s.admits .spi0 (laneB l15 + XN_CTL_ENABLE.off) XN_CTL_ENABLE.mask ∧ s.chip.laneOn l15 = false),
    let s := st (lane l15 base [(XN_CTL_ENABLE, 1)]); decide (s.admits .spi0 (laneB l15 + XN_CTL_ENABLE.off) XN_CTL_ENABLE.mask ∧ s.chip.laneOn l15 = true),
    decide ((st base).admits1 .spi0 (laneB l15) XN_CTL_SRST),
    let s := st (lane l15 (lane 7 (base.put HGRP HGRP_MODE_ACTIVE 3) [(XN_CTL_ENABLE, 1)]) [(XN_CTL_ENABLE, 1)]);
      let c := (s.set1 .spi0 (laneB l15) XN_TRN_CTL_RESTART).put (laneB l15) XN_TRN_CTL_RESTART 0;
      decide (s.admits1 .spi0 (laneB l15) XN_TRN_CTL_RESTART ∧ c.laneRetimed l15 = true ∧ c.pairReady l15 = true),
    let s := st (lane l15 base [(XN_PAT_CTL_GEN_EN, 1)]); let c := (s.set1 .spi0 (laneB l15) XN_PAT_INJ_ONE).put (laneB l15) XN_PAT_INJ_ONE 0;
      decide (s.admits1 .spi0 (laneB l15) XN_PAT_INJ_ONE ∧ c.on (laneB l15) XN_PAT_CTL_GEN_EN = true ∧ c.get (laneB l15) XN_CTL_LPBK = 0),
    decide ((st base).admits1 .spi0 QUIRE QUIRE_CTL_SRST),
    let c := base.put SPINE SPINE_CTL_SOUTH_EN 0; decide ((st c).admits1 .spi0 SPINE SPINE_CTL_SOUTH_EN ∧ c.on SPINE SPINE_CTL_SOUTH_EN = false),
    let s := st (base.put (faceB .s) SPF_STAT_STATE 4); let c := (s.set1 .spi0 (faceB .s) SPF_CTL_RETRAIN).put (faceB .s) SPF_CTL_RETRAIN 0;
      decide (s.admits1 .spi0 (faceB .s) SPF_CTL_RETRAIN ∧ 2 ≤ c.fSt .s ∧ c.fSt .s ≤ 4),
    decide ((st base).admits1 .spi0 SPINE SPINE_CTL_SRST),
    let s := st (base.put SPINE SPINE_STAT_ROLE 2); let c := (s.set1 .spi0 SPINE SPINE_CMD_DEMOTE).put SPINE SPINE_CMD_DEMOTE 0;
      decide (s.admits1 .spi0 SPINE SPINE_CMD_DEMOTE ∧ c.role = 2),
    let s := st base; let c := (s.took .spi0 (SPINE + SPINE_CMD_STACK_RST.off) 0x1F (BitVec.ofNat 16 (1 + 2 * 2 + 8 * 3))).put SPINE SPINE_CMD_STACK_RST 0;
      decide (s.admits .spi0 (SPINE + SPINE_CMD_STACK_RST.off) 0x1F ∧ (c.role = 0 ∨ c.role = 2) ∧ c.pos < 3),
    let s := st (base.put (faceB .s) SPF_STAT_STATE 5); let c := (s.set1 .spi0 SPINE SPINE_CMD_WAKE_SOUTH).put SPINE SPINE_CMD_WAKE_SOUTH 0;
      decide (s.admits1 .spi0 SPINE SPINE_CMD_WAKE_SOUTH ∧ c.fSt .s ≠ 0)] = true := by
  decide +kernel

/-- A proposal that waits in slot 0. -/
def proposed : Chip := base.modAge fun x => { x with props := x.props.set 0 (some { word := 5, dueAt := 9 }) }

/-- Witnesses for ServiceWritesComplete. -/
theorem witness_ServiceWrites : allOf [
    let s := st base; decide (s.admits1 .twm (mbB 3) MBN_CTL_DOORBELL ∧ s.chip.on (mbB 3) MBN_CTL_DOORBELL = false),
    let s := st (puts base [(MBX, MBX_JOB_SEL_SLOT, 7), (jobB 7, MBX_JOB_STAT_STATE, 2)]);
      let c := (s.set1 .spi0 MBX MBX_JOB_CTL_RELEASE).put (jobB 7) MBX_JOB_CTL_RELEASE 0;
      decide (s.admits1 .spi0 MBX MBX_JOB_CTL_RELEASE ∧ s.chip.get MBX MBX_JOB_SEL_SLOT = 7 ∧ c.jobState 7 = 2),
    decide ((st base).admits1 .spi0 GLB GLB_SWRST_SWRST),
    let s := st (link 1 []); let c := ((s.took .spi0 (CAL + CAL_FG_CTL_START.off) 0x3F (BitVec.ofNat 16 39)).put CAL CAL_FG_CTL_START 0).put CAL CAL_FG_CTL_SAVE 0;
      decide (s.admits .spi0 (CAL + CAL_FG_CTL_START.off) 0x3F ∧ c.calRuns 7 = false ∧ c.calPortOk (calPortOf 7) = true ∧ c.lState (calPortOf 7) ≠ 6),
    decide ((st base).admits .spi0 (CAL + CAL_FG_CTL_START.off) 0x5F),
    let s := st proposed; let c := (s.set1 .spi0 AGE AGE_PROP_ANS_APPROVE).setReg (AGE + AGE_PROP_ANS_APPROVE.off) 0;
      decide (s.admits1 .spi0 AGE AGE_PROP_ANS_APPROVE ∧ c.age.props[c.propSel].isSome = true),
    let s := st proposed; let c := (s.set1 .spi0 AGE AGE_PROP_ANS_VETO).setReg (AGE + AGE_PROP_ANS_VETO.off) 0;
      decide (s.admits1 .spi0 AGE AGE_PROP_ANS_VETO ∧ c.age.props[c.propSel].isSome = true),
    let s := st base; let c := (s.took .spi0 (BIST + BIST_CTL_START.off) 0xFF (BitVec.ofNat 16 (128 + 64 + 35))).put BIST BIST_CTL_START 0;
      decide (s.admits .spi0 (BIST + BIST_CTL_START.off) 0xFF ∧ c.bistRefusal 35 true (c.bankHolds 35) = 0),
    decide ((st base).admits .spi0 (BIST + BIST_MAN_VALID.off) 0xFFFF), decide ((st base).admits1 .spi0 ROLL ROLL_CMD_STOP_ALL),
    let s := st (base.put ROLL ROLL_SEL_ENGINE 25); decide (s.admits .spi0 (ROLL + ROLL_SEED_LO_VALUE.off) 0xFFFF ∧ s.chip.get ROLL ROLL_SEL_ENGINE = 25),
    decide ((st base).admits .spi0 (pmcB 1 + PMC_CNT_COUNT.off + 14) 0xFFFF), decide ((st base).admits1 .spi0 (pmcB 1) PMC_CTL_CYC_CLR)] = true := by
  decide +kernel

/-- Witnesses for PortAccessesComplete. -/
theorem witness_PortAccesses : allOf [
    (match mapped 0x0B030 with | some r => decide (r.wide = 0 ∧ postedBlock 0x0B030 = none ∧ (st base).admits .spi0 0x0B030 0x000E ∧ 0x000E#16 &&& writable r.fields false ≠ 0) | none => false),
    (match mapped 0x0B010 with | some r => decide (r.wide ≠ 0 ∧ r.place 0x0B010 = 0 ∧ (st base).admitsRead .spi0 0x0B010) | none => false),
    (match mapped 0x0B028 with
      | some r => decide (r.place 0x0B028 + 1 < r.wide ∧ postedBlock 0x0B028 = none ∧ (st base).admitsRead .spi0 0x0B028 ∧ 0xFFFF#16 &&& writable r.fields false ≠ 0)
      | none => false),
    decide ((st base).admitsRead .spi0 (REGB + REG_LOCK_OBSERVE.off) ∧ 0x7F#16 &&& (st base).lock.written = 0),
    base.answers,
    let c := puts base [(REGB, REG_OBSERVE_EN_STATUS, 1), (REGB, REG_SPI_CTL_GAP, 15)];
      (match mapped 0x00000 with | some r => decide (c.answers = true ∧ r.wide = 0 ∧ c.gate 0 = 0 ∧ c.observed 0 r = true ∧ 150000 ≤ c.get REGB REG_SPI_CTL_GAP * 10000 ∧ c.get CLK CLK_STAT_CTRL_SRC ≠ 2) | none => false),
    decide (base.answers = true ∧ (7 : Nat) = (4 * base.get GLB GLB_STRAP_MDIO + p7.val) % 32),
    decide (base.answers = true ∧ base.twmMine 0x58 = true ∧ base.twmMine 0 = false),
    let c := base.modPwr fun x => { x with mode := 3 }; decide (c.pwr.mode = 3 ∧ c.twmMine 0x58 = true ∧ c.twmMine 0x59 = false ∧ c.pwr.wake = none ∧ c.pwr.rstLow = false)] = true := by
  decide +kernel

/-- Witnesses for LinkTimersComplete: the state of the machine that each timer belongs to. -/
theorem witness_LinkTimers : allOf [
    (link 1 []).lState p7 == 1, (link 2 []).lState p7 == 2, (link 3 []).lState p7 == 3, (link 4 []).lState p7 == 4, (link 5 []).lState p7 == 5,
    decide ((link 8 []).lState p7 = 8 ∧ (link 8 []).tdrBusy p7 = false), decide ((link 9 []).lState p7 = 9 ∧ (link 9 []).tdrBusy p7 = false),
    (link 11 []).lState p7 == 11, (link 7 [(LINK_STAT_LINK_UP, 1)]).linkUp p7,
    let c := link 10 [(PIP_CTL_BEACON_PER, 1), (PIP_CTL_EN, 1)];
      decide (c.lState p7 = 10 ∧ c.get (lpB p7) PIP_CTL_BEACON_PER ≠ 0 ∧ c.on (lpB p7) PIP_CTL_EN = true),
    decide ((link 1 []).lState p7 = 1 ∧ ((link 1 []).port p7).pip.waiting = [])] = true := by
  decide +kernel

/-- Witnesses for LinkEventsComplete. -/
theorem witness_LinkEvents : allOf [
    let c := link 1 [(LINK_CTL_MODE_SEL, 0)]; decide (c.lState p7 = 1 ∧ c.get (lpB p7) LINK_CTL_MODE_SEL = 0),
    let c := (link 3 []).modLink p7 fun x => { x with appliedAdv := 0x101F }; let own := (c.port p7).link.appliedAdv; decide (c.lState p7 = 3 ∧ own.testBit 13 = false ∧ bestMode own 0x1F ≠ 0),
    decide ((link 5 []).lState p7 = 5), decide ((link 7 []).lState p7 = 7),
    let c := link 7 []; decide (c.lState p7 = 7 ∧ c.on (lpB p7) PCS_STAT_RX_LPI = false),
    let c := link 7 [(AN_STAT_RESOLVED, 4)]; let d := (c.bumpLp p7 11 0).bumpLp p7 12 0;
      let m : Int := (1023 : Int) - snrRef (d.modeOf p7);
      let e := (d.put (lpB p7) DSP_SNR_SNR 1023).putS (lpB p7) LM_STAT_SNR_MARGIN m;
      decide (c.lState p7 = 7 ∧ d.on (lpB p7) PCS_STAT_RX_LPI = false ∧ e.getS (lpB p7) LM_CTL_SNR_MIN ≤ m ∧ 0 ≤ e.get (lpB p7) LM_UNC_UNC_MAX),
    let c := link 7 [(PCS_STAT_RX_LPI, 1)]; decide (c.lState p7 = 7 ∧ ((c.bumpLp p7 11 0).bumpLp p7 12 0).on (lpB p7) PCS_STAT_RX_LPI = true),
    let c := link 7 []; decide (c.adapting p7 = true ∧ c.on (lpB p7) DSP_STAT_REFRESH_ACTIVE = false ∧ c.on (lpB p7) DSP_STAT_DRIFT_FROZEN = false ∧
      c.driftOut p7 (c.tapMoves p7 [(0, 0, 1)]) = none),
    let c := link 7 [(DSP_STAT_REFRESH_ACTIVE, 1), (LM_STAT_SNR_MARGIN, 100), (LM_CTL_SNR_MIN, 0)];
      decide (c.adapting p7 = true ∧ c.on (lpB p7) DSP_STAT_REFRESH_ACTIVE = true ∧ (c.put (lpB p7) DSP_STAT_REFRESH_ACTIVE 0).settled p7 = true ∧
        (c.put (lpB p7) DSP_STAT_REFRESH_ACTIVE 0).getS (lpB p7) LM_CTL_SNR_MIN ≤ (c.put (lpB p7) DSP_STAT_REFRESH_ACTIVE 0).getS (lpB p7) LM_STAT_SNR_MARGIN),
    let c := (show7 []).modLink p7 fun x => { x with retryDue := true, failTimes := [0, 0] };
      decide (c.adapting p7 = true ∧ (c.port p7).link.retryDue = true ∧ c.refreshFails p7 < 3),
    let c := show7 [(LPI_STAT_REFRESH_DEFERRED, 1)];
      decide (c.adapting p7 = true ∧ c.on (lpB p7) LPI_STAT_REFRESH_DEFERRED = true ∧ c.on (lpB p7) PCS_STAT_RX_LPI = false)] = true := by
  decide +kernel

/-- A frame waits for the line in class 7 of port 7. -/
def loaded (c : Chip) : Chip := c.modQ (qOf 1 p7 7) fun q => { q with frames := [{ bytes := List.replicate 64 0 }], shared := 1 }

/-- Witnesses for FlowControlAndIdleComplete. -/
theorem witness_FlowControlAndIdle : allOf [
    let c := link 7 [(PFC_CTL_RX_EN, 0x80)]; decide (c.linkFlows p7 = true ∧ beAt (be 17 0 ++ be 1 0x80) 16 2 % 256 &&& c.get (lpB p7) PFC_CTL_RX_EN ≠ 0),
    (show7 []).linkFlows p7,
    let c := link 7 [(PFC_CTL_TX_EN, 0x80), (PFC_STAT_TX_HOLD, 0x80), (LINK_STAT_LINK_UP, 1)];
      decide (c.bit (lpB p7) PFC_CTL_TX_EN 7 = true ∧ c.bit (lpB p7) PFC_STAT_TX_HOLD 7 = true ∧ c.linkUp p7 = true),
    let c := (link 7 [(LPI_CTL_TX_EN, 1)]).modLink p7 fun x => { x with eee := true };
      decide (c.lState p7 = 7 ∧ (c.port p7).link.eee = true ∧ c.on (lpB p7) LPI_CTL_TX_EN = true ∧ c.egressEmpty p7 = true ∧ c.on (lpB p7) PCS_STAT_TX_LPI = false),
    let c := loaded (link 7 [(PCS_STAT_TX_LPI, 1)]); decide (c.lState p7 = 7 ∧ c.on (lpB p7) PCS_STAT_TX_LPI = true ∧ c.egressEmpty p7 = false),
    let c := link 7 [(LPI_STAT_TX_QUIET, 1)]; decide (c.lState p7 = 7 ∧ c.on (lpB p7) LPI_STAT_TX_QUIET = true),
    let c := show7 [(LPI_CTL_TX_EN, 1), (LPI_CTL_OCT_TX_EN, 1)];
      decide (c.showtime p7 = true ∧ c.on (lpB p7) LPI_CTL_TX_EN = true ∧ (c.port p7).oct.omcTx = [] ∧ c.on (lpB p7) LPI_CTL_OCT_TX_EN = true ∧ c.egressEmpty p7 = true ∧ c.on (lpB p7) PCS_STAT_TX_LPI = false ∧
        c.on (lpB p7) OCT_STAT_SWAP_PENDING = false ∧ c.on (lpB p7) OCT_STAT_RELOAD_PENDING = false ∧ (c.port p7).oct.pause = none),
    let c := show7 [(PCS_STAT_TX_LPI, 1)]; decide (c.showtime p7 = true ∧ c.on (lpB p7) PCS_STAT_TX_LPI = true),
    let c := loaded (show7 [(PCS_STAT_TX_LPI, 1)]); decide (c.showtime p7 = true ∧ c.on (lpB p7) PCS_STAT_TX_LPI = true ∧ c.egressEmpty p7 = false)] = true := by
  decide +kernel

/-- Bytes closed by their CRC-32. -/
def closed (b : Bytes) : Bytes := b ++ crcField b
/-- Port 7 in EXCHANGE or a phase before it, as MASTER or SLAVE. -/
def oct (phase : Nat) (f : OctSt → OctSt) : Chip := (link 6 [(OCT_STAT_PHASE, phase)]).modOct p7 f
/-- Port 7 in SHOWTIME with part of its Octavo state set. -/
def showO (f : OctSt → OctSt) : Chip := (show7 []).modOct p7 f

/-- Witnesses for OctavoTrainingComplete. -/
theorem witness_OctavoTraining : allOf [
    let c := oct 5 id; decide (c.lState p7 = 6 ∧ c.get (lpB p7) OCT_STAT_PHASE = 5),
    let c := oct 6 id; decide (c.lState p7 = 6 ∧ c.get (lpB p7) OCT_STAT_PHASE = 6),
    let c := oct 9 id; let b := closed (be 1 0xE2 ++ be 37 0);
      decide (c.lState p7 = 6 ∧ c.get (lpB p7) OCT_STAT_PHASE = 9 ∧ (c.port p7).oct.master = true ∧ (c.port p7).oct.report = [] ∧ blockOk b 42 0xE2 = true),
    let c := oct 9 fun o => { o with master := false };
      decide (c.lState p7 = 6 ∧ c.get (lpB p7) OCT_STAT_PHASE = 9 ∧ (c.port p7).oct.master = false ∧ (c.port p7).oct.decision = none ∧
        blockOk (decisionBytes 5 1024) 8 0xE3 = true),
    let c := oct 10 id; decide (c.lState p7 = 6 ∧ c.get (lpB p7) OCT_STAT_PHASE = 10 ∧ (c.port p7).oct.tableTaken = false),
    let c := oct 10 fun o => { o with showDue := true }; decide (c.lState p7 = 6 ∧ c.get (lpB p7) OCT_STAT_PHASE = 10 ∧ (c.port p7).oct.showDue = true),
    (show7 []).showtime p7,
    let c := show7 [];
      decide (c.showtime p7 = true ∧ c.on (lpB p7) LPI_STAT_RX_QUIET = false ∧ (c.port p7).oct.drift.contains 2039 = false),
    let c := show7 [(PCS_STAT_RX_LPI, 1)]; decide (c.showtime p7 = true ∧ ((c.snrTaken p7 []).showMargin p7).on (lpB p7) PCS_STAT_RX_LPI = true),
    let c := show7 [(LM_CTL_SNR_MIN, 0)]; let d := (c.snrTaken p7 []).showMargin p7;
      decide (c.showtime p7 = true ∧ 0 ≤ d.get (lpB p7) OCT_UNC_UNC_MAX ∧ d.getS (lpB p7) LM_CTL_SNR_MIN ≤ d.getS (lpB p7) LM_STAT_SNR_MARGIN),
    let c := show7 []; decide (c.showtime p7 = true ∧ c.on (lpB p7) PCS_STAT_RX_LPI = false)] = true := by
  decide +kernel

/-- Witnesses for OctavoChangesComplete; a swap, a reload and a pause in each stage. -/
theorem witness_OctavoChanges : allOf [
    let c := (show7 [(OCT_CTL_SWAP_EN, 1), (OCT_SWAP_TRIG, 255)]).modOct p7 fun o =>
        { o with target := 60, rxBits := [8, 1], snr := [100, 600] };
      let d := c.showMargin p7; let q := (d.port p7).oct;
      let r := swapMoves (d.toneTable p7 q.snr (d.octBand p7 false)) q.drift (d.get (lpB p7) OCT_SWAP_TRIG) q.target 24384 q.rxBits [];
      decide (c.showtime p7 = true ∧ d.on (lpB p7) OCT_CTL_SWAP_EN = true ∧ q.swap = none ∧ q.swapTx = none ∧ q.reload = none ∧ q.pause = none ∧
        d.inLpi p7 = false ∧ d.calRuns p7.val = false) && !r.2.isEmpty,
    let c := show7 [];
      decide (c.showtime p7 = true ∧ c.omcRepeat p7 1 255 = none ∧ c.omcRepeat p7 4 255 = none ∧ c.reloadHeld p7 = 0 ∧ (c.port p7).oct.master = true),
    let c := showO fun o => { o with swap := some { seq := 255 } }; ((c.port p7).oct.swap.map (·.seq)) == some (beAt (be 2 0 ++ be 1 255) 2 1),
    let c := showO fun o => { o with swap := some { seq := 255, sends := 4 } };
      decide (((c.port p7).oct.swap.map fun x => (x.target, decide (x.sends < 5))) = some (none, true) ∧ c.inLpi p7 = false ∧ (c.port p7).oct.pause = none ∧
        c.showtime p7 = true),
    let c := showO fun o => { o with swapTx := some {} }; decide (c.showtime p7 = true ∧ (c.port p7).oct.swapTx.isSome = true),
    let c := showO fun o => { o with swap := some { target := some 255 } };
      decide (c.showtime p7 = true ∧ ((c.port p7).oct.swap.map (·.target)) = some (some 255) ∧ (c.port p7).oct.rxChanged ≠ some 255),
    let c := showO fun o => { o with swap := some {} };
      decide (c.showtime p7 = true ∧ ((c.port p7).oct.swap.map (·.target)) = some none ∧ (c.port p7).oct.rxChanged ≠ some 255),
    let c := showO fun o => { o with reload := some { vals := [1, 60, 30, 2, 2], sent := true } };
      (c.port p7).oct.reload == some { vals := [1, 60, 30, 2, 2], sent := true } && c.showtime p7,
    let c := showO fun o => { o with reload := some { seq := 255, frags := (List.range 16).map fun k => (k, []) } };
      decide (((c.port p7).oct.reload.map fun x => (x.seq, x.whole)) = some (255, true) ∧ (c.port p7).oct.master = true),
    let c := showO fun o => { o with reload := some { seq := 255 } };
      decide (((c.port p7).oct.reload.map fun x => (x.seq, x.whole, x.target)) = some (255, false, none) ∧ (c.port p7).oct.master = true),
    let c := showO fun o => { o with reload := some { target := some 7 } }; decide (((c.port p7).oct.reload.map (·.target)) = some (some 7) ∧ c.showtime p7 = true),
    let c := showO fun o => { o with pause := some { own := true } };
      decide (((c.port p7).oct.pause.map fun x => (x.own, x.acked)) = some (true, false) ∧ c.showtime p7 = true),
    let c := (showO fun o => { o with cancels := 1 }).modCal fun x => { x with running := [(7, 0)] };
      decide (c.showtime p7 = true ∧ c.calRuns p7.val = true ∧ (c.port p7).oct.pause = none ∧ (c.port p7).oct.cancels ≠ 0),
    let c := showO fun o => { o with pause := some { acked := true } }; decide (((c.port p7).oct.pause.map (·.acked)) = some true ∧ c.showtime p7 = true),
    let c := oct 12 fun o => { o with pause := some { own := false } };
      let d := (((c.setPhase p7 11).put (lpB p7) OCT_STAT_PAUSED 0).evt (lpB p7) OCT_EVT_PAUSE_END).modOct p7 fun o =>
        { o with pause := none, cancels := 0, uncBad := 0, snrBad := 0 };
      decide (c.lState p7 = 6 ∧ c.get (lpB p7) OCT_STAT_PHASE = 12 ∧ ((c.port p7).oct.pause.map (·.own)) = some false ∧ d.on (lpB p7) PCS_STAT_TX_LPI = false)] = true := by
  decide +kernel

/-- Port 7 with Pip running in a state, and part of its Pip state set. -/
def pip (n : Nat) (f : PipSt → PipSt) : Chip := (link n [(PIP_CTL_EN, 1)]).modPip p7 f
/-- A DIAG_REQ of SEQ 255 that awaits its answer. -/
def asked : PipOut := { msg := { typ := 9, seq := some 255 }, sends := 4 }

/-- Witnesses for PipEventsComplete. -/
theorem witness_PipEvents : allOf [
    let c := pip 1 id; let d := (c.pipGood p7 1 2 255).peerSeen p7 0xCA00000000000001;
      decide (c.pipHears p7 = true ∧ d.lState p7 = 1 ∧ beAt (be 8 0xCA00000000000001) 0 1 = 0xCA),
    let c := pip 2 id; let d := ((c.pipGood p7 2 2 255).peerSeen p7 0xCA00000000000001).pipAck p7 2 255 2 0;
      let e := ((d.modPip p7 fun x => { x with peerCap := some {} }).put (lpB p7) AN_LP_ABILITY 0).put (lpB p7) AN_LP_VALID 1;
      decide (c.pipHears p7 = true ∧ (c.pipGood p7 2 2 255).pipRepeat p7 2 255 = none ∧ d.lState p7 = 2 ∧ e.lState p7 = 2),
    let c := pip 2 fun x => { x with peerCap := some { ident := 2 ^ 64 - 1, adv := 0x2000 } }; let d := c.pipGood p7 3 2 255;
      decide (c.pipHears p7 = true ∧ d.pipRepeat p7 3 255 = none ∧ ((d.port p7).pip.peerCap.map fun x => d.capMaster p7 x) = some false ∧ d.lState p7 = 2),
    let c := pip 10 fun x => { x with outstanding := [asked] }; let d := c.pipGood p7 4 2 255;
      decide (c.pipHears p7 = true ∧ (d.port p7).pip.outstanding = [asked] ∧
        (d.pipDrop p7 fun m => m == asked.msg || (m.typ == 9 && m.seq == some 255)).lState p7 ≠ 2),
    let c := ((pip 1 id).put PWR PWR_WATCH_PAIRS_LISTEN 0x80).modPwr fun x => { x with mode := 1 }; let d := c.pipGood p7 5 2 255;
      decide (c.pipHears p7 = true ∧ d.bit PWR PWR_WATCH_PAIRS_LISTEN 7 = true ∧ d.pwr.mode = 1),
    let c := (pip 1 id).put PWR PWR_PARTNER_SLEEP_EN_EN 1; let d := c.pipGood p7 6 2 255;
      decide (c.pipHears p7 = true ∧ d.pipRepeat p7 6 255 = none ∧ d.on PWR PWR_PARTNER_SLEEP_EN_EN = true),
    let c := (show7 [(PIP_CTL_EN, 1)]); let d := c.pipGood p7 7 2 255;
      decide (c.pipHears p7 = true ∧ d.pipRepeat p7 7 255 = none ∧ d.showtime p7 = true ∧ (d.port p7).oct.swap = none ∧ (d.port p7).oct.swapTx = none ∧
        (d.port p7).oct.reload = none ∧ (d.port p7).oct.pause = none),
    let c := pip 9 id; let d := c.pipGood p7 9 2 255; decide (c.pipHears p7 = true ∧ d.pipRepeat p7 9 255 = none),
    let c := pip 9 fun x => { x with outstanding := [asked] }; let d := c.pipGood p7 10 2 255;
      decide (c.pipHears p7 = true ∧ (d.port p7).pip.outstanding = [asked]),
    let c := puts (pip 9 id) [(lpB p7, PIP_RX_CTL_CAPTURE_DB, 1)]; let d := c.put (lpB p7) PIP_STAT_RX_BUSY 1;
      decide (c.pipHears p7 = true ∧ d.get (lpB p7) PIP_RX_CTL_CAPTURE_DB ≠ 0 ∧ (d.get (lpB p7) PIP_RX_CTL_CAPTURE_DB : Int) ≤ 1),
    let c := pip 9 fun x => { x with waiting := [{ typ := 8 }] };
      decide (c.pipHears p7 = true ∧ c.on (lpB p7) PIP_STAT_RX_BUSY = false ∧ (firstWaiting (c.port p7).pip.waiting).map (·.answer) = some false),
    let c := pip 9 fun x => { x with waiting := [{ typ := 10, answer := true }] }; decide (c.pipHears p7 = true ∧ (c.port p7).pip.waiting.length = 1),
    let c := pip 9 fun x => { x with outstanding := [asked] }; decide ((c.port p7).pip.outstanding = [asked] ∧ (c.port p7).pip.waiting = []),
    let c := pip 9 fun x => { x with burst := true }; (c.port p7).pip.burst] = true := by
  decide +kernel

/-- Witnesses for CableEventsComplete. -/
theorem witness_CableEvents : allOf [
    (link 10 [(DIAG_STAT_BUSY, 1)]).tdrBusy p7,
    let c := link 10 [(DIAG_STAT_BUSY, 1)]; decide (c.tdrBusy p7 = true ∧ (c.port p7).diag.shooting = false),
    let c := (link 10 [(DIAG_STAT_BUSY, 1), (DIAG_THR_THR, 1)]).modDiag p7 fun x => { x with shooting := true };
      decide (c.tdrBusy p7 = true ∧ (c.port p7).diag.shooting = true ∧ 0 * 199526 < c.get (lpB p7) DIAG_THR_THR * 512 * 100000 ∧ farEnd (c.tdrReport p7 []) = none),
    let c := show7 [(AN_LP_PARTNER_CARESTYR, 1), (AN_STAT_RESOLVED, 5), (AN_STAT_MS_RESULT, 0)];
      decide (c.markers p7 = true ∧ c.on (lpB p7) AN_STAT_MS_RESULT = false),
    let c := show7 [(AN_LP_PARTNER_CARESTYR, 1), (AN_STAT_RESOLVED, 5), (AN_STAT_MS_RESULT, 1), (DIAG_CTL_L_EN, 1)];
      decide (c.markers p7 = true ∧ c.on (lpB p7) AN_STAT_MS_RESULT = true ∧ c.on (lpB p7) DIAG_CTL_L_EN = true ∧ c.modeOf p7 = 5 ∧ (c.port p7).diag.prevRtt = none),
    let c := link 7 [(AN_STAT_MS_RESULT, 1), (DLY_STAT_L_VALID, 1), (LINK_STAT_LINK_UP, 1)];
      decide (c.folioOn = true ∧ c.on (lpB p7) AN_STAT_MS_RESULT = true ∧ c.on (lpB p7) DLY_STAT_L_VALID = true ∧ c.linkUp p7 = true),
    let c := link 7 [(AN_STAT_MS_RESULT, 0), (DIAG_CTL_L_EN, 1), (AN_STAT_RESOLVED, 4)];
      let f := be 12 0 ++ be 2 0x88F7 ++ be 1 0xC ++ be 43 0 ++ be 2 3 ++ be 2 0xC ++ be 3 0x4AC948 ++ be 3 1 ++ be 4 9 ++ be 1 4 ++ be 1 0;
      let d := c.bumpLp p7 29 1;
      decide (c.folioOn = true ∧ c.ptpOwn f = true ∧ ptpType f = 0xC ∧ beAt (f.drop 58) 0 2 = 3 ∧ beAt (f.drop 58) 4 3 = 0x4AC948 ∧ beAt (f.drop 58) 7 3 = 1 ∧
        d.linkFlows p7 = true ∧ d.on (lpB p7) AN_STAT_MS_RESULT = false ∧ d.on (lpB p7) DIAG_CTL_L_EN = true ∧ beAt (f.drop 58) 14 1 = d.modeOf p7)] = true := by
  decide +kernel

/-- A PTP frame of Folio's domain with a message type. -/
def ptp (n : Nat) : Bytes := be 12 0 ++ be 2 0x88F7 ++ be 1 n ++ be 60 0
/-- Line port 7 as a PTP port with its link up. -/
def ptp7 (role : Nat) : Chip := link 7 [(TS_CTL_ROLE, role), (LINK_STAT_LINK_UP, 1)]

/-- Witnesses for FolioEventsComplete. -/
theorem witness_FolioEvents : allOf [
    (ptp7 2).ptpFor 7 (ptp 0) 0, (ptp7 2).ptpFor 7 (ptp 8) 8, (ptp7 2).ptpFor 7 (ptp 0xB) 0xB, (ptp7 2).ptpFor 7 (ptp 2) 2,
    let c := ptp7 1; decide (c.folioOn = true ∧ c.ptpOwn (ptp 13) = true ∧ c.ptpEn 7 = true),
    (puts base [(FOLIO, FOLIO_CTL_SRC, 2), (FOLIO, FOLIO_CTL_SRC_IDX, 7)]).srcPtp == some 15,
    let c := base.put FOLIO FOLIO_CTL_SRC 3; decide (c.isTail = false ∧ c.get FOLIO FOLIO_CTL_SRC = 3),
    let c := base.put FOLIO FOLIO_CAP_CTL_EDGE 0xC0;
      decide (c.folioClk = true ∧ c.get FOLIO FOLIO_CAP_CTL_EDGE / 4 ^ 3 % 4 % 2 = 1 ∧ c.get FOLIO FOLIO_CAP_CTL_EDGE / 4 ^ 3 % 4 / 2 = 1 ∧
        (c.folio.caps[3].queue).length < 8 ∧ c.get FOLIO FOLIO_CTL_SRC ≠ 3),
    let c := puts (ptp7 1) [(FOLIO, FOLIO_PTP_CTL_PROFILE, 1), (FOLIO, FOLIO_CTL_TC, 0)]; decide (c.ptpMaster 7 = true ∧ c.on FOLIO FOLIO_CTL_TC = false),
    let c := ptp7 2; decide (c.folioOn = true ∧ c.ptpEn 7 = true ∧ c.ptpUp 7 = true ∧ (c.folio.ptp[7]).req = none ∧ (c.folio.ptp[7]).lost ≤ 9),
    let c := base.modEvo 3 fun x => { x with armed := true, next := 0 }; let e := c.folio.outs[3];
      decide (e.armed = true ∧ c.folioClk = true ∧ e.next ≤ c.now + c.latEvt)] = true := by
  decide +kernel

/-- A retimer pair, H7 and T7, both enabled, in a training state. -/
def pair (train : Bool) (n : Nat) (l : List (Nat × Fld × Nat)) : Chip :=
  let c := puts base ([(HGRP, HGRP_MODE_ACTIVE, 3), (laneB 7, XN_CTL_ENABLE, 1), (laneB l15, XN_CTL_ENABLE, 1), (laneB 7, XN_TRN_STAT_STATE, n),
    (laneB l15, XN_TRN_STAT_STATE, n)] ++ l)
  (c.modLane 7 fun x => { x with train := train }).modLane l15 fun x => { x with train := train }

/-- Witnesses for LaneEventsComplete. -/
theorem witness_LaneEvents : allOf [
    let c := lane 7 base [(XN_CTL_ENABLE, 1)]; decide (c.laneRuns 7 = true ∧ ((c.laneRx 7 false false false false false).lanes[7]).rxLost = true),
    let c := lane 7 base [(XN_CTL_ENABLE, 1)]; decide (c.laneRuns 7 = true ∧ c.trnState 7 ≠ 5 ∧ (c.lanes[7]).train = false),
    let c := lane 7 (base.put HGRP HGRP_MODE_ACTIVE 2) [(XN_CTL_ENABLE, 1), (XN_STAT_UP, 1)];
      decide (c.hostMode = 2 ∧ c.laneData 7 = true ∧ c.laneUp 7 = true ∧ c.on (laneB 7) XN_STAT_LIVE = false ∧ c.quire.idleHold = false ∧
        c.bit HGRP HGRP_BOND_STAT_SHED 7 = false ∧ hostLanes.all (fun h => !c.on (laneB h) XN_STAT_LIVE) = true),
    let c := pair true 0 []; decide (c.pairReady l15 = true ∧ c.laneRuns l15 = true ∧ c.trnState l15 = 0),
    let c := pair true 1 []; decide (c.pairReady l15 = true ∧ c.laneRuns l15 = true ∧ (c.lanes[15]).train = true ∧ c.trnState l15 = 1),
    let c := pair true 4 []; decide (c.pairReady l15 = true ∧ c.laneRuns l15 = true ∧ (c.lanes[15]).train = true ∧ c.trnState l15 = 4),
    let c := pair true 1 []; decide (c.laneRetimed (hLane 7) = true ∧ c.trnState (hLane 7) = 1),
    let c := pair true 2 [(laneB 7, XN_TRN_STAT_READY_SENT, 1), (laneB l15, XN_TRN_STAT_READY_SENT, 1)];
      decide (c.laneRetimed l15 = true ∧ c.laneRuns l15 = true ∧ c.trnState l15 = 2 ∧ c.on (laneB l15) XN_TRN_STAT_READY_SENT = true ∧
        c.on (laneB (pairLane l15)) XN_TRN_STAT_READY_SENT = true),
    let c := pair true 5 []; decide (c.trnState l15 = 5 ∧ c.laneRetimed l15 = true),
    let c := pair false 3 []; decide (c.laneRetimed l15 = true ∧ c.laneRuns l15 = true ∧ c.trnState l15 = 3),
    let c := lane l15 base [(XN_PAT_CTL_CHK_EN, 1), (XN_PAT_STAT_LOCK, 1)];
      decide (c.on (laneB l15) XN_PAT_CTL_CHK_EN = true ∧ c.pwr.mode = 0 ∧ c.on (laneB l15) XN_PAT_STAT_LOCK = true),
    let c := lane l15 base [(XN_PAT_INJ_PERIODIC, 1), (XN_PAT_CTL_GEN_EN, 1)];
      decide (c.on (laneB l15) XN_PAT_INJ_PERIODIC = true ∧ c.on (laneB l15) XN_PAT_CTL_GEN_EN = true ∧ c.get (laneB l15) XN_CTL_LPBK = 0),
    let c := lane l15 base [(XN_PAT_INJ_PERIODIC, 1), (XN_PAT_CTL_GEN_EN, 1), (XN_CTL_LPBK, 1), (XN_PAT_CTL_CHK_EN, 1), (XN_PAT_STAT_LOCK, 1)];
      decide (c.on (laneB l15) XN_PAT_INJ_PERIODIC = true ∧ c.on (laneB l15) XN_PAT_CTL_GEN_EN = true ∧ c.get (laneB l15) XN_CTL_LPBK = 1 ∧
        c.on (laneB l15) XN_PAT_CTL_CHK_EN = true ∧ c.on (laneB l15) XN_PAT_STAT_LOCK = true)] = true := by
  decide +kernel

/-- A minimum frame with a good check sequence. -/
def frame : Bytes := let b := be 12 0 ++ be 48 0; b ++ fcs b

/-- Witnesses for FramePathsComplete. -/
theorem witness_FramePaths : allOf [
    let c := link 7 [(MAC_MAXLEN_MAXLEN, 1518)]; let r := c.qCommit (qOf 0 p7 (frameClass frame)) { bytes := frame, time := 0 };
      decide (c.linkFlows p7 = true ∧ c.lineLoop p7 = 0 ∧ c.lState p7 ≠ 6 ∧ frame.length ≤ c.get (lpB p7) MAC_MAXLEN_MAXLEN ∧ fcsOk frame = true ∧
        beAt frame 12 2 ≠ 0x8808 ∧ c.ptpTakes (ptpOf p7) frame = false ∧ c.carries p7 = true ∧ c.quireOn = true ∧ r.2 = true),
    let c := (showO fun o => { o with cwBad := [false, true] }).put (lpB p7) MAC_MAXLEN_MAXLEN 1518;
      decide (c.linkFlows p7 = true ∧ c.lineLoop p7 = 0 ∧ c.lState p7 = 6 ∧ ((c.port p7).oct.cwBad.take 2).any id = true ∧ frame.length ≤ c.get (lpB p7) MAC_MAXLEN_MAXLEN),
    (pair false 3 []).laneRetimed l15,
    let c := (lane 7 (link 7 [(MAC_MAXLEN_MAXLEN, 1518)]) [(XN_CTL_ENABLE, 1), (XN_STAT_UP, 1)]).laneDecoded (hLane p7) { cw := 3, sym := 5, unc := 1, blk := 2 }; let d := c.laneGot (hLane p7) frame.length;
      decide (c.hostMode = 0 ∧ c.laneRetimed 7 = false ∧ c.laneData 7 = true ∧ c.laneLoop 7 = 0 ∧ c.laneUp 7 = true ∧ c.pairedPort p7 = true ∧
        frame.length ≤ c.get (lpB p7) MAC_MAXLEN_MAXLEN ∧ d.ptpTakes 15 frame = false ∧ d.quireOn = true),
    let c := loaded (link 7 []);
      decide (c.linkFlows p7 = true ∧ c.on (lpB p7) PCS_STAT_TX_LPI = false ∧ ctlNext (c.bit (lpB p7) PFC_STAT_RX_PAUSED 7) (c.port p7).link.ctlq = none ∧
        c.quireOn = true ∧ c.pickClass 1 p7 (fun q => !c.bit (lpB p7) PFC_STAT_RX_PAUSED (qCls q).val) = some (qOf 1 p7 7) ∧
        (c.readFrame (qOf 1 p7 7) none {} false).2 = 1 ∧ (c.readFrame (qOf 1 p7 7) none { err := 7 } true).2 = 2),
    let c := base.modHgrp fun x => { x with heldRx := x.heldRx.set 7 [{ seq := 3 }] }; decide ((c.hgrp.heldRx.getD 7 []).length = 1),
    let c := puts base [(HGRP, HGRP_MODE_ACTIVE, 1), (HGRP, HGRP_STAT_GATHER_UP, 1)];
      decide (c.hostMode = 1 ∧ c.on HGRP HGRP_STAT_GATHER_UP = true ∧ 7 % 32 / 8 = (c.bumpHgrp 7 1).pos),
    let c := base.put QUIRE QUIRE_CTL_SCRUB_EN 1; decide (c.on QUIRE QUIRE_CTL_SCRUB_EN = true ∧ c.quireOn = true ∧ c.banks ≠ 0),
    (base.put QUIRE QUIRE_STAT_REBUILD 1).on QUIRE QUIRE_STAT_REBUILD,
    (base.modQuire fun x => { x with idleHold := true }).quire.idleHold,
    let c := (base.put (faceB .s) SPF_STAT_STATE 4).modQ 63 fun q => { q with frames := [{ bytes := frame, spilled := some 0, lentCells := 1, south := true }] };
      decide ((((c.quire.queues[63]).frames.find? fun z => z.spilled.isSome).map (·.south)) = some true ∧
        min 1 ((c.quire.queues[63]).frames.countP fun f => f.at_ .s) ≠ 0 ∧ c.fSt .s = 4)] = true := by
  decide +kernel
/-- A device of the stack with a face in a state. -/
def stack (role pos : Nat) (f : Face) (n : Nat) (l : List (Nat × Fld × Nat)) : Chip :=
  (puts base ([(SPINE, SPINE_STAT_ROLE, role), (SPINE, SPINE_STAT_POS, pos), (faceB f, SPF_STAT_STATE, n)] ++ l)).modSpine fun x => { x with acting := 0 }

/-- Witnesses for SpineFacesComplete. -/
theorem witness_SpineFaces : allOf [
    let c := stack 0 0 .s 1 []; decide (c.spineOn = true ∧ c.fSt .s = 1),
    decide ((stack 1 1 .n 2 []).fSt .n = 2), decide ((stack 0 0 .s 2 []).fSt .s = 2), decide ((stack 0 0 .s 3 []).fSt .s = 3),
    decide ((stack 0 0 .s 5 []).fSt .s = 5),
    let c := (stack 0 0 .s 4 []).modFace .s fun x => { x with announced := true }; decide (c.fSt .s = 4 ∧ (c.face .s).announced = true),
    let c := stack 0 0 .s 4 [(faceB .s, SPF_STAT_RX_LANES, 3), (faceB .s, SPF_CTL_FALLBACK_EN, 1)];
      decide (c.fSt .s = 4 ∧ c.get (faceB .s) SPF_STAT_RX_LANES = 3 ∧ c.on (faceB .s) SPF_CTL_FALLBACK_EN = true),
    let c := stack 0 0 .s 4 []; decide (c.spineOn = true ∧ c.fSt .s = 4 ∧ c.role ≠ 3),
    let c := stack 0 0 .n 4 []; decide (c.spineOn = true ∧ c.fSt .n = 4 ∧ markOk (be 32 0) = false),
    let c := stack 0 0 .n 4 []; decide (c.spineOn = true ∧ c.fSt .n = 4 ∧ markOk (markBytes (be 1 1 ++ be 27 7)) = true ∧ (c.bumpFace .n 1 1).isTail = false),
    let c := stack 1 3 .n 4 []; let b := markBytes (be 1 1 ++ be 27 7);
      decide (c.spineOn = true ∧ c.fSt .n = 4 ∧ markOk b = true ∧ (c.bumpFace .n 1 1).isTail = true ∧ beAt b 0 1 = 1),
    let c := (stack 1 1 .n 4 []).modFace .n fun x => { x with echoDue := some (255, 9) }; decide (c.spine.north.echoDue = some (255, 9) ∧ c.spineOn = true ∧ c.fSt .n = 4),
    let c := (stack 0 0 .s 4 []).modFace .s fun x => { x with markCount := 0, dHist := List.replicate 62 1 };
      let b := markBytes (be 1 2 ++ be 1 0 ++ be 1 255 ++ be 25 0);
      decide (c.spineOn = true ∧ c.fSt .s = 4 ∧ markOk b = true ∧ beAt b 0 1 = 2 ∧ (beAt b 2 1 + 1) % 256 = (c.bumpFace .s 1 1).spine.south.markCount ∧
        (c.bumpFace .s 1 1).spine.south.dHist.length < 63),
    let c := stack 1 3 .n 4 [(faceB .n, SPF_STAT_CLK_OK, 1)]; decide (c.isTail = true ∧ c.on (faceB .n) SPF_STAT_CLK_OK = true),
    let c := (stack 1 3 .n 4 []).modFace .n fun x => { x with out := some ({ typ := 3 }, 7) };
      decide ((c.face .n).out = some ({ typ := 3 }, 7) ∧ c.spHears .n = true)] = true := by
  decide +kernel

/-- A good /C/ of a type, from a position, to one, with SEQ 255. -/
def ctl (typ src dst : Nat) (body : Bytes) : Bytes := ({ typ := typ, seq := 255, src := src, dst := dst, body := body } : SpMsg).bytes
/-- The type and what every clause about a received message asks: it is new and the part is no deposed head. -/
def heard (c : Chip) (f : Face) (b : Bytes) (typ : Nat) : Bool := decide ((spParse b).typ = typ ∧ c.spNew f b ∧ (c.spTaken f b).role ≠ 3)
/-- The part once the message has been acknowledged and relayed. -/
def relayed (c : Chip) (f : Face) (b : Bytes) : Chip := (c.spTaken f b).spRelay f (spParse b)

/-- Witnesses for SpineMessagesComplete. -/
theorem witness_SpineMessages : allOf [
    let c := stack 0 0 .s 3 []; let b := ctl 1 1 15 (be 8 0 ++ be 1 1 ++ be 1 0 ++ be 1 1); let d := c.spTaken .s b; let m := (spParse b).body;
      heard c .s b 1 && decide (beAt m 8 1 = d.pos + 1 ∧ (beAt m 9 1).testBit 0 = false),
    let c := stack 1 3 .n 3 []; let b := ctl 1 2 15 (be 8 0 ++ be 1 2 ++ be 1 0 ++ be 1 3); let d := c.spTaken .n b; let m := (spParse b).body;
      heard c .n b 1 && decide (d.pos = beAt m 8 1 + 1 ∧ (beAt m 9 1).testBit 0 = false),
    let c := (stack 0 0 .s 4 []).modFace .s fun x => { x with out := some ({ typ := 3, seq := 255 }, 1) }; let b := ctl 0 1 0 [];
      decide ((spParse b).typ = 0 ∧ spOk b = true ∧ c.spHears .s = true ∧ (c.face .s).out = some ({ typ := 3, seq := 255 }, 1) ∧ (spParse b).seq = 255),
    let c := stack 1 3 .n 4 []; let b := ctl 2 0 3 (be 2 1 ++ be 1 7 ++ be 1 2 ++ be 8 0); let e := relayed c .n b; let m := (spParse b).body;
      heard c .n b 2 && decide (e.spMine 3 = true ∧ beAt m 3 1 < 128 ∧ e.fromHead 0 = true ∧ m.length = 4 + 4 * (beAt m 3 1 % 64) ∧
        e.binderOn = true ∧ e.on (mbB 2) MBN_CTL_DOORBELL = false),
    let c := stack 1 3 .n 4 []; let b := ctl 3 0 3 (be 2 5); heard c .n b 3 && (relayed c .n b).spMine 3,
    let c := stack 1 1 .s 4 []; let b := ctl 4 2 1 (be 1 1 ++ be 1 7 ++ be 2 1); heard c .s b 4 && (relayed c .s b).spMine 1,
    let c := stack 1 1 .n 4 []; let x := be 1 1 ++ be 1 63 ++ be 1 7 ++ be 1 0 ++ be 2 0 ++ be 2 1 ++ be 12 0 ++ be 1 0; let b := x ++ crcField x;
      decide (c.spineOn = true ∧ c.fSt .n = 4 ∧ spillOk b = true ∧ beAt b 0 1 = 1),
    let c := stack 1 3 .n 4 []; let b := ctl 5 0 15 (be 1 2); let h := (relayed c .n b).resetAnnounced 15;
      heard c .n b 5 && decide (h.isTail = true ∧ h.spMine 15 = true ∧ beAt (spParse b).body 0 1 = 2),
    let c := (stack 1 2 .n 4 []).put (faceB .s) SPF_STAT_STATE 4; let b := ctl 5 0 2 (be 1 1); let d := c.spTaken .n b; let h := d.spOut .s (spParse b);
      heard c .n b 5 && decide (d.isTail = true ∧ (spParse b).dst = d.pos ∧ d.faceMay .s = true ∧ h.isTail = true ∧ h.spMine 2 = true ∧ beAt (spParse b).body 0 1 = 1),
    decide ((base.modSpine fun x => { x with resetDue := some 1 }).spine.resetDue = some 1),
    let c := stack 1 3 .n 4 []; let b := ctl 6 0 15 (be 1 2 ++ be 2 0); let e := relayed c .n b;
      heard c .n b 6 && decide ((spParse b).src ≠ (spParse b).dst ∧ e.spMine 15 = true ∧ e.isTail = true ∧ e.fromHead 0 = true ∧ beAt (spParse b).body 0 1 = 2),
    (base.modSpine fun x => { x with stopDue := true }).spine.stopDue,
    let c := stack 0 0 .s 4 []; let b := ctl 7 1 0 (be 1 3); heard c .s b 7 && (relayed c .s b).spMine 0 && beAt (spParse b).body 0 1 % 4 == 3,
    let c := stack 0 0 .s 4 []; let b := ctl 8 3 0 (be 1 3 ++ be 1 1); heard c .s b 8 && (relayed c .s b).spMine 0 && beAt (spParse b).body 0 1 == 3,
    let c := (stack 1 2 .n 4 []).put (faceB .s) SPF_STAT_STATE 4; let b := ctl 9 0 15 (be 1 3); let g := (c.spTaken .n b).promotePass .n;
      heard c .n b 9 && decide (g.spOnward .n 15 = some .s ∧ ((g.promotePass .s).spOut .s (spParse b)).spMine 15 = true),
    let c := stack 1 1 .n 1 [(SPINE, SPINE_CTL_STACK_PROMOTE, 1)];
      decide (c.role = 1 ∧ c.pos = 1 ∧ c.on SPINE SPINE_CTL_STACK_PROMOTE = true ∧ c.on (faceB .n) SPF_STAT_CLK_OK = false ∧ c.spine.north.announced = false)] = true := by
  decide +kernel

/-- A posted write that waits in a slot. -/
def waits (k : Fin 3) (a m d : Nat) : Chip := base.modFab fun x => { x with posted := x.posted.set k (some { addr := a, mask := m, data := d }) }

/-- Witnesses for ClockEventsComplete. -/
theorem witness_ClockEvents : allOf [
    decide (base.loopNeed 5 = true ∧ base.refOk 5 = true), decide (base.loopNeed 0 = true ∧ base.refOk 0 = true),
    let c := base.modClk fun x => { x with run := 31 }; decide (c.clk.lock.testBit 5 = true ∧ (5 : Fin 6) ≠ 0 ∧ c.loopRuns 5 = false),
    decide (base.clk.lock.testBit 5 = true ∧ base.refOk 5 = true),
    (waits 2 0x7013 1 1).fab.posted[(2 : Fin 3)].isSome, (waits 0 0x1001 1 1).fab.posted[(0 : Fin 3)] == some { addr := 0x1001, mask := 1, data := 1 },
    (waits 0 0x1000 1 1).fab.posted[(0 : Fin 3)] == some { addr := 0x1000, mask := 1, data := 1 },
    let c := base.put PWR PWR_ISLANDS_ON 0xEF; decide (c.pwr.mode = 0 ∧ c.islandOn 4 = false ∧ c.islandNeed 4 = true),
    let c := base.put PWR PWR_ISLANDS_ON 0xFB; decide (c.pwr.mode = 0 ∧ c.islandOn 2 = false ∧ c.islandNeed 2 = true),
    let c := puts base [(CLK, CLK_MON_CTL_XA_EN, 1), (CLK, CLK_MON_STAT_VS_XB, 1), (CLK, CLK_MON_CTL_TOL, 1)];
      decide (c.on CLK CLK_MON_CTL_XA_EN = true ∧ c.monRuns = true ∧ c.clk.stable.testBit 0 = true ∧ c.on CLK CLK_MON_STAT_VS_XB = true ∧
        (c.put CLK CLK_MON_XA_COUNT (satU 10 251)).windowFails 251 250 = false),
    let c := puts base [(CLK, CLK_MON_CTL_XB_EN, 1), (CLK, CLK_MON_STAT_VS_XB, 0), (CLK, CLK_MON_CTL_TOL, 2)];
      decide (c.on CLK CLK_MON_CTL_XB_EN = true ∧ c.monRuns = true ∧ c.clk.xaFails = 0 ∧ c.on CLK CLK_MON_STAT_VS_XB = false ∧ c.on CLK CLK_MON_STAT_XA_FAIL = false ∧
        (c.put CLK CLK_MON_XB_COUNT (satU 10 191)).windowFails 191 192 = false),
    let c := (base.put CLK CLK_MON_CTL_XB_EN 1).modPwr fun x => { x with mode := 3 };
      decide (c.pwr.mode = 3 ∧ c.on CLK CLK_MON_CTL_XB_EN = true ∧ c.on CLK CLK_MON_STAT_XB_FAIL = false),
    let c := (base.put CLK CLK_MON_REF_REF 250).modClk fun x => { x with learned := true, refCnt := 1, refSum := 251 };
      let r := c.get CLK CLK_MON_REF_REF; let n := c.clk.refCnt;
      decide (c.clk.learned = true ∧ n ≠ 0 ∧ c.on CLK CLK_MON_STAT_XA_FAIL = false ∧ r * n < c.clk.refSum ∧ n ≤ c.clk.refSum - r * n),
    let c := (base.put CLK CLK_MON_STAT_XA_FAIL 1).modClk fun x => { x with xaPasses := 16 }; decide (c.on CLK CLK_MON_STAT_XA_FAIL = true ∧ c.clk.xaPasses = 16),
    (waits 0 0x1020 1 1).fab.posted[(0 : Fin 3)] == some { addr := 0x1020, mask := 1, data := 1 },
    (waits 0 0x1031 1 1).fab.posted[(0 : Fin 3)] == some { addr := 0x1031, mask := 1, data := 1 },
    (waits 0 0x1040 3 1).fab.posted[(0 : Fin 3)] == some { addr := 0x1040, mask := 3, data := 1 } && BitVec.ofNat 16 3 &&& CLK_LEVEL_TARGET.mask != 0,
    let c := base.modClk fun x => { x with levelTo := some 2 }; decide (c.clk.levelTo = some 2 ∧ c.clk.levelNext = none ∧ c.halted = false),
    decide (base.clk.levelTo = none),
    (waits 1 0x2000 1 0).fab.posted[(1 : Fin 3)] == some { addr := 0x2000, mask := 1, data := 0 },
    (waits 2 0x7013 1 1).fab.posted[(2 : Fin 3)] == some { addr := 0x7013, mask := 1, data := 1 }] = true := by
  decide +kernel

/-- A part in a power state. -/
def sleeps (n : Nat) (w : Option Nat) : Chip := base.modPwr fun x => { x with mode := n, wake := w }

/-- Witnesses for PowerEventsComplete. -/
theorem witness_PowerEvents : allOf [
    let c := base.modPwr fun x => { x with req := some { target := 3 } }; decide (c.pwr.req = some { target := 3 } ∧ c.cal.mtpq = [] ∧ c.mbRunning = none),
    let c := base.modPwr fun x => { x with mode := 1, dozeDue := true }; decide (c.pwr.mode = 1 ∧ c.pwr.dozeDue = true),
    decide (base.bit PWR PWR_WAKE_SRC_CAP_EDGE 3 ≠ true),
    let c := sleeps 3 (some 2); decide (c.pwr.wake = some 2 ∧ c.pwr.pinDue = false ∧ (c.keepCheck [(3, 8191, 7)]).pwr.pinDue = false),
    decide (base.pwr.mode ≠ 4),
    (base.modPwr fun x => { x with rstLow := true }).pwr.rstLow] = true := by
  decide +kernel

/-- Watch with the temperature sensors' and rails' thresholds at both ends of a reading. -/
def watched : Chip :=
  (List.range 14).foldl (fun c k => (c.setReg (bk k PWR + PWR_THR_LO_LOW.off) 0xFFFF).setReg (bk k PWR + PWR_THR_HI_HIGH.off) 5)
    ((sleeps 3 none).put PWR PWR_WATCH_PAIRS_SENSE 1)
/-- Readings at both thresholds. -/
def edges (n : Nat) : List (BitVec 16) := 0xFFFF :: List.replicate n 5

/-- Witness for PowerEventsComplete's clause of WATCH_PERIOD. -/
theorem witness_WatchPeriod : watched.pwr.mode = 3 ∧ watched.pwr.wake = none ∧ watched.on PWR PWR_WATCH_PAIRS_SENSE = true ∧
    ∀ k < 14, ∀ w, (if k < 8 then (edges 7)[k]? else (edges 5)[k - 8]?) = some w →
      signed 16 ((watched.sensorsSeen (edges 7) (edges 5)).get (bk k PWR) PWR_THR_LO_LOW) ≤ signed 16 w.toNat ∧
      signed 16 w.toNat ≤ signed 16 ((watched.sensorsSeen (edges 7) (edges 5)).get (bk k PWR) PWR_THR_HI_HIGH) := by
  have h1 : ∀ k < 14, watched.get (bk k PWR) PWR_THR_LO_LOW = 65535 ∧ watched.get (bk k PWR) PWR_THR_HI_HIGH = 5 := by decide +kernel
  have h2 : ∀ k < 14, (if k < 8 then (edges 7)[k]? else (edges 5)[k - 8]?).all
      (fun w => decide (signed 16 65535 ≤ signed 16 w.toNat ∧ signed 16 w.toNat ≤ signed 16 5)) = true := by decide +kernel
  refine ⟨by decide +kernel, by decide +kernel, by decide +kernel, fun k hk w hw => ?_⟩
  rw [(watched.sensorsSeen_thr _ _ k hk).1, (watched.sensorsSeen_thr _ _ k hk).2, (h1 k hk).1, (h1 k hk).2]
  have := h2 k hk
  rw [hw] at this
  exact of_decide_eq_true this

/-- Witnesses for CalibrationEventsComplete. -/
theorem witness_CalibrationEvents : allOf [
    let c := link 6 [(PMA_STAT_SIGNAL_DET, 1)]; decide ((7 : Fin 24).val < 8 ∧ c.bgSignal (7 : Fin 24).val = true),
    let c := base.modCal fun x => { x with running := [(23, 0)] }; decide (8 ≤ (23 : Fin 24).val ∧ c.calRuns (23 : Fin 24).val = true),
    let c := base.modCal fun x => { x with mtpq := [{ record := 0x67, words := [1] }] }; c.cal.mtpq == [{ record := 0x67, words := [1] }],
    let c := (puts base [(CAL, CAL_SCHED_INT_VALUE, 1), (CAL, CAL_SCHED_PORT_VALUE, 0x80), (CAL, CAL_SCHED_LANE_VALUE, 0x8000)]).modCal fun x => { x with
        runCyc := 75000000000, lastFg := [(7, 1)] };
      decide (c.pwr.mode = 0 ∧ c.get CAL CAL_SCHED_INT_VALUE ≠ 0 ∧ c.cal.sched = none ∧ c.calDue 23 false = true ∧ c.calReady 23 = true) &&
        (List.range 23).all fun u => !c.calReady u,
    decide (base.pwr.mode = 0),
    let c := base.modAge fun x => { x with props := x.props.set 0 (some { word := 0x10000003, approved := true }) };
      match c.age.props[(0 : Fin 4)] with
      | some a => a.approved && a.kind == 1
      | none => false] = true := by
  decide +kernel

/-- Witnesses for TestEventsComplete. -/
theorem witness_TestEvents : allOf [
    (base.put BIST BIST_STAT_PHASE 1).get BIST BIST_STAT_PHASE == 1,
    let c := (base.put BIST BIST_STAT_PHASE 3).modBist fun x => { x with run := some 54 }; decide (c.bist.run = some 54 ∧ c.get BIST BIST_STAT_PHASE = 3),
    let c := puts base [(bk 25 ROLL, ROLL_CTL_EN, 1), (bk 25 ROLL, ROLL_CTL_OP, 6), (bk 25 ROLL, ROLL_CTL_DIR, 1), (bk 25 ROLL, ROLL_N_LO_VALUE, 1)];
      decide (c.rollOn = true ∧ c.on (bk 25 ROLL) ROLL_CTL_EN = true ∧ c.rollSelects 25 (.symbol true) = true ∧ (c.rollActs 25).2 = true),
    let c := base.modRoll 25 fun r => { r with held := [{ bytes := [1] }] }; (c.bist.engines[(25 : Fin 26)]).held == [{ bytes := [1] }],
    let c := (puts base [(pmcB 1, PMC_CTL_EN, 0x80), (pmcB 1 + 7, PMC_SEL_EVENT, 1)]).putWide (pmcB 1 + PMC_CNT_COUNT.off + 2 * 7) 2 1;
      decide (c.bit (pmcB 1) PMC_CTL_EN 7 = true ∧ c.pmcChained 1 7 = false ∧ c.get (pmcB 1 + 7) PMC_SEL_EVENT ≠ 0 ∧
        2 ^ 32 ≤ c.wide (pmcB 1 + PMC_CNT_COUNT.off + 2 * 7) 2 + (0xFFFFFFFF : BitVec 32).toNat),
    decide (base.pwr.mode ≤ 1)] = true := by
  decide +kernel
/-- Witnesses for LinkCommandsComplete: the command that runs in MB0 finds its accesses served. -/
theorem witness_LinkCommands : allOf [
    (let r : MbReq := { cmd := 0x0101, tag := 1, par := [7] }; let s := st ((base).modMb 0 fun x => { x with running := some r }); let c := s.chip; let k := s.lock; let p := portNo (r.p 0); let b := lpB p;
      let x := breads k [(b + LINK_STAT_STATE.off, 1), (b + AN_STAT_RESOLVED.off, 1), (b + LM_STAT_SNR_MARGIN.off, 1), (b + OCT_STAT_PHASE.off, 1),
          (b + PCS_STAT_BLOCK_LOCK.off, 1)] (c, 0);
      decide (c.cmdNow 0x0101 = some (0, r) ∧ x.1.2 = 0)),
    (let r : MbReq := { cmd := 0x0102, tag := 1, par := [0x80, 0x80] }; let s := st ((base).modMb 0 fun x => { x with running := some r }); let c := s.chip; let k := s.lock; let p := portNo (r.p 0);
      let x := runEach (portsOf (r.p 0)) (fun p => bput k (lpB p) PMA_CTL_ENABLE ((r.p 1).testBit p.val).toNat) (c, 0);
      decide (c.cmdNow 0x0102 = some (0, r) ∧ x.2 = 0)),
    (let r : MbReq := { cmd := 0x0103, tag := 1, par := [0x80] }; let s := st ((base).modMb 0 fun x => { x with running := some r }); let c := s.chip; let k := s.lock; let p := portNo (r.p 0);
      let x := runEach (portsOf (r.p 0)) (fun p => bput k (lpB p) LINK_CTL_RESTART 1) (c, 0);
      decide (c.cmdNow 0x0103 = some (0, r) ∧ x.2 = 0)),
    (let r : MbReq := { cmd := 0x0104, tag := 1, par := [7, 5, 0x301F] }; let s := st ((base).modMb 0 fun x => { x with running := some r }); let c := s.chip; let k := s.lock; let p := portNo (r.p 0); let b := lpB p;
      let x := bwr k (b + AN_ADV_ADV_EEE.off) 0xFFFF (BitVec.ofNat 16 (r.p 2)) (bput k b LINK_CTL_MODE_SEL (r.p 1) (c, 0));
      decide (c.cmdNow 0x0104 = some (0, r) ∧ x.2 = 0)),
    (let r : MbReq := { cmd := 0x0105, tag := 1, par := [7, 1] }; let s := st ((base).modMb 0 fun x => { x with running := some r }); let c := s.chip;
      decide (c.cmdNow 0x0105 = some (0, r))),
    (let r : MbReq := { cmd := 0x0106, tag := 1, par := [7, 0, 0, 60, 10] }; let s := st ((base).modMb 0 fun x => { x with running := some r }); let c := s.chip; let k := s.lock; let p := portNo (r.p 0); let b := lpB p;
      let w := fun (f : Fld) (n : BitVec 16) (i : Nat) => bwr k (b + f.off) n (BitVec.ofNat 16 (r.p i))
       let x := w OCT_SWAP_TRIG 0xFFFF 4 (w OCT_MARGIN_TARGET 0xFFFF 3 (w OCT_PART_TX_RATE 0xFFFF 2 (w OCT_CTL_DUPLEX 0x7F 1 (c, 0))));
      decide (c.cmdNow 0x0106 = some (0, r) ∧ x.2 = 0)),
    (let r : MbReq := { cmd := 0x0107, tag := 1, par := [7] }; let s := st ((show7 []).modMb 0 fun x => { x with running := some r }); let c := s.chip; let k := s.lock; let p := portNo (r.p 0); let b := lpB p;
      let x := bput k b OCT_CTL_RELOAD 1 (c, 0);
      decide (c.cmdNow 0x0107 = some (0, r) ∧ c.showtime p = true ∧ c.reloadHeld p = 0 ∧ x.2 = 0)),
    (let r : MbReq := { cmd := 0x0108, tag := 1, par := [7, 2039, 1] }; let s := st ((base).modMb 0 fun x => { x with running := some r }); let c := s.chip; let k := s.lock; let p := portNo (r.p 0); let b := lpB p;
      let tone := fun (z : Run × Nat) (j : Nat) =>
          if 2039 < r.p 1 + j then z
          else let v := withSel b OCT_TONE_SEL_TONE (r.p 1 + j) (bread k (b + OCT_TONE_BITS_RX_BITS.off) 1) z.1; (v.1, z.2 + v.2 % 16 * 16 ^ j)
       let x := (List.range 8).foldl tone ((c, 0), 0);
      decide (c.cmdNow 0x0108 = some (0, r) ∧ 1 ≤ r.p 2 ∧ r.p 2 ≤ 8 ∧ x.1.2 = 0)),
    (let r : MbReq := { cmd := 0x0109, tag := 1, par := [7, 1, 4, 0] }; let s := st ((base).modMb 0 fun x => { x with running := some r }); let c := s.chip; let k := s.lock; let p := portNo (r.p 0); let b := lpB p;
      let x := (bread k (b + PIP_CTL_EN.off) 1 (c, 0)).1;
      decide (c.cmdNow 0x0109 = some (0, r) ∧ x.2 = 0)),
    (let r : MbReq := { cmd := 0x010A, tag := 1, par := [0x80, 20] }; let s := st ((base).modMb 0 fun x => { x with running := some r }); let c := s.chip; let k := s.lock; let p := portNo (r.p 0);
      let x := runEach (portsOf (r.p 0)) (fun p x => bput k (lpB p) PIP_CTL_WAKE_REQ 1 (bput k (lpB p) PIP_WAKE_BURST (r.p 1) x)) (c, 0);
      decide (c.cmdNow 0x010A = some (0, r) ∧ x.2 = 0)),
    (let r : MbReq := { cmd := 0x010B, tag := 1, par := [4, 0, 0] }; let s := st ((base).modMb 0 fun x => { x with running := some r }); let c := s.chip; let k := s.lock; let p := portNo (r.p 0);
      let x := runEach allLanes (fun l => bput k (laneB l) XN_CTL_ENABLE 0) (c, 0)
       let y := runEach allLanes (fun l => bput k (laneB l) XN_CTL_RATE (r.p 2 / 4 ^ l.val % 4)) (bput k HGRP HGRP_MODE_MODE (r.p 0) x)
       let z := runEach (allLanes.filter fun l => (r.p 1).testBit l.val) (fun l => bput k (laneB l) XN_CTL_ENABLE 1) y;
      decide (c.cmdNow 0x010B = some (0, r) ∧ z.2 = 0)),
    (let r : MbReq := { cmd := 0x010C, tag := 1, par := [15] }; let s := st ((base).modMb 0 fun x => { x with running := some r }); let c := s.chip; let k := s.lock; let p := portNo (r.p 0); let b := lpB p;
      let b := laneB (laneNum (r.p 0))
       let x := breads k [(b + XN_STAT_UP.off, 1), (b + XN_TRN_STAT_STATE.off, 1), (b + XN_EYE_HEIGHT.off, 1), (b + XN_CTL_ENABLE.off, 1)] (c, 0);
      decide (c.cmdNow 0x010C = some (0, r) ∧ x.1.2 = 0))] = true := by
  decide +kernel

/-- Witnesses for TimeCommandsComplete: the command that runs in MB0 finds its accesses served. -/
theorem witness_TimeCommands : allOf [
    (let r : MbReq := { cmd := 0x0201, tag := 1, par := [] }; let s := st ((base).modMb 0 fun x => { x with running := some r }); let c := s.chip; let k := s.lock;
      let x := breads k [(FOLIO + FOLIO_TIME_TIME.off, 6), (FOLIO + FOLIO_STAT_STATE.off, 1)] (c, 0);
      decide (c.cmdNow 0x0201 = some (0, r) ∧ x.1.2 = 0)),
    (let r : MbReq := { cmd := 0x0202, tag := 1, par := [] }; let s := st ((base).modMb 0 fun x => { x with running := some r }); let c := s.chip; let k := s.lock;
      let x := bput k FOLIO FOLIO_CMD_SET 1 (bwide k (FOLIO + FOLIO_SET_VALUE.off) 6 (ofT (r.p 0) (r.p 1) (r.p 2) (r.p 3)) (c, 0));
      decide (c.cmdNow 0x0202 = some (0, r) ∧ x.2 = 0)),
    (let r : MbReq := { cmd := 0x0203, tag := 1, par := [] }; let s := st ((base).modMb 0 fun x => { x with running := some r }); let c := s.chip; let k := s.lock;
      let x := bput k FOLIO FOLIO_CMD_ADD 1 (bwide k (FOLIO + FOLIO_ADD_VALUE.off) 4 (r.p 0 * 2 ^ 32 + r.p 1) (c, 0));
      decide (c.cmdNow 0x0203 = some (0, r) ∧ x.2 = 0)),
    (let r : MbReq := { cmd := 0x0204, tag := 1, par := [0, 1, 500] }; let s := st ((base.put FOLIO FOLIO_STAT_STATE 1).modMb 0 fun x => { x with running := some r }); let c := s.chip; let k := s.lock;
      let x := bread k (FOLIO + FOLIO_STAT_STATE.off) 1 (c, 0)
       let old := bread k (FOLIO + FOLIO_RATE_RATE.off) 3 x.1
       let d := (r.p 2 * 2 ^ 56 / 1000000000 : Nat) * (signed 64 (r.p 0 * 2 ^ 32 + r.p 1)).sign
       let new := bread k (FOLIO + FOLIO_RATE_RATE.off) 3 (bwide k (FOLIO + FOLIO_RATE_RATE.off) 3 (unsigned 48 (signed 48 old.2 + d)) old.1);
      decide (c.cmdNow 0x0204 = some (0, r) ∧ x.1.2 = 0 ∧ x.2 % 8 = 1 ∧ new.1.2 = 0)),
    (let r : MbReq := { cmd := 0x0205, tag := 1, par := [0, 5] }; let s := st ((base).modMb 0 fun x => { x with running := some r }); let c := s.chip; let k := s.lock;
      let x := bread k (FOLIO + FOLIO_RATE_RATE.off) 3 (bwide k (FOLIO + FOLIO_RATE_RATE.off) 3 (r.p 0 * 2 ^ 32 + r.p 1) (c, 0));
      decide (c.cmdNow 0x0205 = some (0, r) ∧ x.1.2 = 0)),
    (let r : MbReq := { cmd := 0x0206, tag := 1, par := [] }; let s := st ((base).modMb 0 fun x => { x with running := some r }); let c := s.chip; let k := s.lock;
      let x := bwr k (FOLIO + FOLIO_CTL_SRC.off) 0x3FF (BitVec.ofNat 16 (r.p 0)) (c, 0);
      decide (c.cmdNow 0x0206 = some (0, r) ∧ x.2 = 0)),
    (let r : MbReq := { cmd := 0x0207, tag := 1, par := [] }; let s := st ((base).modMb 0 fun x => { x with running := some r }); let c := s.chip;
      decide (c.cmdNow 0x0207 = some (0, r))),
    (let r : MbReq := { cmd := 0x0208, tag := 1, par := [3, 0, 0, 100, 0, 0, 0, 0, 65536] }; let s := st ((base).modMb 0 fun x => { x with running := some r }); let c := s.chip; let k := s.lock;
      let o : Fin 4 := Fin.ofNat 4 (r.p 0); let x := evtArm k r (c, 0);
      decide (c.cmdNow 0x0208 = some (0, r) ∧ ((evtArm k r (c.outStop o, 0)).1.1.folio.outs[o]).armed = true ∧ x.1.2 = 0)),
    (let r : MbReq := { cmd := 0x0209, tag := 1, par := [3, 8] }; let s := st ((base).modMb 0 fun x => { x with running := some r }); let c := s.chip; let k := s.lock;
      let x := (bread k (FOLIO + FOLIO_CAP_STAT_LEVEL.off) 1 (c, 0)).1; let y := capMany (Fin.ofNat 4 (r.p 0)) x.1 [] (r.p 1);
      decide (c.cmdNow 0x0209 = some (0, r) ∧ x.2 = 0)),
    (let r : MbReq := { cmd := 0x020A, tag := 1, par := [7] }; let s := st ((base).modMb 0 fun x => { x with running := some r }); let c := s.chip; let k := s.lock;
      let b := lpB (portNo (r.p 0))
       let x := breads k [(b + TS_STAT_AS_CAPABLE.off, 1), (b + TS_PDLY_PDLY.off, 2), (b + DLY_TX_TX.off, 2), (b + DLY_RX_RX.off, 2), (b + DLY_STAT_USED.off, 1)] (c, 0);
      decide (c.cmdNow 0x020A = some (0, r) ∧ x.1.2 = 0))] = true := by
  decide +kernel

/-- Witnesses for DiagnosticCommandsComplete: the command that runs in MB0 finds its accesses served. -/
theorem witness_DiagnosticCommands : allOf [
    (let r : MbReq := { cmd := 0x0301, tag := 1, par := [7] }; let s := st ((link 10 []).modMb 0 fun x => { x with running := some r }); let c := s.chip; let k := s.lock;
      let p := portNo (r.p 0); let x := bput k (lpB p) DIAG_CTL_TDR_START 1 (c, 0);
      decide (c.cmdNow 0x0301 = some (0, r) ∧ (c.lState p = 8 ∨ c.lState p = 9 ∨ c.lState p = 10) ∧ x.2 = 0)),
    (let r : MbReq := { cmd := 0x0302, tag := 1, par := [0x80] }; let s := st ((base).modMb 0 fun x => { x with running := some r }); let c := s.chip; let k := s.lock;
      let x := runEach (portsOf (r.p 0)) (fun p => bput k (lpB p) DIAG_CTL_E_CLR 1) (c, 0);
      decide (c.cmdNow 0x0302 = some (0, r) ∧ x.2 = 0)),
    (let r : MbReq := { cmd := 0x0303, tag := 1, par := [1] }; let s := st ((base).modMb 0 fun x => { x with running := some r }); let c := s.chip; let k := s.lock;
      let x := breads k [(REGB + REG_ERRLOG_CAUSE_CAUSE.off, 1), (REGB + REG_ERRLOG_ADDR_ADDR.off, 2), (REGB + REG_ERRLOG_CNT_CNT.off, 1)] (c, 0)
       let y := bput k REGB REG_ERRLOG_CAUSE_VALID 1 x.1;
      decide (c.cmdNow 0x0303 = some (0, r) ∧ (!decide (r.p 0 % 2 = 1) || decide (y.2 = 0)) = true ∧ x.1.2 = 0)),
    (let r : MbReq := { cmd := 0x0304, tag := 1, par := [0x17, 0xC00, 30] }; let s := st ((base).modMb 0 fun x => { x with running := some r }); let c := s.chip; let k := s.lock;
      let x := breads k ((List.range (r.p 2)).map fun i => (0x1000 * r.p 0 + r.p 1 + 4 * i, 3)) (c, 0);
      decide (c.cmdNow 0x0304 = some (0, r) ∧ x.1.2 = 0)),
    (let r : MbReq := { cmd := 0x0305, tag := 1, par := [] }; let s := st ((base).modMb 0 fun x => { x with running := some r }); let c := s.chip; let k := s.lock;
      let x := breads k ((List.range 8).map (fun k => (SNS + SNS_TEMP_TEMP.off + k, 1)) ++ (List.range 6).map fun k => (SNS + SNS_RAIL_MV.off + k, 1)) (c, 0);
      decide (c.cmdNow 0x0305 = some (0, r) ∧ x.1.2 = 0)),
    (let r : MbReq := { cmd := 0x0306, tag := 1, par := [] }; let s := st ((base).modMb 0 fun x => { x with running := some r }); let c := s.chip; let k := s.lock;
      let x := breads k [(GLB + GLB_ALERT_SRC.off, 2), (GLB + GLB_NME_NME_CLK.off, 1)] (c, 0);
      decide (c.cmdNow 0x0306 = some (0, r) ∧ x.1.2 = 0)),
    (let r : MbReq := { cmd := 0x0307, tag := 1, par := [7, 1] }; let s := st ((base).modMb 0 fun x => { x with running := some r }); let c := s.chip;
      let j : Fin 8 := Fin.ofNat 8 (r.p 0); let b := jobB j;
      decide (c.cmdNow 0x0307 = some (0, r))),
    (let r : MbReq := { cmd := 0x0308, tag := 1, par := [] }; let s := st ((base).modMb 0 fun x => { x with running := some r }); let c := s.chip; let k := s.lock;
      let x := breads k [(QUIRE + QUIRE_STAT_BANKS.off, 1), (QUIRE + QUIRE_BANK_OK_OK.off, 2), (QUIRE + QUIRE_ECC_ADDR_ADDR.off, 2),
          (QUIRE + QUIRE_ECC_KIND_STORE.off, 1), (QUIRE + 0x60, 1)] (c, 0);
      decide (c.cmdNow 0x0308 = some (0, r) ∧ x.1.2 = 0)),
    (let r : MbReq := { cmd := 0x0309, tag := 1, par := [] }; let s := st ((base).modMb 0 fun x => { x with running := some r }); let c := s.chip; let k := s.lock;
      let x := breads k [(GLB + GLB_ID_PART.off, 1), (GLB + GLB_STEP_STEP.off, 1), (GLB + GLB_ROM_MINOR.off, 1), (GLB + GLB_SERIAL_SERIAL.off, 3),
          (GLB + GLB_STRAP_POS.off, 1)] (c, 0)
       let n := x.2.getD 3 0;
      decide (c.cmdNow 0x0309 = some (0, r) ∧ x.1.2 = 0)),
    decide (base.binderOn = true ∧ base.mbRunning = none),
    (let r : MbReq := { cmd := 0x0105, par := [7, 1] }; let c := ((link 7 [(LINK_STAT_LINK_UP, 1)]).put (jobB 7) MBX_JOB_STAT_STATE 1).modJob 7 fun x => { x with req := r };
      c.binderOn && c.jobState 7 == 1 && (c.jobResult {} c.binder.jobs[7].req c.binder.jobs[7].keep false false).isSome)] = true := by
  decide +kernel

/-- Witnesses for CalibrationCommandsComplete: the command that runs in MB0 finds its accesses served. -/
theorem witness_CalibrationCommands : allOf [
    (let r : MbReq := { cmd := 0x0401, tag := 1, par := [7] }; let s := st ((link 1 []).modMb 0 fun x => { x with running := some r }); let c := s.chip; let k := s.lock;
      let x := (bread k (lpB (portNo (r.p 0)) + PMA_STAT_SIGNAL_DET.off) 1 (c, 0)).1; let y := x.1.calStart (r.p 0);
      decide (c.cmdNow 0x0401 = some (0, r) ∧ x.2 = 0 ∧ y.2 = 0)),
    (let r : MbReq := { cmd := 0x0402, tag := 1, par := [15] }; let s := st ((lane l15 base [(XN_CTL_ENABLE, 1)]).modMb 0 fun x => { x with running := some r }); let c := s.chip; let k := s.lock;
      let x := (bread k (laneB (laneNum (r.p 0)) + XN_STAT_UP.off) 1 (c, 0)).1; let y := x.1.calStart (8 + r.p 0);
      decide (c.cmdNow 0x0402 = some (0, r) ∧ x.2 = 0 ∧ y.2 = 0)),
    (let r : MbReq := { cmd := 0x0403, tag := 1, par := [0xFFFF, 24] }; let s := st ((base).modMb 0 fun x => { x with running := some r }); let c := s.chip; let k := s.lock;
      let w := fun (f : Fld) (v : Nat) => bwr k (CAL + f.off) 0xFFFF (BitVec.ofNat 16 v)
       let x := w CAL_SCHED_INT_VALUE (r.p 1) (w CAL_SCHED_LANE_VALUE (r.p 0 / 256) (w CAL_SCHED_PORT_VALUE (r.p 0 % 256) (c, 0)));
      decide (c.cmdNow 0x0403 = some (0, r) ∧ x.2 = 0)),
    (let r : MbReq := { cmd := 0x0404, tag := 1, par := [1, 0x60, 0, 30] }; let s := st ((base.modCal fun x => { x with mtp := slotPut x.mtp (base.mtpPlace 0x60) {} }).modMb 0 fun x => { x with running := some r }); let c := s.chip;
      let v : NvmSlot := {};
      decide (c.cmdNow 0x0404 = some (0, r) ∧ c.nvmSlot (r.p 0) (r.p 1) = some v ∧ c.cal.use.find? (fun x => x.1 == r.p 1) = none)),
    (let r : MbReq := { cmd := 0x0405, tag := 1, par := [23] }; let s := st ((base).modMb 0 fun x => { x with running := some r }); let c := s.chip;
      decide (c.cmdNow 0x0405 = some (0, r))),
    (let r : MbReq := { cmd := 0x0406, tag := 1, par := [31] }; let s := st ((base).modMb 0 fun x => { x with running := some r }); let c := s.chip; let k := s.lock;
      let x := withSel AGE AGE_SEL_TARGET (r.p 0) (breads k [(AGE + AGE_YTL_VALUE.off, 1), (AGE + AGE_TREND_VALUE.off, 1)]) (c, 0);
      decide (c.cmdNow 0x0406 = some (0, r) ∧ x.1.2 = 0)),
    (let r : MbReq := { cmd := 0x0407, tag := 1, par := [0] }; let s := st ((base.modAge fun x => { x with ledger := [{}] }).modMb 0 fun x => { x with running := some r }); let c := s.chip;
      let e : AgeEntry := {};
      decide (c.cmdNow 0x0407 = some (0, r) ∧ c.age.ledger[r.p 0]? = some e)),
    (let r : MbReq := { cmd := 0x0408, tag := 1, par := [4, 3] }; let s := st ((base).modMb 0 fun x => { x with running := some r }); let c := s.chip; let k := s.lock;
      let x := bwr k (AGE + AGE_POLICY_VGUARD.off) 0x3FFF (BitVec.ofNat 16 (r.p 0 % 16 + 16 * r.p 1)) (c, 0);
      decide (c.cmdNow 0x0408 = some (0, r) ∧ x.2 = 0)),
    (let r : MbReq := { cmd := 0x0409, tag := 1, par := [5, 0] }; let s := st ((proposed).modMb 0 fun x => { x with running := some r }); let c := s.chip;
      let a : AgeProp := { word := 5, dueAt := 9 };
      decide (c.cmdNow 0x0409 = some (0, r) ∧ c.age.props[(0 : Fin 4)] = some a ∧ a.word = r.p 0)),
    (let r : MbReq := { cmd := 0x040A, tag := 1, par := [] }; let s := st ((base).modMb 0 fun x => { x with running := some r }); let c := s.chip;
      decide (c.cmdNow 0x040A = some (0, r)))] = true := by
  decide +kernel

/-- Witnesses for PowerCommandsComplete: the command that runs in MB0 finds its accesses served. -/
theorem witness_PowerCommands : allOf [
    (let r : MbReq := { cmd := 0x0501, tag := 1, par := [3, 10] }; let s := st ((base).modMb 0 fun x => { x with running := some r }); let c := s.chip;
      decide (c.cmdNow 0x0501 = some (0, r))),
    (let r : MbReq := { cmd := 0x0502, tag := 1, par := [0xF] }; let s := st ((base).modMb 0 fun x => { x with running := some r }); let c := s.chip; let k := s.lock;
      let x := bput k PWR PWR_KEEP_KEEP (r.p 0) (c, 0);
      decide (c.cmdNow 0x0502 = some (0, r) ∧ x.2 = 0)),
    (let r : MbReq := { cmd := 0x0503, tag := 1, par := [2] }; let s := st ((base).modMb 0 fun x => { x with running := some r }); let c := s.chip; let k := s.lock;
      let pgood := true; let x := bput k CLK CLK_LEVEL_TARGET (r.p 0) (c, 0); let d := x.1.levelEnds pgood;
      decide (c.cmdNow 0x0503 = some (0, r) ∧ x.2 = 0)),
    (let r : MbReq := { cmd := 0x0504, tag := 1, par := [] }; let s := st ((base).modMb 0 fun x => { x with running := some r }); let c := s.chip; let k := s.lock;
      let x := breads k [(PWR + PWR_STAT_STATE.off, 1), (CLK + CLK_LEVEL_ACTUAL.off, 1), (PWR + PWR_KEEP_LOST_LOST.off, 1), (PWR + PWR_WAKE_CAUSE_SRC.off, 1),
          (PWR + PWR_WAKE_STEP_REG.off, 1)] (c, 0)
       let level := x.2.getD 1 0 / 2 ^ CLK_LEVEL_ACTUAL.lo % 2 ^ CLK_LEVEL_ACTUAL.w;
      decide (c.cmdNow 0x0504 = some (0, r) ∧ x.1.2 = 0)),
    (let r : MbReq := { cmd := 0x0505, tag := 1, par := [100, 200, 0xFF] }; let s := st ((base).modMb 0 fun x => { x with running := some r }); let c := s.chip; let k := s.lock;
      let x := bput k PWR PWR_WATCH_PAIRS_LISTEN (r.p 2) (bput k PWR PWR_WATCH_WIN_WINDOW (r.p 1) (bput k PWR PWR_WATCH_PERIOD (r.p 0) (c, 0)));
      decide (c.cmdNow 0x0505 = some (0, r) ∧ x.2 = 0)),
    (let r : MbReq := { cmd := 0x0506, tag := 1, par := [0xFF] }; let s := st ((base).modMb 0 fun x => { x with running := some r }); let c := s.chip; let k := s.lock;
      let x := bwr k (PWR + PWR_WAKE_SRC_PIP.off) 0xFF (BitVec.ofNat 16 (r.p 0)) (c, 0);
      decide (c.cmdNow 0x0506 = some (0, r) ∧ x.2 = 0)),
    (let r : MbReq := { cmd := 0x0507, tag := 1, par := [1] }; let s := st ((base).modMb 0 fun x => { x with running := some r }); let c := s.chip; let k := s.lock;
      let x := bput k PWR PWR_PARTNER_SLEEP_EN_EN (r.p 0) (c, 0);
      decide (c.cmdNow 0x0507 = some (0, r) ∧ x.2 = 0)),
    (let r : MbReq := { cmd := 0x0508, tag := 1, par := [13, 0, 0xFFFF] }; let s := st ((base).modMb 0 fun x => { x with running := some r }); let c := s.chip; let k := s.lock;
      let x := inSel PWR PWR_THR_SEL_SEL (r.p 0) (fun x => bput k PWR PWR_THR_HI_HIGH (r.p 2 % 2 ^ 16) (bput k PWR PWR_THR_LO_LOW (r.p 1 % 2 ^ 16) x)) (c.postFor PWR, 0);
      decide (c.cmdNow 0x0508 = some (0, r) ∧ x.2 = 0))] = true := by
  decide +kernel

/-- Witnesses for TestCommandsComplete: the command that runs in MB0 finds its accesses served. -/
theorem witness_TestCommands : allOf [
    (let r : MbReq := { cmd := 0x0601, tag := 1, par := [43, 1] }; let s := st ((base).modMb 0 fun x => { x with running := some r }); let c := s.chip;
      let x := c.bistAsk (r.p 0) (r.p 1 % 2 == 1);
      decide (c.cmdNow 0x0601 = some (0, r) ∧ x.2 = 0)),
    (let r : MbReq := { cmd := 0x0602, tag := 1, par := [43] }; let s := st ((base).modMb 0 fun x => { x with running := some r }); let c := s.chip; let k := s.lock;
      let x := withSel BIST BIST_CTL_TARGET (r.p 0) (breads k [(BIST + BIST_RES_RESULT.off, 1), (BIST + BIST_ADDR_VALUE.off, 2), (BIST + BIST_BIT_VALUE.off, 1)]) (c, 0)
       let v := x.2.getD 0 0;
      decide (c.cmdNow 0x0602 = some (0, r) ∧ x.1.2 = 0)),
    (let r : MbReq := { cmd := 0x0603, tag := 1, par := [31] }; let s := st ((base).modMb 0 fun x => { x with running := some r }); let c := s.chip;
      decide (c.cmdNow 0x0603 = some (0, r))),
    (let r : MbReq := { cmd := 0x0604, tag := 1, par := [15, 0, 1] }; let s := st ((base).modMb 0 fun x => { x with running := some r }); let c := s.chip; let k := s.lock;
      let b := laneB (laneNum (r.p 0)); let x := breads k [(b + XN_PAT_BITS_COUNT.off, 3), (b + XN_PAT_ERR_COUNT.off, 3)] (c, 0)
       let y := bwr k (b + XN_PAT_CTL_GEN_EN.off) 0x3FF (BitVec.ofNat 16 (3 + 4 * r.p 1 + 64 * r.p 1)) x.1;
      decide (c.cmdNow 0x0604 = some (0, r) ∧ y.2 = 0)),
    (let r : MbReq := { cmd := 0x0605, tag := 1, par := [25, 1, 0, 1, 1] }; let s := st ((base).modMb 0 fun x => { x with running := some r }); let c := s.chip; let k := s.lock;
      let x := inSel ROLL ROLL_SEL_ENGINE (r.p 0) (fun x =>
          bwide k (ROLL + ROLL_SEED_LO_VALUE.off) 2 (r.p 4) (bwide k (ROLL + ROLL_N_LO_VALUE.off) 2 (r.p 3)
            (bwr k (ROLL + ROLL_CTL_OP.off) (ROLL_CTL_OP.mask ||| ROLL_CTL_MODE.mask) (BitVec.ofNat 16 (2 * r.p 1 + 32 * r.p 2)) x))) (c, 0);
      decide (c.cmdNow 0x0605 = some (0, r) ∧ x.2 = 0)),
    (let r : MbReq := { cmd := 0x0606, tag := 1, par := [255] }; let s := st ((base).modMb 0 fun x => { x with running := some r }); let c := s.chip; let k := s.lock;
      let x := if r.p 0 = 255 then bput k ROLL ROLL_CMD_STOP_ALL 1 (c, 0) else inSel ROLL ROLL_SEL_ENGINE (r.p 0) (bput k ROLL ROLL_CTL_EN 0) (c, 0);
      decide (c.cmdNow 0x0606 = some (0, r) ∧ x.2 = 0)),
    (let r : MbReq := { cmd := 0x0607, tag := 1, par := [0xFFFFFFFF] }; let s := st ((base).modMb 0 fun x => { x with running := some r }); let c := s.chip;
      decide (c.cmdNow 0x0607 = some (0, r))),
    (let r : MbReq := { cmd := 0x0608, tag := 1, par := [23, 1] }; let s := st ((base).modMb 0 fun x => { x with running := some r }); let c := s.chip; let k := s.lock;
      let x := if r.p 0 < 8 then bput k (lpB (portNo (r.p 0))) PMA_CTL_LPBK (r.p 1) (c, 0)
          else bput k (laneB (laneNum (r.p 0 - 8))) XN_CTL_LPBK (r.p 1) (c, 0);
      decide (c.cmdNow 0x0608 = some (0, r) ∧ x.2 = 0))] = true := by
  decide +kernel

/-- Witnesses for StackCommandsComplete: the command that runs in MB0 finds its accesses served. -/
theorem witness_StackCommands : allOf [
    (let r : MbReq := { cmd := 0x0701, tag := 1, par := [3, 0x03090000] }; let s := st ((base).modMb 0 fun x => { x with running := some r }); let c := s.chip;
      decide (c.cmdNow 0x0701 = some (0, r))),
    (let r : MbReq := { cmd := 0x0702, tag := 1, par := [] }; let s := st ((base).modMb 0 fun x => { x with running := some r }); let c := s.chip; let k := s.lock;
      let x := breads k [(SPINE + SPINE_STAT_POS.off, 1), (faceB .n + SPF_STAT_STATE.off, 1), (faceB .s + SPF_STAT_STATE.off, 1),
          (faceB .n + SPF_DLY_D.off, 2), (faceB .s + SPF_DLY_D.off, 2), (SPINE + SPINE_TAIL_ALERT_ALERT.off, 1)] (c, 0);
      decide (c.cmdNow 0x0702 = some (0, r) ∧ x.1.2 = 0)),
    (let r : MbReq := { cmd := 0x0703, tag := 1, par := [1, 3] }; let s := st ((base).modMb 0 fun x => { x with running := some r }); let c := s.chip; let k := s.lock;
      let x := bwr k (SPINE + SPINE_CMD_STACK_RST.off) 0x1F (BitVec.ofNat 16 (1 + 2 * (r.p 0 % 4) + 8 * (r.p 1 % 4))) (c, 0);
      decide (c.cmdNow 0x0703 = some (0, r) ∧ x.2 = 0)),
    (let r : MbReq := { cmd := 0x0704, tag := 1, par := [1] }; let s := st ((base).modMb 0 fun x => { x with running := some r }); let c := s.chip; let k := s.lock;
      let x := bput k SPINE SPINE_CTL_STACK_PROMOTE (r.p 0) (c, 0);
      decide (c.cmdNow 0x0704 = some (0, r) ∧ x.2 = 0)),
    (let r : MbReq := { cmd := 0x0705, tag := 1, par := [] }; let s := st ((base.put SPINE SPINE_STAT_ROLE 2).modMb 0 fun x => { x with running := some r }); let c := s.chip; let k := s.lock;
      let x := bput k SPINE SPINE_CMD_DEMOTE 1 (c, 0);
      decide (c.cmdNow 0x0705 = some (0, r) ∧ c.role = 2 ∧ x.2 = 0)),
    (let r : MbReq := { cmd := 0x0706, tag := 1, par := [1, 100, 200, 10] }; let s := st ((base).modMb 0 fun x => { x with running := some r }); let c := s.chip; let k := s.lock;
      let w := fun (f : Fld) (v : Nat) => bput k QUIRE f v
       let x := bwr k (QUIRE + QUIRE_SPILL_CTL_EN.off) 3 (BitVec.ofNat 16 (r.p 0 % 4))
          (w QUIRE_SPILL_LEND_VALUE (r.p 3) (w QUIRE_SPILL_OFF_VALUE (r.p 2) (w QUIRE_SPILL_ON_VALUE (r.p 1) (c, 0))));
      decide (c.cmdNow 0x0706 = some (0, r) ∧ x.2 = 0)),
    (let r : MbReq := { cmd := 0x0707, tag := 1, par := [0x03090000] }; let s := st ((base).modMb 0 fun x => { x with running := some r }); let m : Fin 4 := 0; let c := s.chip; let k := s.lock;
      let w := r.p 0; let par := remotePar w (r.par.drop 1)
       let d := (c.jobStart k.bits m r [-1, -1, -1, -1]).each [Face.n, Face.s] fun c f =>
          if c.faceMay f then c.spSend f 2 15 (mb2Request (w / 2 ^ 16) (w % 256) par) else c
       let e := d.modBinder fun x => { x with own := x.own ++ [{ cmd := w / 2 ^ 16, tag := w % 256, par := par, src := d.pos }] };
      decide (c.cmdNow 0x0707 = some (0, r)))] = true := by
  decide +kernel

/-- A command's next state meets a condition. -/
def goes (i : Instr) (s : State) (P : State → Bool) : Bool := match exec i s with | .next t => P t | _ => false
/-- A register of the map meets a condition. -/
def atReg (a : Nat) (P : RegDef → Bool) : Bool := match mapped a with | some r => P r | none => false
/-- The observe window with a group enabled. -/
def observing (f : Fld) (c : Chip) : Chip := c.put REGB f 1

/-- Witnesses for the hypotheses of ZeroMaskWriteChangesNothing and the three statements of the observe window, in their order. -/
theorem witness_Fabric : allOf [
    base.serves .binder, base.serves .spi0, base.serves .spi1,
    (mapped 0x7FFFF).isNone, atReg CLK fun r => !(base.observed CLK r),
    let c := observing REG_OBSERVE_EN_STATUS base; c.gate (REGB + 0x40) == 0,
    let c := observing REG_OBSERVE_EN_TIME base; c.gate 0xB010 == 0 && atReg 0xB010 fun r => c.observed 0xB010 r && r.wide == 6 && r.place 0xB010 == 0,
    let c := (observing REG_OBSERVE_EN_TIME base).modIfc .spi1 fun y => { y with latch := { base := 0xB010, words := [1, 2, 3, 4, 5, 6] } };
      atReg 0xB015 fun r => c.observed 0xB015 r && r.place 0xB015 == 5 && decide ((c.fab.ifcs[ifcNum .spi1]).latch.base = 0xB015 - r.place 0xB015),
    let c := observing REG_OBSERVE_EN_STATUS base; let a := lpB p7 + LINK_STAT_STATE.off; c.gate a == 0 && atReg a fun r => c.observed a r && r.wide == 0] = true := by
  decide +kernel

/-- Witnesses for RefusedAccessesEnterTheErrorLog and LockFieldTakesOneWrite. -/
theorem witness_Refusals : allOf [
    base.serves .mdio && !(base.on REGB REG_ERRLOG_CAUSE_VALID), (base.put REGB REG_ERRLOG_CAUSE_VALID 1).on REGB REG_ERRLOG_CAUSE_VALID,
    (mapped 0x7FFFF).isNone, let c := base.setReg CLK 0; (mapped (lpB p7)).isSome && c.gate (lpB p7) == 1,
    let c := base.put PWR PWR_ISLANDS_ON 0xF7; (mapped (lpB p7)).isSome && c.gate (lpB p7) == 2,
    goes (.registerWrite .mdio 0x7FFFF 1 1 0) (st base) fun t => t.chip.get REGB REG_ERRLOG_CAUSE_CAUSE == 5 && t.chip.wide (REGB + REG_ERRLOG_ADDR_ADDR.off) 2 == 0x7FFFF,
    let l : LockSt := { bits := 0x41, written := 0x43 }; (l.bits &&& ~~~l.written == 0) && (l.written &&& ~~~0x7F#16 == 0),
    let l : LockSt := { bits := 0x40, written := 0x43 }; (0x3C &&& l.written == 0#16) && (0x44 &&& l.written != 0#16) && l.write 0x44 0x44 == { bits := 0x44, written := 0x47 }] = true := by
  decide +kernel

/-- Witnesses for RateIsClipped, CaptureQueueHoldsEight and ReflectometryStartsOnlyOnAnIdlePort. -/
theorem witness_TimeAndCable : allOf [
    base.serves .twm && base.gate FOLIO == 0,
    let c := base.modFolio fun x => { x with rateAt := some base.tpll };
      decide (c.frozen = false ∧ c.folio.rateAt = some c.tpll) && goes (.rateWrite .twm 5) (st c) fun t => t.chip.rate == 0,
    decide (base.frozen = true ∨ base.folio.rateAt ≠ some base.tpll), goes (.rateWrite .twm 36028797018965) (st base) fun t => t.chip.rate == 36028797018964 && t.chip.on FOLIO FOLIO_EVT_RATE_LIMIT,
    goes (.rateWrite .twm 36028797018964) (st base) fun t => t.chip.rate == 36028797018964 && !(t.chip.on FOLIO FOLIO_EVT_RATE_LIMIT),
    let c := base.put FOLIO FOLIO_CAP_CTL_EDGE 0xC0; decide (c.folioClk = true ∧ c.get FOLIO FOLIO_CAP_CTL_EDGE / 4 ^ 3 % 4 % 2 = 1 ∧ c.get FOLIO FOLIO_CTL_SRC ≠ 3 ∧ (c.folio.caps[(3 : Fin 4)].queue).length < 8),
    let c := (base.put FOLIO FOLIO_CAP_CTL_EDGE 0xC0).modFolio fun x => { x with caps := x.caps.set 3 { x.caps[3] with queue := List.replicate 8 (1, true) } };
      decide (c.folioClk = true ∧ c.get FOLIO FOLIO_CAP_CTL_EDGE / 4 ^ 3 % 4 / 2 = 1 ∧ c.get FOLIO FOLIO_CTL_SRC ≠ 3 ∧ 8 ≤ (c.folio.caps[(3 : Fin 4)].queue).length) &&
        goes (.captureEdge 3 false 9) (st c) fun t => t.chip.on (bk 3 FOLIO) FOLIO_CAP_STAT_OVF,
    let s := st (link 8 []); decide (s.admits1 .spi0 (lpB p7) DIAG_CTL_TDR_START) && goes (.tdrStart .spi0 p7) s fun t => t.chip.on (lpB p7) DIAG_STAT_BUSY,
    let s := st (link 7 []); decide (s.admits1 .spi0 (lpB p7) DIAG_CTL_TDR_START) && goes (.tdrStart .spi0 p7) s fun t => t.chip.get (lpB p7) DIAG_STAT_RESULT == 4] = true := by
  decide +kernel

/-- Witnesses for FailedLevelChangeKeepsTheHigherVoltage, WakeCauseIsTheLowestFirstSource, CompletionShowsTheResult,
CountersWrapWithTheirBit and RollEnginesHoldAtMostFourFrames. -/
theorem witness_Rules : allOf [
    let c := (base.put CLK CLK_LEVEL_ACTUAL 1).modClk fun x => { x with levelTo := some 2 };
      decide (c.clk.levelTo = some 2) && goes .pgoodTimeout (st c) fun t => t.chip.clk.vsel == 2 && t.chip.get CLK CLK_LEVEL_ACTUAL == 1,
    let c := (puts base [(PWR, PWR_WAKE_SRC_THR, 1), (PWR, PWR_WAKE_SRC_SPINE, 1)]).modPwr fun x => { x with mode := 3 };
      decide ((c.pwr.mode = 2 ∨ c.pwr.mode = 3) ∧ c.pwr.rstLow = false ∧ c.pwr.wake = none ∧
        ([(8, 0), (7, 15)] : List (Fin 11 × Fin 16)).filter (fun x => c.wakeEnabled x.1.val && wakeIn x.1.val c.pwr.mode) ≠ []),
    let c := (base.put PWR PWR_WAKE_SRC_SPINE 1).modPwr fun x => { x with mode := 2, wake := some 5 };
      decide ((c.pwr.mode = 2 ∨ c.pwr.mode = 3) ∧ c.pwr.rstLow = false ∧ c.pwr.wake ≠ none ∧
        ([(8, 0)] : List (Fin 11 × Fin 16)).filter (fun x => c.wakeEnabled x.1.val && wakeIn x.1.val c.pwr.mode) ≠ []),
    decide ((3 : Fin 4) ≠ 2 ∧ 15 < 16 ∧ (List.replicate 32 0xFFFFFFFF).length ≤ 32 ∧ ∀ v ∈ List.replicate 32 0xFFFFFFFF, v < 2 ^ 32),
    decide (0xC200 + 4 * 27 + 3 ≤ 0xC200 + 0x70 ∧ base.wide (0xC200 + 4 * 27) 3 < 2 ^ 48),
    decide ((0x17C00, 0x17DF0) ∈ (List.range 8).map (fun p => (0x10C00 + 0x1000 * p, 0x10DF0 + 0x1000 * p)) ∧ 0x17C00 + 4 * 123 + 3 ≤ 0x17DF0),
    goes (.rollEngineEvent 25 (.symbol true)) (st base) fun _ => decide ((base.bist.engines[(25 : Fin 26)]).held.length ≤ 4)] = true := by
  decide +kernel

/-- Witnesses for HostModeWaitsForDisabledLanes. -/
theorem witness_HostMode : allOf [
    let s := st (lane l15 base [(XN_CTL_ENABLE, 1)]); let a := HGRP + HGRP_MODE_MODE.off;
      decide (s.admits .spi0 a HGRP_MODE_MODE.mask ∧ 4 ≠ s.chip.hostMode ∧ s.chip.lanesOff = false),
    let s := st base; let a := HGRP + HGRP_MODE_MODE.off; decide (s.admits .binder a HGRP_MODE_MODE.mask ∧ 1 ≠ s.chip.hostMode ∧ s.chip.lanesOff = true)] = true := by
  decide +kernel

/-- Witnesses for LocalCommandsKeepTheRest and the statements about all commands. -/
theorem witness_Machine : allOf [
    goes (.tapInstructionUpdate 0) (st base) fun _ => true, goes .tapReset (st base) fun _ => true,
    goes (.rollHoldRelease 0) (st base) fun _ => true, goes (.pmcOverflow 1 7 0xFFFFFFFF) (st base) fun _ => true,
    goes .switchForced (st base) fun _ => true, goes .pgoodLow (st base) fun _ => true, goes .refUpdate (st base) fun _ => true,
    goes (.loopLock 5) (st base) fun _ => true,
    decide (({ chip := base, lock := {}, pending := [.tapReset, .supplyFail] } : State).pending = .tapReset :: [.supplyFail]),
    decide (State.reset.pending = []),
    goes .tapReset (st base) fun _ => !mayLock .tapReset,
    let s : State := { chip := base, lock := { bits := 0x40, written := 0x41 }, pending := [] };
      goes (.regLockWrite .spi0 0x7F 0) s fun t => t.lock == { bits := 0x40, written := 0x7F },
    let s : State := { chip := base, lock := { bits := 0x40, written := 0x41 }, pending := [.regLockWrite .spi0 2 2] };
      match step s with | .next t => t.lock == { bits := 0x42, written := 0x43 } && t.pending == [] | _ => false,
    let c := (base.put PWR PWR_WATCH_PAIRS_LISTEN 0x80).modPwr fun x => { x with mode := 3, rdy := false };
      decide (c.on TAP TAP_STAT_CORE_OFF = false ∧ c.pwr.mode = 3 ∧ c.pwr.rstLow = false ∧ c.ball (.line 7 true) = .windows ∧ c.ball (.line 0 true) = .quiet),
    let c := (base.put PWR PWR_WATCH_PAIRS_LISTEN 0x80).modPwr fun x => { x with mode := 1 };
      decide (c.on TAP TAP_STAT_CORE_OFF = false ∧ c.pwr.mode = 1 ∧ c.pwr.rstLow = false ∧ c.islandOn 2 = true ∧ c.islandOn 5 = true ∧ c.ball (.line 7 false) = .listens),
    decide (base.on TAP TAP_STAT_CORE_OFF = false ∧ base.pwr.mode = 0 ∧ base.islandOn 7 = true),
    let c := base.modPwr fun x => { x with mode := 4 }; decide (c.on TAP TAP_STAT_CORE_OFF = false ∧ c.pwr.mode = 4)] = true := by
  decide +kernel

/-- Each well-formedness check refuses an ill-formed command. -/
theorem test_ill_formed_commands_refused : ([
    .helloRx p7 0 0 (be 8 0), .capRx p7 0 0 0 (be 13 0), .offerRx p7 0 0 0 [], .pipAckRx p7 0 0 (be 4 0) 0, .pipPauseRx p7 0 0 0 (be 3 0),
    .beaconRx p7 0 0 (be 10 0) 0, .beaconRx p7 0 0 (be 11 0) 52429, .diagReqRx p7 0 0 0 [], .diagReqRx p7 0 0 0 (be 63 0), .diagRptRx p7 0 0 (be 1 0),
    .loadReportRx p7 (be 41 0), .loadDecisionRx p7 (be 9 0), .loadingTableRx p7 [], .sensorUpdate [] [], .watchPeriod (List.replicate 8 0) (List.replicate 5 0),
    .forwardMarkRx (be 31 0) 0 0, .echoMarkRx (be 32 0) 52429, .codewordRx p7 [1] true, .pipBadFrameRx p7 (.typ 10 0 0), .spineLaneFail .n 0 [1],
    .spiFrame 2 0 [] 0 1 false [{ ifc := .spi0, addr := 0, wr := none }], .spiObserveFrame 2 0 [] 0 1 false [{ ifc := .spi1, addr := 0, wr := none }],
    .twmWrite 0 [] [{ ifc := .twm, addr := 0, wr := none }], .twmRead 0 none 1 [{ ifc := .twm, addr := 0, wr := none }],
    .ageingHourlyStep [], .sleepDelayExpiry [(0, 0)], .wakeStart [], .wakeStart [(0, 0)], .lineRxFrame p7 [] 52429 0, .hostRxFrame 7 [] 52429 {},
    .captureEdge 0 true 52429, .syncRx 0 [] 52429, .pdelayMsgRx 0 [] 52429, .followUpRx 0 [] 52429, .markerTurn p7 52429,
    .queueServe 0 52429 {} false, .pipAnswerTx p7 52429, .pipBackoffEnd p7 52429, .forwardMarkTx 52429, .echoMarkTx 52429] : List Instr).any Instr.wf = false := by
  decide +kernel
/-- Well-formed ones pass. -/
theorem test_well_formed_commands_pass : ([
    .helloRx p7 0 0 (be 9 0), .beaconRx p7 0 0 (be 11 0) 52428, .diagReqRx p7 0 0 0 (be 62 0), .wakeStart [(10, 0)], .timeTick 0, .supplyFail, .pipBadFrameRx p7 (.typ 11 0 0), .forwardMarkRx (be 32 0) 52428 0,
    .twmRead 0 none 1 [{ ifc := .spi0, addr := 0, wr := none }]] : List Instr).all Instr.wf = true := by
  decide +kernel

/-- The first worked example of chapter 10: one write word on SPI_CS0_N sets BW to 2, leaves the rest of FOLIO_SERVO_CTL alone and answers 0x50. -/
theorem test_spi_write_example : let c := base.setReg 0xB030 0x0011
    goes (.spiFrame 0x02 0xB030 [(0x000E, 0x0004)] 0 10000 false []) (st c) (fun t =>
      t.chip.reg 0xB030 == 0x0015 && (t.chip.fab.ifcs[ifcNum .spi0]).resp == [0x50]) = true := by
  decide +kernel
/-- The second: the time word 52,000 s + 700,000,001.5 ns in one burst of six words. -/
theorem test_spi_burst_example :
    let c := (base.put REGB REG_SPI_CTL_GAP 16).modFolio fun x => { x with time := ((52000 * 1000000000 + 700000001) * 65536 + 32768) * fracUnit }
    goes (.spiFrame 0x0B 0xB010 [] 6 10000 false []) (st c) (fun t => (t.chip.fab.ifcs[ifcNum .spi0]).resp ==
      [0x50, 0x80, 0x00, 0x50, 0x27, 0x01, 0x50, 0x29, 0xB9, 0x50, 0xCB, 0x20, 0x50, 0x00, 0x00, 0x50, 0x00, 0x00]) = true := by
  decide +kernel
/-- A write on the observe window is refused with ERR (R343). -/
theorem test_observe_write_refused : goes (.spiObserveFrame 0x02 0xB030 [(0x000E, 0x0004)] 0 10000 false []) (st base) (fun t =>
    t.chip.reg 0xB030 == base.reg 0xB030 && (t.chip.fab.ifcs[ifcNum .spi1]).resp == [0x51]) = true := by
  decide +kernel
/-- The worked example of chapter 16: RX_BYTES of LP5 across a wrap. -/
theorem test_counter_wrap_example : let c := base.putWide 0x15C04 3 0xFFFF80000000
    let d := c.bump 0x15C00 0x15DF0 1 5750000000
    d.wide 0x15C04 3 = 0x0000D6BA0980 ∧ (d.reg 0x15DF0).getLsbD 1 = true ∧ (c.reg 0x15DF0).getLsbD 1 = false := by
  decide +kernel
/-- The worked example of chapter 14: 44 Gbit/s toward the C9480 takes N = 121 and B = 9,111. -/
theorem test_reload_example : cwCount 88 = 121 ∧ symBits 121 = 9111 := by decide +kernel
/-- The same example's projection, from four entries on its line: −0.30 dB per 1,000 h, 2,400 powered hours a year, 6.0 dB at 23,760 h, MIN 3.0 dB. -/
theorem test_projection_example :
    let e := fun (k : Nat) (m : Nat) => ({ words := [0, 16260 + 2500 * k, 0, 1000000 + 2500 * 31557600 / 2400 * k, 0, 0, 0, 0, 0, 0, m * 256] } : AgeEntry);
    let c := (link 6 []).modAge fun x => { x with ledger := [e 3 24, e 2 27, e 1 30, e 0 33] };
    ((c.put (lpB 5) LINK_STAT_STATE 6).put (lpB 5) OCT_MARGIN_MIN 30).marginFit 5 = (42, -30) := by
  decide +kernel
/-- The worked example of chapter 15: two passes of a Quire bank make 0x0028_0000 comparisons; word 0x5A3C lies in row 180. -/
theorem test_bank_retest_example : 2 * 10 * bistWords 9 = 0x280000 := by decide +kernel
/-- The package has 162 signal balls, 252 named supply and reserved balls and 486 VSS balls (chapter 17); LP7 ends at A25 and B25. -/
theorem test_ball_counts :
    let l := (List.range 900).map fun k => ballAt (k / 30 + 1) (k % 30 + 1)
    (l.countP fun b => !supplyBall b) = 162 ∧ l.countP (· == .vss) = 486 ∧ l.countP (· == .vddSd) = 60 ∧ l.countP (· == .vddCore) = 90 ∧
      ballAt 1 25 = .line 7 false ∧ ballAt 2 25 = .line 7 true ∧ ballAt 25 18 = .low .rdy := by
  decide +kernel
/-- A lane at 53.125 Gbit/s counts what its FEC reports (chapter 16). -/
theorem test_lane_fec_counters : let c := (lane 7 base [(XN_CTL_ENABLE, 1)]).laneDecoded 7 { cw := 3, sym := 5, unc := 1, blk := 2 }
    (List.range 4).map (fun k => c.wide (laneB 7 + 0x200 + 4 * (6 + k)) 3) = [3, 5, 1, 2] := by
  decide +kernel
/-- A frame that lies in cells 0 and 1 of its queue has a cell in the bank of either, the one behind it only in the second's. -/
theorem test_frames_of_a_bank :
    let f : QFrame := { bytes := List.replicate 300 0 }
    framesIn 4 [4, 9] 0 0 [f, { f with bytes := List.replicate 64 0 }] = [0] ∧ framesIn 9 [4, 9] 0 0 [f, { f with bytes := List.replicate 64 0 }] = [0, 1] := by
  decide +kernel
/-- IDENTIFY returns 0xCA80, 0xA1 and ROM 0x0302 (chapter 11). -/
theorem test_identify : goes .identify (st (base.modMb 0 fun x => { x with running := some { cmd := 0x0309, tag := 7 } })) (fun (t : State) =>
    t.chip.wide (mbB 0 + 0x80) 2 == 0xCA80 && t.chip.wide (mbB 0 + 0x82) 2 == 0xA1 && t.chip.wide (mbB 0 + 0x84) 2 == 0x0302 &&
    t.chip.get (mbB 0) MBN_RTAG_RTAG == 7) = true := by
  decide +kernel
/-- The CRC-32 of "123456789" is 0xCBF43926, its published check value (R29). -/
theorem test_crc32_check : crc32 [0x31, 0x32, 0x33, 0x34, 0x35, 0x36, 0x37, 0x38, 0x39] = 0xCBF43926#32 := by decide +kernel
/-- The table gives no row any bits, so no word spells a command. -/
theorem test_no_word_spells_a_command : decodeTableWord 0 0 = none ∧ decodeTableWord 16 0xFFFF = none := by decide
/-- A command at the front of the queue runs, and the rest waits. -/
theorem test_front_command_runs : (match step { chip := base, lock := {}, pending := [.tapReset, .supplyFail] } with
    | .next t => t.pending == [.supplyFail] && t.chip.get TAP TAP_STAT_INSTR == 1 | _ => false) = true := by decide +kernel

end Sys2Proof.Tests
end

section
/-! What a write to REG_LOCK does to the register and to the part (00_scope.md R14, 10_register_fabric.md R356, R358, R361). -/

namespace Sys2Proof.Machine

/-- Bit k takes the data of a write to REG_LOCK: it is one of the seven fields, the mask covers it, and it has had no write. -/
def LockSt.takes (l : LockSt) (m : BitVec 16) (k : Nat) : Bool := decide (k < 7) && m.getLsbD k && !l.written.getLsbD k

/-- The mask of the seven fields. -/
theorem lockFields_getLsbD (k : Nat) : (0x7F#16).getLsbD k = decide (k < 7) := by
  have h16 : k < 7 → k < 16 := by omega
  have h : 0x7F#16 = (BitVec.allOnes 7).setWidth 16 := rfl
  rw [h, BitVec.getLsbD_setWidth, BitVec.getLsbD_allOnes]
  simpa using h16

/-- The bits that a write to REG_LOCK takes, as one mask. -/
theorem LockSt.takes_eq (l : LockSt) (m : BitVec 16) (k : Nat) : (m &&& 0x7F#16 &&& ~~~l.written).getLsbD k = l.takes m k := by
  have h16 : k < 7 → k < 16 := by omega
  simp only [BitVec.getLsbD_and, BitVec.getLsbD_not, lockFields_getLsbD, LockSt.takes]
  by_cases h : k < 7
  · simp [h, h16 h]
  · simp [h]

/-- A field that takes a write is locked after it. -/
theorem LockSt.write_written (l : LockSt) (m d : BitVec 16) (k : Nat) :
    (l.write m d).written.getLsbD k = (l.written.getLsbD k || l.takes m k) := by
  rw [← l.takes_eq, ← BitVec.getLsbD_or]
  rfl

/-- A field that takes a write takes its data. -/
theorem LockSt.write_bits (l : LockSt) (m d : BitVec 16) (k : Nat) :
    (l.write m d).bits.getLsbD k = (l.bits.getLsbD k || d.getLsbD k && l.takes m k) := by
  rw [← l.takes_eq, ← BitVec.getLsbD_and, ← BitVec.getLsbD_or]
  rfl

/-- In a sound REG_LOCK a field that has had no write holds 0. -/
theorem LockSt.sound.bit_of_unwritten {l : LockSt} (h : l.sound) {k : Nat} (hw : l.written.getLsbD k = false) :
    l.bits.getLsbD k = false := by
  by_cases hk : k < 16
  · have := congrArg (·.getLsbD k) h.1
    simpa only [BitVec.getLsbD_and, BitVec.getLsbD_not, hw, hk, decide_true, Bool.not_false, Bool.and_true,
      BitVec.ofNat_eq_ofNat, BitVec.getLsbD_zero] using this
  · exact BitVec.getLsbD_of_ge _ _ (by omega)

/-- A free field that the mask covers takes the data and locks. -/
theorem LockSt.sound.write_free {l : LockSt} (h : l.sound) (m d : BitVec 16) {k : Nat} (hk : k < 7) (hm : m.getLsbD k = true)
    (hw : l.written.getLsbD k = false) :
    (l.write m d).bits.getLsbD k = d.getLsbD k ∧ (l.write m d).written.getLsbD k = true := by
  have ht : l.takes m k = true := by simp [LockSt.takes, hk, hm, hw]
  simp [LockSt.write_bits, LockSt.write_written, ht, h.bit_of_unwritten hw]

/-- A bit outside the mask, a locked field and a bit above the seven fields keep their values. -/
theorem LockSt.write_kept (l : LockSt) (m d : BitVec 16) {k : Nat}
    (h : m.getLsbD k = false ∨ l.written.getLsbD k = true ∨ 7 ≤ k) :
    (l.write m d).bits.getLsbD k = l.bits.getLsbD k ∧ (l.write m d).written.getLsbD k = l.written.getLsbD k := by
  have ht : l.takes m k = false := by
    rcases h with hm | hw | hk
    · simp [LockSt.takes, hm]
    · simp [LockSt.takes, hw]
    · simp [LockSt.takes, hk]
  simp [LockSt.write_bits, LockSt.write_written, ht]

/-- The write is refused if and only if its mask covers a locked field. -/
theorem LockSt.refuses_iff (l : LockSt) (m : BitVec 16) : l.refuses m = true ↔ m &&& l.written ≠ 0 := by simp [LockSt.refuses]

/-- REG_LOCK is mapped. -/
theorem mapped_regLock : (mapped (REGB + REG_LOCK_OBSERVE.off)).isSome = true := by decide

/-- The block of REG_LOCK has no gate of its own. -/
theorem Chip.gate_regLock (c : Chip) : c.gate (REGB + REG_LOCK_OBSERVE.off) = 0 := rfl

/-- A write that reaches REG_LOCK: the free fields under the mask take it, and where the mask covers a locked field the access
is logged as LOCKED (cause 4) and answers IGN (bit 1 of the status byte). -/
theorem fabWrite_regLock {i : Ifc} {m : BitVec 16} (d : BitVec 16) (c : Chip) (l : LockSt) (hi : i ≠ .spi1) (hm : m ≠ 0) :
    fabWrite i (REGB + REG_LOCK_OBSERVE.off) m d (c, l) =
      if l.refuses m then (((c.countWr i).errLog i (REGB + REG_LOCK_OBSERVE.off) 4 true, l.write m d), 2)
      else ((c.countWr i, l.write m d), 0) := by
  obtain ⟨r, hr⟩ := Option.isSome_iff_exists.mp mapped_regLock
  simp only [fabWrite, hi, hm, hr, c.gate_regLock, Chip.countWr, if_false, if_true, ne_eq, not_true_eq_false]

/-- What REG_LOCK_WRITE does on an interface that is served, in terms of the write that it makes. -/
theorem execRegLockWrite_eq {s : State} {i : Ifc} (m d : BitVec 16) (hs : s.chip.serves i = true) :
    execRegLockWrite i m d s =
      let r := fabWrite i (REGB + REG_LOCK_OBSERVE.off) m d (s.chip, s.lock)
      .next { s.on (r.1.1.modIfc i fun y => { y with resp := be 1 (r.1.1.statusByte (REGB + REG_LOCK_OBSERVE.off) r.2) }) with
        lock := r.1.2 } := by
  simp [execRegLockWrite, accPut, accWrite, State.actL, writeRun, answer, hs]

/-- A write that covers no locked field is taken. -/
theorem execRegLockWrite_taken {s : State} {i : Ifc} {m : BitVec 16} (d : BitVec 16) (hs : s.chip.serves i = true)
    (hi : i ≠ .spi1) (hm : m ≠ 0) (h : m &&& s.lock.written = 0) :
    execRegLockWrite i m d s =
      .next { s.wrote i (REGB + REG_LOCK_OBSERVE.off) (s.chip.countWr i) with lock := s.lock.write m d } := by
  have hr : ¬ s.lock.refuses m = true := by rw [LockSt.refuses_iff]; exact not_not_intro h
  rw [execRegLockWrite_eq m d hs, fabWrite_regLock d _ _ hi hm, if_neg hr]

/-- A write that covers a locked field is logged as LOCKED and answers IGN. -/
theorem execRegLockWrite_refused {s : State} {i : Ifc} {m : BitVec 16} (d : BitVec 16) (hs : s.chip.serves i = true)
    (hi : i ≠ .spi1) (hm : m ≠ 0) (h : m &&& s.lock.written ≠ 0) :
    execRegLockWrite i m d s =
      let e := (s.chip.countWr i).errLog i (REGB + REG_LOCK_OBSERVE.off) 4 true
      .next { s.on (e.modIfc i fun y => { y with resp := be 1 (e.statusByte (REGB + REG_LOCK_OBSERVE.off) 2) }) with
        lock := s.lock.write m d } := by
  rw [execRegLockWrite_eq m d hs, fabWrite_regLock d _ _ hi hm, if_pos ((LockSt.refuses_iff _ _).mpr h)]

/-- The command REG_LOCK_WRITE. -/
theorem exec_regLockWrite (i : Ifc) (m d : BitVec 16) (s : State) : exec (.regLockWrite i m d) s = execRegLockWrite i m d s := rfl

/-- Settles O34: a write is refused or taken by whether its mask covers a locked field (R14, R361), each bit of REG_LOCK
follows `LockSt.takes` (R356), and POWER_ON_RESET puts the register back (R14). -/
theorem lockFieldTakesOneWrite : Obligations.LockFieldTakesOneWrite := by
  intro s i m d hs hi hm hl
  refine ⟨fun h => ?_, fun h => ?_, fun k hk hmk hw => ?_, fun k _ hk => ?_, fun straps bad fails second stores => ?_⟩
  · rw [exec_regLockWrite, execRegLockWrite_taken d hs hi hm h]
  · rw [exec_regLockWrite, execRegLockWrite_refused d hs hi hm h]
  · exact hl.write_free m d hk hmk hw
  · exact s.lock.write_kept m d hk
  · exact ⟨_, rfl, rfl, rfl⟩

end Sys2Proof.Machine
end

section
/-! Accesses that change no more than their own interface: a write with mask 0x0000 and what SPI_CS1_N reads and refuses
(10_register_fabric.md R336, R341, R343, R344, R355). -/

namespace Sys2Proof.Machine

/-- An interface put back as it stands leaves the part as it was. -/
@[simp] theorem Chip.modIfc_self (c : Chip) (i : Ifc) : (c.modIfc i fun y => y) = c := by simp [Chip.modIfc]

/-- Two changes of one interface are one. -/
@[simp] theorem Chip.modIfc_modIfc (c : Chip) (i : Ifc) (f g : IfcSt → IfcSt) :
    (c.modIfc i f).modIfc i g = c.modIfc i fun y => g (f y) := by simp [Chip.modIfc]

/-- A change of an interface is one to a value, which only the interface as it stands decides. -/
theorem Chip.modIfc_eq_const (c : Chip) (i : Ifc) (f : IfcSt → IfcSt) :
    c.modIfc i f = c.modIfc i fun _ => f c.fab.ifcs[ifcNum i] := rfl

/-- What an interface holds does not show in a status byte. -/
@[simp] theorem Chip.statusByte_modIfc (c : Chip) (i : Ifc) (f : IfcSt → IfcSt) (a e : Nat) :
    (c.modIfc i f).statusByte a e = c.statusByte a e := rfl

/-- The status byte of an access that is neither ignored nor refused: bit 2 is BSY, bits 1 and 0, IGN and ERR, are clear (R341). -/
theorem Chip.statusByte_bits (c : Chip) (a : Nat) :
    (c.statusByte a 0).testBit 2 = c.posting a ∧ (c.statusByte a 0).testBit 1 = false ∧ (c.statusByte a 0).testBit 0 = false := by
  unfold Chip.statusByte
  cases c.alertLow <;> cases c.posting a <;> decide

/-- REGISTER_WRITE on an interface that is served, in terms of the write that it makes. -/
theorem exec_registerWrite_served {s : State} {i : Ifc} (a : BitVec 19) (m d met : BitVec 16) (hs : s.chip.serves i = true) :
    exec (.registerWrite i a m d met) s =
      let r := fabWrite i a.toNat m (s.chip.metData s.lock a.toNat d met) (s.chip, s.lock)
      .next { s.on (r.1.1.modIfc i fun y => { y with resp := be 1 (r.1.1.statusByte a.toNat r.2) }) with lock := r.1.2 } := by
  show execRegisterWrite i a m d met s = _
  simp [execRegisterWrite, State.actL, accPut, accWrite, writeRun, answer, hs]

/-- WIDE_VALUE_READ on an interface that is served, in terms of the read that it makes. -/
theorem exec_wideValueRead_served {s : State} {i : Ifc} (a : BitVec 19) (hs : s.chip.serves i = true) :
    exec (.wideValueRead i a) s =
      let r := fabRead i a.toNat (s.chip, s.lock)
      .next (s.on (r.1.modIfc i fun y => { y with resp := be 1 (r.1.statusByte a.toNat r.2.2) ++ be 2 r.2.1.toNat })) := by
  show execWideValueRead i a s = _
  simp [execWideValueRead, State.actL, accRead, readRun, answer, hs]

/-- A write with mask 0x0000 changes nothing and answers neither IGN nor ERR (R355). -/
theorem fabWrite_mask_zero {i : Ifc} (hi : i ≠ .spi1) (a : Nat) (d : BitVec 16) (x : Both) : fabWrite i a 0 d x = (x, 0) := by
  simp [fabWrite, hi]

/-- Every write word on SPI_CS1_N is discarded with ERR and logged as UNMAPPED, cause 5 (R343). -/
theorem fabWrite_spi1 (a : Nat) (m d : BitVec 16) (c : Chip) (lk : LockSt) :
    fabWrite .spi1 a m d (c, lk) = ((c.errLog .spi1 a 5 true, lk), 1) := by simp [fabWrite]

/-- A read on SPI_CS1_N that reaches no enabled register returns 0x0000 with ERR and is logged as UNMAPPED (R343). -/
theorem fabRead_spi1_unobserved {a : Nat} {c : Chip} (h : ∀ r, mapped a = some r → c.observed a r = false) (lk : LockSt) :
    fabRead .spi1 a (c, lk) = (c.errLog .spi1 a 5 false, 0, 1) := by
  cases hr : mapped a with
  | none => simp [fabRead, hr]
  | some r => simp [fabRead, hr, h r hr]

/-- The latch of SPI_CS1_N. -/
abbrev Chip.obsLatch (c : Chip) : Latch := c.fab.ifcs[ifcNum .spi1].latch

/-- The latch of SPI_CS1_N after a read of register r at an address: the lowest register of a wide value fills it (R336). -/
def Chip.obsLatchAfter (c : Chip) (lk : LockSt) (a : Nat) (r : RegDef) : Latch :=
  if r.wide ≠ 0 ∧ r.place a = 0 then { base := a, words := (List.range r.wide).map fun k => (c.view lk (a + k)).toNat }
  else c.obsLatch

/-- The value that SPI_CS1_N reads from register r at an address: a higher register of the latched wide value comes from the
latch, any other register reads live (R336). -/
def Chip.obsValue (c : Chip) (lk : LockSt) (a : Nat) (r : RegDef) : BitVec 16 :=
  if r.wide ≠ 0 ∧ r.place a ≠ 0 ∧ c.obsLatch.base = a - r.place a ∧ c.obsLatch.words ≠ [] then
    BitVec.ofNat 16 (c.obsLatch.words.getD (r.place a) 0)
  else c.view lk a

section
variable (c : Chip) (lk : LockSt) {a : Nat} {r : RegDef}

theorem Chip.obsLatchAfter_of_oneWord (h : r.wide = 0) : c.obsLatchAfter lk a r = c.obsLatch := if_neg fun x => x.1 h

theorem Chip.obsLatchAfter_of_lowest (hw : r.wide ≠ 0) (hp : r.place a = 0) :
    c.obsLatchAfter lk a r = { base := a, words := (List.range r.wide).map fun k => (c.view lk (a + k)).toNat } := if_pos ⟨hw, hp⟩

theorem Chip.obsLatchAfter_of_higher (hp : r.place a ≠ 0) : c.obsLatchAfter lk a r = c.obsLatch := if_neg fun x => hp x.2

theorem Chip.obsValue_of_oneWord (h : r.wide = 0) : c.obsValue lk a r = c.view lk a := if_neg fun x => x.1 h

theorem Chip.obsValue_of_lowest (hp : r.place a = 0) : c.obsValue lk a r = c.view lk a := if_neg fun x => x.2.1 hp

theorem Chip.obsValue_of_latched (hw : r.wide ≠ 0) (hp : r.place a ≠ 0) (hb : c.obsLatch.base = a - r.place a)
    (hl : c.obsLatch.words ≠ []) : c.obsValue lk a r = BitVec.ofNat 16 (c.obsLatch.words.getD (r.place a) 0) :=
  if_pos ⟨hw, hp, hb, hl⟩

theorem Chip.obsValue_of_unlatched (h : ¬ (c.obsLatch.base = a - r.place a ∧ c.obsLatch.words ≠ [])) :
    c.obsValue lk a r = c.view lk a := if_neg fun x => h x.2.2

/-- A read of an enabled register of a running block through SPI_CS1_N changes the latch of SPI_CS1_N at most (R344). -/
theorem fabRead_spi1_observed (hm : mapped a = some r) (ho : c.observed a r = true) (hg : c.gate a = 0) :
    fabRead .spi1 a (c, lk) =
      (c.modIfc .spi1 fun y => { y with latch := c.obsLatchAfter lk a r }, c.obsValue lk a r, 0) := by
  have kept : (c.modIfc .spi1 fun y => { y with latch := c.obsLatch }) = c := c.modIfc_self .spi1
  by_cases hw : r.wide = 0
  · rw [c.obsLatchAfter_of_oneWord lk hw, c.obsValue_of_oneWord lk hw, kept]
    simp [fabRead, hm, ho, hg, hw]
  by_cases hp : r.place a = 0
  · rw [c.obsLatchAfter_of_lowest lk hw hp, c.obsValue_of_lowest lk hp]
    simp [fabRead, hm, ho, hg, hw, hp]
  have higher : fabRead .spi1 a (c, lk) =
      if c.obsLatch.base = a - r.place a ∧ c.obsLatch.words ≠ [] then (c, BitVec.ofNat 16 (c.obsLatch.words.getD (r.place a) 0), 0)
      else (c, c.view lk a, 0) := by
    simp only [fabRead, hm, ho, hg, hw, hp, Bool.true_eq_false, and_false, ne_eq, not_true_eq_false, reduceCtorEq, if_false]
  rw [c.obsLatchAfter_of_higher lk hp, kept, higher]
  split
  case isTrue hl => rw [c.obsValue_of_latched lk hw hp hl.1 hl.2]
  case isFalse hl => rw [c.obsValue_of_unlatched lk hl]

end

/-- What WIDE_VALUE_READ of an enabled register of a running block does on SPI_CS1_N: the interface's latch and answer change,
and nothing else. -/
theorem exec_wideValueRead_observed {s : State} {a : BitVec 19} {r : RegDef} (hs : s.chip.serves .spi1 = true)
    (hm : mapped a.toNat = some r) (ho : s.chip.observed a.toNat r = true) (hg : s.chip.gate a.toNat = 0) :
    exec (.wideValueRead .spi1 a) s = .next (s.on (s.chip.modIfc .spi1 fun y =>
      { y with latch := s.chip.obsLatchAfter s.lock a.toNat r,
               resp := be 1 (s.chip.statusByte a.toNat 0) ++ be 2 (s.chip.obsValue s.lock a.toNat r).toNat })) := by
  rw [exec_wideValueRead_served a hs, fabRead_spi1_observed s.chip s.lock hm ho hg]
  simp only [Chip.modIfc_modIfc, Chip.statusByte_modIfc]

/-- REGISTER_WRITE on SPI_CS1_N is refused and logged, whatever its mask (R343). -/
theorem exec_registerWrite_spi1 {s : State} (a : BitVec 19) (m d met : BitVec 16) (hs : s.chip.serves .spi1 = true) :
    exec (.registerWrite .spi1 a m d met) s =
      let e := s.chip.errLog .spi1 a.toNat 5 true
      .next (s.on (e.modIfc .spi1 fun y => { y with resp := be 1 (e.statusByte a.toNat 1) })) := by
  rw [exec_registerWrite_served a m d met hs, fabWrite_spi1]

/-- Settles O30: the fabric answers a mask of 0x0000 before it judges the address (R355), except on SPI_CS1_N, which refuses
every write word (R343). -/
theorem zeroMaskWriteChangesNothing : Obligations.ZeroMaskWriteChangesNothing := by
  intro s i a d hs
  refine ⟨fun hi => ⟨?_, s.chip.statusByte_bits a.toNat⟩, ?_⟩
  · rw [exec_registerWrite_served a 0 d 0 hs, fabWrite_mask_zero hi]
  · rintro rfl
    exact exec_registerWrite_spi1 a 0 d 0 hs

/-- Settles O31: a write word and a read of no enabled register are refused as UNMAPPED, and a read of an enabled register of
one word gives its value and leaves the latch as it was (R343). -/
theorem observeWindowOnlyReadsEnabledGroups : Obligations.ObserveWindowOnlyReadsEnabledGroups := by
  intro s a m d hs
  refine ⟨exec_registerWrite_spi1 a m d 0 hs, fun h => ?_, fun r hm ho hg hw => ?_⟩
  · rw [exec_wideValueRead_served a hs, fabRead_spi1_unobserved h]
    rfl
  · rw [exec_wideValueRead_observed hs hm ho hg, s.chip.obsLatchAfter_of_oneWord s.lock hw, s.chip.obsValue_of_oneWord s.lock hw]
    rfl

/-- Settles O32: the interface after the read is the one of `exec_wideValueRead_observed`; its latch and value follow the place
of the register in its wide value (R336, R344). -/
theorem observeReadHasNoSideEffect : Obligations.ObserveReadHasNoSideEffect := by
  intro s a r c ifc hs hm ho hg
  refine ⟨_, (exec_wideValueRead_observed hs hm ho hg).trans (by rw [Chip.modIfc_eq_const]), fun hw => ?_, fun hw hp => ?_,
    fun hw hp hb hl => ?_⟩
  · exact ⟨c.obsLatchAfter_of_oneWord s.lock hw, by rw [c.obsValue_of_oneWord s.lock hw]⟩
  · exact ⟨c.obsLatchAfter_of_lowest s.lock hw hp, by rw [c.obsValue_of_lowest s.lock hp]⟩
  · exact ⟨c.obsLatchAfter_of_higher s.lock hp, by rw [c.obsValue_of_latched s.lock hw hp hb hl]⟩

end Sys2Proof.Machine
end

section
/-! What each command does to REG_LOCK and to the queue of waiting commands (00_scope.md R14, 10_register_fabric.md R335, R356,
R361): a masked write at the address of REG_LOCK is the only access that reaches it. -/

namespace Sys2Proof.Machine

/-- REG_LOCK as further writes to it may leave it. -/
inductive LockSt.Reaches (l : LockSt) : LockSt → Prop
  | refl : l.Reaches l
  | write {k : LockSt} (m d : BitVec 16) : l.Reaches k → l.Reaches (k.write m d)

namespace LockSt.Reaches

theorem of_eq {l k : LockSt} (h : k = l) : l.Reaches k := h ▸ .refl

theorem trans {l k j : LockSt} (h : l.Reaches k) (g : k.Reaches j) : l.Reaches j := by
  induction g with
  | refl => exact h
  | write m d _ ih => exact ih.write m d

/-- A field that holds 1 goes on holding it. -/
theorem bit_stays {l k : LockSt} (h : l.Reaches k) (n : Nat) (hb : l.bits.getLsbD n = true) : k.bits.getLsbD n = true := by
  induction h with
  | refl => exact hb
  | write m d _ ih => rw [LockSt.write_bits, ih, Bool.true_or]

/-- A field that has had its write keeps it, and its value with it. -/
theorem written_stays {l k : LockSt} (h : l.Reaches k) (n : Nat) (hw : l.written.getLsbD n = true) :
    k.written.getLsbD n = true ∧ k.bits.getLsbD n = l.bits.getLsbD n := by
  induction h with
  | refl => exact ⟨hw, rfl⟩
  | write m d _ ih =>
    obtain ⟨written, value⟩ := ih
    obtain ⟨kept, wrote⟩ := LockSt.write_kept _ m d (.inr (.inl written))
    exact ⟨wrote.trans written, kept.trans value⟩

end LockSt.Reaches

/-- In a sound REG_LOCK each field holds 1 only after its write, and there are seven fields. -/
theorem LockSt.sound_iff (l : LockSt) :
    l.sound ↔ (∀ n, l.bits.getLsbD n = true → l.written.getLsbD n = true) ∧ ∀ n, l.written.getLsbD n = true → n < 7 := by
  have below : ∀ (w : BitVec 16) n, w.getLsbD n = true → n < 16 := fun w n h => BitVec.lt_of_getLsbD h
  refine ⟨fun h => ⟨fun n hb => ?_, fun n hw => ?_⟩, fun ⟨hb, hw⟩ => ⟨?_, ?_⟩⟩
  · by_contra hw
    simp [h.bit_of_unwritten (by simpa using hw)] at hb
  · have free := congrArg (·.getLsbD n) h.2
    simp only [BitVec.getLsbD_and, BitVec.getLsbD_not, lockFields_getLsbD, hw, below _ n hw] at free
    simpa using free
  · ext n hn
    simp only [BitVec.getElem_and, BitVec.getElem_not]
    cases e : l.bits[n] with
    | false => simp
    | true =>
      have := hb n (by simpa [BitVec.getLsbD_eq_getElem hn] using e)
      simp [BitVec.getLsbD_eq_getElem hn] at this
      simp [this]
  · apply BitVec.eq_of_getLsbD_eq
    intro n hn
    rw [BitVec.getLsbD_and, BitVec.getLsbD_not, lockFields_getLsbD]
    cases e : l.written.getLsbD n with
    | false => simp
    | true => simp [hw n e]

/-- A write to a sound REG_LOCK leaves it sound. -/
theorem LockSt.sound.write {l : LockSt} (h : l.sound) (m d : BitVec 16) : (l.write m d).sound := by
  rw [LockSt.sound_iff] at h ⊢
  obtain ⟨hb, hw⟩ := h
  refine ⟨fun n => ?_, fun n => ?_⟩
  · rw [LockSt.write_bits, LockSt.write_written]
    simp only [Bool.or_eq_true, Bool.and_eq_true]
    exact Or.imp (hb n) And.right
  · rw [LockSt.write_written]
    simp only [Bool.or_eq_true, LockSt.takes, Bool.and_eq_true, decide_eq_true_eq]
    exact Or.rec (hw n) fun h => h.1.1

theorem LockSt.Reaches.sound {l k : LockSt} (h : l.Reaches k) (hl : l.sound) : k.sound := by
  induction h with
  | refl => exact hl
  | write m d _ ih => exact ih.write m d

/-- The address of REG_LOCK. -/
abbrev lockAddr : Nat := REGB + REG_LOCK_OBSERVE.off

/-- A masked write reaches REG_LOCK at its address alone. -/
theorem fabWrite_lock (i : Ifc) (a : Nat) (m d : BitVec 16) (x : Both) :
    (fabWrite i a m d x).1.2 = x.2 ∨ a = lockAddr ∧ (fabWrite i a m d x).1.2 = x.2.write m d := by
  unfold fabWrite
  simp only []
  split
  · exact .inl rfl
  split
  · exact .inl rfl
  split
  · exact .inl rfl
  split
  · exact .inl rfl
  by_cases h : a = lockAddr
  · rw [if_pos h]
    split <;> exact .inr ⟨h, rfl⟩
  · rw [if_neg h]
    left
    repeat' first | rfl | split

theorem fabWrite_lock_ne (i : Ifc) {a : Nat} (h : a ≠ lockAddr) (m d : BitVec 16) (x : Both) : (fabWrite i a m d x).1.2 = x.2 :=
  (fabWrite_lock i a m d x).resolve_right fun g => h g.1

theorem fabWrite_reaches (i : Ifc) (a : Nat) (m d : BitVec 16) (x : Both) : x.2.Reaches (fabWrite i a m d x).1.2 := by
  rcases fabWrite_lock i a m d x with h | ⟨_, h⟩ <;> rw [h]
  · exact .refl
  · exact .write m d .refl

/-- What may follow REG_LOCK over an access, an MDIO frame or a transaction: only writes of its own. -/
abbrev WritesLock (f : Both → Both) : Prop := ∀ x : Both, x.2.Reaches (f x).2

@[simp] theorem answer_lock (i : Ifc) (b : Bytes) (x : Both) : (answer i b x).2 = x.2 := rfl

theorem writeRun_reaches (i : Ifc) (l : List (BitVec 16 × BitVec 16)) (x : Both) (st : List Nat) (a : Nat) :
    x.2.Reaches (writeRun i x st a l).1.2 := by
  induction l generalizing x st a with
  | nil => exact .refl
  | cons w l ih => exact (fabWrite_reaches i a w.1 w.2 x).trans (ih _ _ _)

/-- Writes at successive addresses that never meet REG_LOCK leave it. -/
theorem writeRun_lock (i : Ifc) (l : List (BitVec 16 × BitVec 16)) (x : Both) (st : List Nat) {a : Nat}
    (h : ∀ k < l.length, a + k ≠ lockAddr) (ha : a + l.length < 0x80000) : (writeRun i x st a l).1.2 = x.2 := by
  induction l generalizing x st a with
  | nil => rfl
  | cons w l ih =>
    simp only [List.length_cons] at h ha
    have next : nextAddr a = a + 1 := Nat.mod_eq_of_lt (by omega)
    rw [writeRun, next, ih]
    · exact fabWrite_lock_ne i (h 0 (by omega)) w.1 w.2 x
    · intro k hk
      have := h (k + 1) (by omega)
      omega
    · omega

theorem readRun_lock (i : Ifc) (late : Bool) (n : Nat) (x : Both) (out : Bytes) (a : Nat) : (readRun i late x out a n).1.2 = x.2 := by
  induction n generalizing x out a with
  | zero => rfl
  | succ n ih => exact ih _ _ _

theorem accWrite_reaches (i : Ifc) (a : Nat) (l : List (BitVec 16 × BitVec 16)) : WritesLock (accWrite i a l) := by
  intro x
  unfold accWrite
  split
  · exact writeRun_reaches i l x [] a
  · exact .refl

theorem accWrite_lock (i : Ifc) {a : Nat} (l : List (BitVec 16 × BitVec 16)) (x : Both)
    (h : ∀ k < l.length, a + k ≠ lockAddr) (ha : a + l.length < 0x80000) : (accWrite i a l x).2 = x.2 := by
  unfold accWrite
  split
  · exact writeRun_lock i l x [] h ha
  · rfl

theorem accRead_lock (i : Ifc) (a n : Nat) (x : Both) : (accRead i a n x).2 = x.2 := by
  unfold accRead
  split
  · exact readRun_lock i false n x [] a
  · rfl

theorem accDo_reaches (late : Bool) (v : Access) (x : Both) : x.2.Reaches (accDo late v x).1.2 := by
  unfold accDo
  simp only []
  split
  · split
    · exact writeRun_reaches _ _ x [] _
    · exact .of_eq (readRun_lock _ late 1 x [] _)
  · exact .refl

theorem turnsRun_reaches (own : Ifc) (late : Bool) (n t : Nat) (l : List Access) (out : List (Ifc × Bytes)) (x : Both) :
    x.2.Reaches (turnsRun own late n t l out x).1.2 := by
  induction n generalizing t l out x with
  | zero => exact .refl
  | succ n ih =>
    unfold turnsRun
    split
    · exact .refl
    · exact (accDo_reaches _ _ x).trans (ih _ _ _ _)

theorem foldl_answer_lock (l : List Ifc) (b : Ifc → Bytes) (x : Both) : (l.foldl (fun y j => answer j (b j) y) x).2 = x.2 := by
  induction l generalizing x with
  | nil => rfl
  | cons j l ih => exact ih _

theorem shareRun_reaches (i : Ifc) (late : Bool) (own mid : List Access) (x : Both) {l : LockSt} (h : l.Reaches x.2) :
    l.Reaches (shareRun i late own mid x).1.2 := by
  unfold shareRun
  simp only [foldl_answer_lock]
  exact h.trans (turnsRun_reaches _ _ _ _ _ _ x)

theorem spiFrame_reaches (i : Ifc) (op : Byte) (a : BitVec 19) (words : List (BitVec 16 × BitVec 16)) (n per : Nat) (second : Bool)
    (mid : List Access) : WritesLock (spiFrame i op a words n per second mid) := fun x => shareRun_reaches _ _ _ _ x .refl

theorem winAccess_reaches (wr : Bool) (data : BitVec 16) (x : Both) : x.2.Reaches (winAccess wr data x).1.2 := by
  unfold winAccess
  cases wr with
  | false => exact .refl
  | true => exact fabWrite_reaches _ _ _ _ x

/-- A standard register of MDIO writes its fields through the fabric. -/
theorem mmdWrite_reaches (p : Port) (mmd r : Nat) (w : BitVec 16) : WritesLock (mmdWrite p mmd r w) := by
  intro x
  unfold mmdWrite
  extract_lets b put y loop srst z old z'
  have hput : ∀ f v (y : Both), y.2.Reaches (put f v y).2 := fun f v y => fabWrite_reaches .mdio _ _ _ y
  by_cases hm : mmdHas mmd r = false
  · rw [if_pos hm]
    exact .refl
  rw [if_neg hm]
  have hloop : ∀ k v (z : Both), z.2.Reaches (loop k v z).2 := by
    intro k v z
    simp only [loop]
    split
    · exact hput _ _ z
    · split
      · exact hput _ _ z
      · exact .refl
  have hsrst : ∀ z : Both, z.2.Reaches (srst z).2 := by
    intro z
    simp only [srst]
    split
    · exact hput _ _ z
    · exact .refl
  have hy : x.2.Reaches y.2 := .refl
  refine hy.trans ?_
  split
  · exact (hloop _ _ y).trans (hsrst _)
  · exact (hloop _ _ y).trans (hsrst _)
  · exact (hloop _ _ y).trans (hsrst _)
  · exact hsrst y
  · refine LockSt.Reaches.trans (hput _ _ y : y.2.Reaches z.2) ?_
    split
    · exact .refl
    · exact hput _ _ z
  · have hz : y.2.Reaches z'.2 := by
      simp only [z']
      split
      · exact hput _ _ y
      · split
        · exact hput _ _ y
        · exact .refl
    refine hz.trans ?_
    split
    · exact hput _ _ z'
    · exact .refl
  · exact fabWrite_reaches .mdio _ _ _ y
  · exact fabWrite_reaches .mdio _ _ _ y
  · exact fabWrite_reaches .mdio _ _ _ y
  · exact .refl

theorem mdioRead_reaches (p : Port) (mmd r : Nat) (x : Both) : x.2.Reaches (mdioRead p mmd r x).1.2 := by
  unfold mdioRead mmdRead
  simp only []
  repeat' first | exact .refl | exact winAccess_reaches _ _ x | split

theorem mdioWrite_reaches (p : Port) (mmd r : Nat) (w : BitVec 16) : WritesLock (mdioWrite p mmd r w) := by
  intro x
  unfold mdioWrite
  repeat' first | exact .refl | exact winAccess_reaches _ _ x | exact mmdWrite_reaches _ _ _ _ x | split

theorem mdioFrame_reaches (op : BitVec 2) (phy mmd : BitVec 5) (data : BitVec 16) : WritesLock (mdioFrame op phy mmd data) := by
  intro x
  unfold mdioFrame
  simp only []
  split
  · exact .refl
  · split
    · exact .refl
    · exact mdioWrite_reaches _ _ _ _ x
    · split <;> exact mdioRead_reaches _ _ _ x

/-! The addresses of the commands that write one register. -/

theorem lockAddr_lt : lockAddr < 0x10000 := by decide
theorem lpB_ne_lockAddr (p : Port) (k : Nat) : lpB p + k ≠ lockAddr := by have := lockAddr_lt; simp only [lpB]; omega
theorem laneB_ne_lockAddr (l : Lane) (k : Nat) : laneB l + k ≠ lockAddr := by have := lockAddr_lt; simp only [laneB]; omega
theorem doorbell_ne_lockAddr (m : Fin 4) : mbB m + MBN_CTL_DOORBELL.off ≠ lockAddr := by revert m; decide
theorem cycClr_ne_lockAddr (u : Fin 2) : pmcB u + PMC_CTL_CYC_CLR.off ≠ lockAddr := by revert u; decide
theorem pmcCnt_lt_REGB (u : Fin 2) (k : Fin 8) : pmcB u + PMC_CNT_COUNT.off + 2 * k.val + 2 < REGB := by revert u k; decide

theorem accPut_lock (i : Ifc) {a : Nat} (m d : BitVec 16) (x : Both) (h : a ≠ lockAddr) : (accPut i a m d x).2 = x.2 := by
  show (accWrite i a [(m, d)] x).2 = x.2
  unfold accWrite
  split
  · exact fabWrite_lock_ne i h m d x
  · rfl

theorem accOne_lock (i : Ifc) {a : Nat} (wr : Option (BitVec 16)) (x : Both) (h : a ≠ lockAddr) : (accOne i a wr x).2 = x.2 := by
  cases wr with
  | none => exact accRead_lock i a 1 x
  | some w => exact accPut_lock i _ w x h

/-- The registers of a wide value written whole, in a block before REG's. -/
theorem accWrite_wideWords_lock (i : Ifc) {a n : Nat} (v : Nat) (x : Both) (h : a + n < REGB) : (accWrite i a (wideWords v n) x).2 = x.2 := by
  have hl : (wideWords v n).length = n := by simp [wideWords]
  refine accWrite_lock i _ x (fun k hk => ?_) ?_ <;> rw [hl] at *
  · simp only [REGB] at h; simp only [lockAddr, REGB]; omega
  · simp only [REGB] at h; omega

/-- A command that keeps REG_LOCK changes the part alone. -/
theorem State.actL_of_kept (s : State) {f : Both → Both} (h : (f (s.chip, s.lock)).2 = s.lock) :
    ∃ c, s.actL f = .next (s.on c) := ⟨(f (s.chip, s.lock)).1, by simp only [State.actL, h]⟩

/-- A command of other accesses changes the part, and REG_LOCK by writes to it. -/
theorem State.actL_of_writes (s : State) {f : Both → Both} (h : WritesLock f) :
    ∃ c l, s.actL f = .next { s with chip := c, lock := l } ∧ s.lock.Reaches l := ⟨_, _, rfl, h (s.chip, s.lock)⟩

/-- A command other than a write at an address of its own choice and the loss of supply changes the part alone. -/
theorem exec_keeps_lock (i : Instr) (s : State) (h : mayLock i = false) : ∃ c, exec i s = .next (s.on c) := by
  cases i with
  | registerWrite | wideValueWrite | regLockWrite | spiFrame | spiObserveFrame | mdioFrame | mdioWinDataAccess | twmWrite | twmRead
  | powerOnReset | supplyFail => exact Bool.noConfusion h
  | portEnable i p | portDisable i p | portSrst i p | refreshReq i p | groupFreeze i p _ | reload i p | wakeReq i p | sleepReq i p
  | diagReq i p | pipDiagCtlWrite i p _ | tdrStart i p | eClr i p =>
    exact s.actL_of_kept (accPut_lock i _ _ _ (lpB_ne_lockAddr p _))
  | restart i p met =>
    show ∃ c, execRestart i p met s = _
    unfold execRestart
    refine s.actL_of_kept ?_
    cases met <;> exact accPut_lock i _ _ _ (lpB_ne_lockAddr p _)
  | dspTapDataAccess i p wr met =>
    have kept := accOne_lock i wr (s.chip, s.lock) (lpB_ne_lockAddr p DSP_TAP_DATA_VALUE.off)
    show ∃ c, execDspTapDataAccess i p wr met s = _
    unfold execDspTapDataAccess
    refine s.actL_of_kept ?_
    dsimp only
    split <;> exact kept
  | pipDiagDataAccess i p wr => exact s.actL_of_kept (accOne_lock i wr _ (lpB_ne_lockAddr p _))
  | laneEnable i l | laneDisable i l | laneSrst i l | trnRestart i l | patInjOne i l =>
    exact s.actL_of_kept (accPut_lock i _ _ _ (laneB_ne_lockAddr l _))
  | hgrpModeWrite i | folioCmdSet i | folioCmdAdd i | folioCmdFine i | folioCmdSrst i | outArm i | outStop i | quireSrst i | spineSrst i
  | demote i | stackRst i | wakeSouth i | jobRelease i | glbSwrst i | calFgStart i | calFgSave i | agePropApprove i | agePropVeto i
  | bistStart i | bistManWrite i | rollStopAll i => exact s.actL_of_kept (accPut_lock i _ _ _ (by decide))
  | spineFaceEnable i f => exact s.actL_of_kept (accPut_lock i _ _ _ (by cases f <;> decide))
  | spineRetrain i f => exact s.actL_of_kept (accPut_lock i _ _ _ (by cases f <;> decide))
  | doorbell i m => exact s.actL_of_kept (accPut_lock i _ _ _ (doorbell_ne_lockAddr m))
  | cycClr i u => exact s.actL_of_kept (accPut_lock i _ _ _ (cycClr_ne_lockAddr u))
  | folioTimeRead i | capTimeRead i | wideValueRead i => exact s.actL_of_kept (accRead_lock i _ 1 _)
  | rateWrite i v => exact s.actL_of_kept (accWrite_wideWords_lock i _ _ (by decide))
  | rollSeedWrite i seed => exact s.actL_of_kept (accWrite_wideWords_lock i _ _ (by decide))
  | pmcCntWrite i u k v n =>
    have kept := accWrite_wideWords_lock i v.toNat (s.chip, s.lock) (pmcCnt_lt_REGB u k)
    show ∃ c, execPmcCntWrite i u k v n s = _
    unfold execPmcCntWrite
    refine s.actL_of_kept ?_
    dsimp only
    split <;> exact kept
  | _ => exact ⟨_, rfl⟩

theorem execMdioWinDataAccess_writes (wr : Option (BitVec 16)) (s : State) :
    ∃ c l, execMdioWinDataAccess wr s = .next { s with chip := c, lock := l } ∧ s.lock.Reaches l := by
  unfold execMdioWinDataAccess
  refine s.actL_of_writes fun x => ?_
  split
  · exact winAccess_reaches _ _ x
  · exact .refl

theorem execTwmWrite_writes (dev : BitVec 7) (b : Bytes) (mid : List Access) (s : State) :
    ∃ c l, execTwmWrite dev b mid s = .next { s with chip := c, lock := l } ∧ s.lock.Reaches l := by
  unfold execTwmWrite
  refine s.actL_of_writes fun x => ?_
  split <;> simp only [answer_lock] <;> exact shareRun_reaches _ _ _ _ _ .refl

theorem execTwmRead_writes (dev : BitVec 7) (a : Option (BitVec 19)) (n : Nat) (mid : List Access) (s : State) :
    ∃ c l, execTwmRead dev a n mid s = .next { s with chip := c, lock := l } ∧ s.lock.Reaches l := by
  unfold execTwmRead
  refine s.actL_of_writes fun x => ?_
  split <;> simp only [answer_lock] <;> exact shareRun_reaches _ _ _ _ _ .refl

/-- A command other than a power-on reset and the loss of supply changes the part, and REG_LOCK by writes to it at most. -/
theorem exec_reaches (i : Instr) (s : State) (hf : i ≠ .supplyFail) (hp : ∀ a b c d e, i ≠ .powerOnReset a b c d e) :
    ∃ c l, exec i s = .next { s with chip := c, lock := l } ∧ s.lock.Reaches l := by
  cases h : mayLock i with
  | false =>
    obtain ⟨c, hc⟩ := exec_keeps_lock i s h
    exact ⟨c, s.lock, hc, .refl⟩
  | true =>
    cases i with
    | registerWrite i a m d met => exact s.actL_of_writes fun x => accWrite_reaches i _ _ x
    | wideValueWrite i a words => exact s.actL_of_writes (accWrite_reaches i _ _)
    | regLockWrite i m d => exact s.actL_of_writes (accWrite_reaches i _ _)
    | spiFrame => exact s.actL_of_writes (spiFrame_reaches _ _ _ _ _ _ _ _)
    | spiObserveFrame => exact s.actL_of_writes (spiFrame_reaches _ _ _ _ _ _ _ _)
    | mdioFrame => exact s.actL_of_writes (mdioFrame_reaches _ _ _ _)
    | mdioWinDataAccess wr => exact execMdioWinDataAccess_writes wr s
    | twmWrite dev b mid => exact execTwmWrite_writes dev b mid s
    | twmRead dev a n mid => exact execTwmRead_writes dev a n mid s
    | powerOnReset a b c d e => exact absurd rfl (hp a b c d e)
    | supplyFail => exact absurd rfl hf
    | _ => exact Bool.noConfusion h

/-- Each command answers a next state: the queue is as it was, and REG_LOCK is cleared or has had writes. -/
theorem exec_next (i : Instr) (s : State) :
    ∃ c l, exec i s = .next { s with chip := c, lock := l } ∧ (l = {} ∨ s.lock.Reaches l) := by
  by_cases hf : i = .supplyFail
  · subst hf
    exact ⟨_, _, rfl, .inl rfl⟩
  by_cases hp : ∃ a b c d e, i = .powerOnReset a b c d e
  · obtain ⟨a, b, c, d, e, rfl⟩ := hp
    exact ⟨_, _, rfl, .inl rfl⟩
  obtain ⟨c, l, h, hl⟩ := exec_reaches i s hf fun a b c d e g => hp ⟨a, b, c, d, e, g⟩
  exact ⟨c, l, h, .inr hl⟩

/-- Settles O49: no command faults or is refused, and none touches the queue. -/
theorem everyCommandAnswers : Obligations.EveryCommandAnswers := by
  intro i s
  obtain ⟨c, l, h, -⟩ := exec_next i s
  exact ⟨_, h, rfl⟩

/-- Settles O50: every other command changes the part alone. -/
theorem onlyWritesReachTheLock : Obligations.OnlyWritesReachTheLock := by
  intro i s t h hi
  obtain ⟨c, hc⟩ := exec_keeps_lock i s hi
  rw [hc] at h
  cases h
  rfl

/-- Settles O51: what a command does to REG_LOCK is a number of writes to it, each of which keeps set bits and written fields
(R14, R356). -/
theorem setLocksStay : Obligations.SetLocksStay := by
  intro i s t h hf hp
  obtain ⟨c, l, hc, hl⟩ := exec_reaches i s hf hp
  rw [hc] at h
  cases h
  exact ⟨hl.bit_stays, hl.written_stays⟩

/-- A REG_LOCK that has had no write is sound. -/
theorem LockSt.sound_default : LockSt.sound {} := ⟨by decide, by decide⟩

/-- Settles O52: writes keep REG_LOCK sound, and a cleared one is sound. -/
theorem stepKeepsTheLockSound : Obligations.StepKeepsTheLockSound := by
  intro s t hs h
  unfold step at h
  split at h
  · cases h
    exact hs
  · next i rest _ =>
    obtain ⟨c, l, hc, hl⟩ := exec_next i { s with pending := rest }
    rw [hc] at h
    cases h
    rcases hl with rfl | hl
    · exact LockSt.sound_default
    · exact hl.sound hs

/-- Settles O53: nothing has written to REG_LOCK, and no command waits. -/
theorem lockSoundAtReset : Obligations.LockSoundAtReset := ⟨LockSt.sound_default, rfl⟩

/-- Settles O47: `step` by its case of a queue that is not empty. -/
theorem stepRunsTheFrontCommand : Obligations.StepRunsTheFrontCommand := by
  intro i l s h
  unfold step
  rw [h]

/-- Settles O48: `step` by its case of the empty queue. -/
theorem emptyQueueIdles : Obligations.EmptyQueueIdles := by
  intro s h
  unfold step
  rw [h]

end Sys2Proof.Machine
end

section
/-! A masked write changes no bit outside its mask (10_register_fabric.md R354). -/

namespace Sys2Proof.Machine

/-- Two words agree outside a mask. -/
def agreeOutside (m v w : BitVec 16) : Prop := ∀ k, m.getLsbD k = false → v.getLsbD k = w.getLsbD k

theorem agreeOutside.rfl {m w : BitVec 16} : agreeOutside m w w := fun _ _ => Eq.refl _

theorem agreeOutside.trans {m u v w : BitVec 16} (h : agreeOutside m u v) (g : agreeOutside m v w) : agreeOutside m u w :=
  fun k hk => (h k hk).trans (g k hk)

/-- Agreement outside a mask, as the claims write it. -/
theorem agreeOutside_iff (m v w : BitVec 16) : agreeOutside m v w ↔ (v ^^^ w) &&& ~~~m = 0 := by
  constructor
  · intro h
    apply BitVec.eq_of_getLsbD_eq
    intro k hk
    simp only [BitVec.getLsbD_and, BitVec.getLsbD_xor, BitVec.getLsbD_not, BitVec.ofNat_eq_ofNat, BitVec.getLsbD_zero]
    cases hm : m.getLsbD k
    · rw [h k hm, Bool.xor_self, Bool.false_and]
    · rw [Bool.not_true, Bool.and_false, Bool.and_false]
  · intro h k hm
    by_cases hk : k < 16
    · have bit := congrArg (·.getLsbD k) h
      simpa only [BitVec.getLsbD_and, BitVec.getLsbD_xor, BitVec.getLsbD_not, hm, hk, decide_true, Bool.not_false, Bool.and_true,
        BitVec.ofNat_eq_ofNat, BitVec.getLsbD_zero, bne_eq_false_iff_eq] using bit
    · rw [BitVec.getLsbD_of_ge _ _ (by omega), BitVec.getLsbD_of_ge _ _ (by omega)]

theorem agreeOutside.ite {m v w : BitVec 16} {p : Prop} [Decidable p] (h : agreeOutside m v w) : agreeOutside m (if p then v else w) w := by
  split
  · exact h
  · exact .rfl

/-- A field takes no bit outside the mask, whatever its access code. -/
theorem fieldWrite_agrees (m d w : BitVec 16) (f : FieldDef) : agreeOutside m (fieldWrite m d w f) w := by
  unfold fieldWrite
  dsimp only
  refine agreeOutside.ite fun k hm => ?_
  by_cases hk : k < 16
  · split <;> simp only [BitVec.getLsbD_or, BitVec.getLsbD_and, BitVec.getLsbD_not, hm, hk, Bool.false_and, Bool.and_false, Bool.not_false,
      decide_true, Bool.and_true, Bool.or_false]
  · rw [BitVec.getLsbD_of_ge _ _ (by omega), BitVec.getLsbD_of_ge _ _ (by omega)]

theorem mergeWord_agrees (fs : List FieldDef) (m d w : BitVec 16) : agreeOutside m (mergeWord fs m d w) w := by
  unfold mergeWord
  induction fs generalizing w with
  | nil => exact .rfl
  | cons f fs ih => exact (ih _).trans (fieldWrite_agrees m d w f)

/-- A register that takes a merged word agrees with what it held. -/
theorem Chip.setReg_mergeWord_agrees (c : Chip) (a : Nat) (fs : List FieldDef) (m d : BitVec 16) (x : Nat) :
    agreeOutside m ((c.setReg a (mergeWord fs m d (c.reg a))).reg x) (c.reg x) := by
  rw [Chip.reg_setReg]
  split
  · next h => rw [h]; exact mergeWord_agrees fs m d _
  · exact .rfl

theorem Chip.merge_agrees (c : Chip) (a : Nat) (m d : BitVec 16) (x : Nat) : agreeOutside m ((c.merge a m d).reg x) (c.reg x) := by
  unfold Chip.merge
  split
  · exact .rfl
  · split
    · exact (Chip.setReg_mergeWord_agrees _ _ _ m d x).trans (Chip.setReg_mergeWord_agrees c _ _ m d x)
    · exact Chip.setReg_mergeWord_agrees c _ _ m d x

/-- Settles O35. -/
theorem mergeKeepsBitsOutsideTheMask : Obligations.MergeKeepsBitsOutsideTheMask :=
  fun c a x m d => (agreeOutside_iff _ _ _).mp (c.merge_agrees a m d x)

end Sys2Proof.Machine
end

section
/-! A whole wide value written through an interface, register by register: the lower registers are staged and the highest commits
them (10_register_fabric.md R336, R337, R354). -/

namespace Sys2Proof.Machine

/-- Only registers of block PMC, the fabric's interfaces and the model's counter of free values differ: what an access changes
before its own effect. -/
structure Chip.Quiet (c o : Chip) : Prop where
  rest : o = { c with regs := o.regs, fab := o.fab, freeCtr := o.freeCtr }
  reg : ∀ x, x / 0x1000 ≠ 9 → o.reg x = c.reg x

namespace Chip.Quiet

theorem refl (c : Chip) : c.Quiet c := ⟨rfl, fun _ _ => rfl⟩

theorem trans {c d e : Chip} (h : c.Quiet d) (g : d.Quiet e) : c.Quiet e := by
  refine ⟨?_, fun x hx => (g.reg x hx).trans (h.reg x hx)⟩
  rw [g.rest, h.rest]

theorem modIfc (c : Chip) (i : Ifc) (f : IfcSt → IfcSt) : c.Quiet (c.modIfc i f) := ⟨rfl, fun _ _ => rfl⟩

section
variable {c o : Chip} (h : c.Quiet o)
include h

theorem get {b : Nat} {f : Fld} (hb : (b + f.off) / 0x1000 ≠ 9) : o.get b f = c.get b f := by simp only [Chip.get, h.reg _ hb]

theorem wide {a n : Nat} (ha : ∀ k < n, (a + k) / 0x1000 ≠ 9) : o.wide a n = c.wide a n := by
  induction n generalizing a with
  | zero => rfl
  | succ n ih =>
    rw [Chip.wide, Chip.wide, h.reg a (ha 0 (by omega)), ih fun k hk => ?_]
    have := ha (k + 1) (by omega)
    rwa [Nat.add_assoc, Nat.add_comm 1 k]

theorem folio : o.folio = c.folio := by rw [h.rest]
theorem tpll : o.tpll = c.tpll := by rw [h.rest]
theorem clk : o.clk = c.clk := by rw [h.rest]
theorem pwr : o.pwr = c.pwr := by rw [h.rest]
theorem bist : o.bist = c.bist := by rw [h.rest]

/-- The gates of the blocks look at none of it. -/
theorem gate (a : Nat) : o.gate a = c.gate a := by
  have island : ∀ k, o.islandOn k = c.islandOn k := fun k => by simp only [Chip.islandOn, Chip.bit, h.get (by decide : (PWR + PWR_ISLANDS_ON.off) / 0x1000 ≠ 9)]
  have loop : ∀ k, o.loopRuns k = c.loopRuns k := fun k => by simp only [Chip.loopRuns, h.clk]
  have clkReg : ∀ f : Fld, f.off < 0x1000 → o.get CLK f = c.get CLK f := fun f hf => h.get (by simp only [CLK]; omega)
  have on : ∀ f : Fld, f.off < 0x1000 → o.on CLK f = c.on CLK f := fun f hf => by simp only [Chip.on, clkReg f hf]
  have bit : ∀ (f : Fld) k, f.off < 0x1000 → o.bit CLK f k = c.bit CLK f k := fun f k hf => by simp only [Chip.bit, clkReg f hf]
  have lanes : o.reg (CLK + CLK_EN1_H.off) = c.reg (CLK + CLK_EN1_H.off) := h.reg _ (by decide)
  unfold Chip.gate
  simp only [island, loop, lanes, h.pwr, on CLK_EN0_QUIRE (by decide), on CLK_EN0_FOLIO (by decide), on CLK_EN0_SPINE (by decide),
    on CLK_EN0_ROLL (by decide), on CLK_EN0_HGRP (by decide), bit CLK_EN0_LP _ (by decide)]

end
end Chip.Quiet

/-- Only registers and the model's counter of free values differ. -/
def Chip.RegsOnly (c d : Chip) : Prop := d = { c with regs := d.regs, freeCtr := d.freeCtr }

namespace Chip.RegsOnly

theorem refl (c : Chip) : c.RegsOnly c := rfl

theorem trans {c d e : Chip} (h : c.RegsOnly d) (g : d.RegsOnly e) : c.RegsOnly e := by
  unfold Chip.RegsOnly at *
  rw [g, h]

theorem put (c : Chip) (b : Nat) (f : Fld) (v : Nat) : c.RegsOnly (c.put b f v) := rfl

theorem putWide (c : Chip) (a n v : Nat) : c.RegsOnly (c.putWide a n v) := by
  induction n generalizing c a v with
  | zero => rfl
  | succ n ih =>
    have first : c.RegsOnly (c.setReg a (BitVec.ofNat 16 v)) := rfl
    exact first.trans (ih _ _ _)

theorem ite {c d e : Chip} {p : Prop} [Decidable p] (h : c.RegsOnly d) (g : c.RegsOnly e) : c.RegsOnly (if p then d else e) := by
  split
  · exact h
  · exact g

theorem pmcSample (c : Chip) (u : Fin 2) (k : Nat) : c.RegsOnly (c.pmcSample u k) := by
  unfold Chip.pmcSample
  split
  · exact refl c
  · exact (putWide c _ _ _).trans rfl

theorem pmcWrap (c : Chip) (u : Fin 2) (k x : Nat) : c.RegsOnly (c.pmcWrap u k x) := by
  unfold Chip.pmcWrap
  have ovf : c.RegsOnly (c.putBit (pmcB u) PMC_OVF_OVF k true) := rfl
  exact ovf.trans ((putWide _ _ _ _).trans (ite (pmcSample _ u k) (refl _)))

theorem pmcAdd1 (c : Chip) (u : Fin 2) (k n : Nat) : c.RegsOnly (c.pmcAdd1 u k n) := by
  unfold Chip.pmcAdd1
  exact ite (putWide c _ _ _) (pmcWrap c u k _)

theorem pmcAdd (c : Chip) (u : Fin 2) (k n : Nat) : c.RegsOnly (c.pmcAdd u k n) := by
  unfold Chip.pmcAdd
  exact ite ((pmcAdd1 c u k n).trans (pmcAdd1 _ u _ 1)) (pmcAdd1 c u k n)

theorem foldl {α : Type} (l : List α) (f : Chip → α → Chip) (hf : ∀ c a, Chip.RegsOnly c (f c a)) (c : Chip) : c.RegsOnly (l.foldl f c) := by
  induction l generalizing c with
  | nil => exact refl c
  | cons a l ih => exact (hf c a).trans (ih _)

theorem pmcEvt (c : Chip) (u : Fin 2) (sel n : Nat) : c.RegsOnly (c.pmcEvt u sel n) := by
  unfold Chip.pmcEvt
  split
  · exact refl c
  · exact foldl _ _ (fun c k => ite (pmcAdd c u k n) (refl c)) c

end Chip.RegsOnly

theorem Chip.Quiet.countWr (c : Chip) (i : Ifc) : c.Quiet (c.countWr i) := by
  refine ⟨?_, fun x hx => c.countWr_reg i x hx⟩
  unfold Chip.countWr
  split
  · have h := Chip.RegsOnly.pmcEvt c 0 8 1
    unfold Chip.RegsOnly at h
    rw [h]
  · rfl

/-- What an interface has staged. -/
abbrev Chip.stageOf (c : Chip) (i : Ifc) : Option Stage := c.fab.ifcs[ifcNum i].stage

@[simp] theorem Chip.stageOf_modIfc (c : Chip) (i : Ifc) (f : IfcSt → IfcSt) : (c.modIfc i f).stageOf i = (f c.fab.ifcs[ifcNum i]).stage := by
  simp [Chip.stageOf, Chip.modIfc]

@[simp] theorem Chip.pmcEvt_fab (c : Chip) (u : Fin 2) (sel n : Nat) : (c.pmcEvt u sel n).fab = c.fab := by
  rw [Chip.RegsOnly.pmcEvt c u sel n]

@[simp] theorem Chip.countWr_fab (c : Chip) (i : Ifc) : (c.countWr i).fab = c.fab := by
  unfold Chip.countWr
  split
  · exact c.pmcEvt_fab 0 8 1
  · rfl

section
variable {i : Ifc} {a : Nat} {m d : BitVec 16} {c : Chip} {r : RegDef}

/-- A write of a register below the highest of its wide value is staged (R337). -/
theorem fabWrite_staged (lk : LockSt) (hi : i ≠ .spi1) (hr : mapped a = some r) (hg : c.gate a = 0) (ha : a ≠ lockAddr)
    (hp : postedBlock a = none) (hl : r.place a + 1 < r.wide) (hw : m &&& writable r.fields false ≠ 0) :
    fabWrite i a m d (c, lk) =
      ((((c.countWr i).stageKeep i (a - r.place a)).modIfc i fun y =>
        { y with stage := some (Stage.add y.stage (a - r.place a) (r.place a) m.toNat d.toNat) }, lk), 0) := by
  have hm : m ≠ 0 := by rintro rfl; simp at hw
  have wide : r.wide ≠ 0 := by omega
  simp only [fabWrite, hi, hm, hr, hg, ha, hp, hl, hw, wide, Chip.countWr, if_false, if_true, ne_eq, not_true_eq_false]

/-- A write of the highest register of a wide value commits the value (R337). -/
theorem fabWrite_committed (lk : LockSt) (hi : i ≠ .spi1) (hr : mapped a = some r) (hg : c.gate a = 0) (ha : a ≠ lockAddr)
    (hp : postedBlock a = none) (hl : r.place a + 1 = r.wide) (hw : m &&& writable r.fields false ≠ 0) :
    fabWrite i a m d (c, lk) =
      let x := ((c.countWr i).stageKeep i (a - r.place a)).commit lk.bits i r a m d
      if x.2 then ((x.1.errLog i a 4 true, lk), 2) else ((x.1, lk), 0) := by
  have hm : m ≠ 0 := by rintro rfl; simp at hw
  have wide : r.wide ≠ 0 := by omega
  have last : ¬ r.place a + 1 < r.wide := by omega
  simp only [fabWrite, hi, hm, hr, hg, ha, hp, last, hw, wide, Chip.countWr, if_false, ne_eq, not_true_eq_false]
  rfl

end

/-- A register that lies at place k of a wide value of n registers at a and that software writes as a whole word. -/
def RegDef.wholeAt (a n k : Nat) (d : RegDef) : Bool :=
  d.wide == n && d.place (a + k) == k && writable d.fields false == 0xFFFF &&
    match d.fields with
    | [f] => f.lo == 0 && f.w == 16 && f.acc == .rw && f.min == 0 && f.max == 0xFFFF
    | _ => false
/-- A wide value of n registers at a that software writes whole: neither posted nor with a selector in it. -/
def wholeWide (a n : Nat) : Bool :=
  decide (a / 0x1000 ≠ 8 ∧ a + n < 0x80000) && (List.range n).all fun k =>
    (match mapped (a + k) with | some d => d.wholeAt a n k | none => false) && (postedBlock (a + k)).isNone &&
    decide ((a + k) / 0x1000 = a / 0x1000 ∧ a + k ≠ lockAddr ∧ a + k ≠ FOLIO + FOLIO_OUT_CTL_SEL.off ∧
      a + k ≠ FOLIO + FOLIO_CAP_STAT_SEL.off) && noCombination (a + k)

/-- What `wholeWide` says of the register at one place. -/
structure WholeReg (a n k : Nat) (r : RegDef) : Prop where
  mapped : mapped (a + k) = some r
  wide : r.wide = n
  place : r.place (a + k) = k
  writable : writable r.fields false = 0xFFFF
  fields : ∃ f : FieldDef, r.fields = [f] ∧ f.lo = 0 ∧ f.w = 16 ∧ f.acc = .rw ∧ f.min = 0 ∧ f.max = 0xFFFF
  plain : postedBlock (a + k) = none
  block : (a + k) / 0x1000 = a / 0x1000
  notLock : a + k ≠ lockAddr
  notOut : a + k ≠ FOLIO + FOLIO_OUT_CTL_SEL.off
  notCap : a + k ≠ FOLIO + FOLIO_CAP_STAT_SEL.off
  free : noCombination (a + k) = true

theorem wholeReg_of_wholeWide {a n k : Nat} (h : wholeWide a n = true) (hk : k < n) : ∃ r, WholeReg a n k r := by
  simp only [wholeWide, Bool.and_eq_true, decide_eq_true_eq, List.all_eq_true, List.mem_range] at h
  obtain ⟨_, each⟩ := h
  obtain ⟨⟨⟨whole, plain⟩, block, notLock, notOut, notCap⟩, free⟩ := each k hk
  split at whole
  · next r mapped =>
    simp only [RegDef.wholeAt, Bool.and_eq_true, beq_iff_eq] at whole
    obtain ⟨⟨⟨wide, place⟩, writable⟩, fields⟩ := whole
    refine ⟨r, mapped, wide, place, writable, ?_, Option.isNone_iff_eq_none.mp plain, block, notLock, notOut, notCap, free⟩
    split at fields
    · next f hf =>
      simp only [Bool.and_eq_true, beq_iff_eq] at fields
      obtain ⟨⟨⟨⟨lo, w⟩, acc⟩, min⟩, max⟩ := fields
      exact ⟨f, hf, lo, w, acc, min, max⟩
    · cases fields
  · cases whole

/-- The words of a value at the places below k are staged whole. -/
def Chip.StagedTo (c : Chip) (i : Ifc) (a v k : Nat) : Prop :=
  ∃ s, c.stageOf i = some s ∧ s.base = a ∧ ∀ j < k, ∃ m d, s.words.find? (fun w => w.1 == j) = some (j, m, d) ∧
    BitVec.ofNat 16 m = 0xFFFF ∧ BitVec.ofNat 16 d = wordOf v j

/-- A word written whole covers what was staged in its place before. -/
theorem staged_mask_whole (m : Nat) : BitVec.ofNat 16 (m ||| (0xFFFF#16).toNat) = 0xFFFF := by
  rw [BitVec.ofNat_or, BitVec.ofNat_toNat, BitVec.setWidth_eq]
  exact BitVec.or_allOnes

theorem staged_data_whole (m old : Nat) (w : BitVec 16) :
    BitVec.ofNat 16 ((w.toNat &&& (0xFFFF#16).toNat) ||| (old &&& ((m ||| (0xFFFF#16).toNat) - (0xFFFF#16).toNat))) = w := by
  have rest : BitVec.ofNat 16 ((m ||| (0xFFFF#16).toNat) - (0xFFFF#16).toNat) = 0 := by
    have low := congrArg BitVec.toNat (staged_mask_whole m)
    have whole : (0xFFFF : BitVec 16).toNat = 65535 := by decide
    apply BitVec.eq_of_toNat_eq
    rw [BitVec.toNat_ofNat] at low ⊢
    generalize m ||| (0xFFFF#16).toNat = x at low
    have zero : (0 : BitVec 16).toNat = 0 := by decide
    rw [zero]
    simp only [whole] at low
    have same : (0xFFFF#16).toNat = 65535 := whole
    rw [same]
    omega
  rw [BitVec.ofNat_or, BitVec.ofNat_and, BitVec.ofNat_and, rest, BitVec.ofNat_toNat, BitVec.ofNat_toNat, BitVec.setWidth_eq,
    BitVec.setWidth_eq]
  have all : w &&& 0xFFFF#16 = w := BitVec.and_allOnes
  rw [all]
  simp

/-- A whole word enters the staging buffer beside the words below it. -/
theorem Chip.StagedTo.add {c : Chip} {i : Ifc} {a v k : Nat} (h : k = 0 ∨ c.StagedTo i a v k) :
    ((c.stageKeep i a).modIfc i fun y => { y with stage := some (Stage.add y.stage a k (0xFFFF#16).toNat (wordOf v k).toNat) }).StagedTo
      i a v (k + 1) := by
  refine ⟨_, by rw [Chip.stageOf_modIfc], rfl, fun j hj => ?_⟩
  simp only [Stage.add]
  by_cases hjk : j = k
  · subst hjk
    exact ⟨_, _, List.find?_cons_of_pos (by simp), staged_mask_whole _, staged_data_whole _ _ _⟩
  · obtain ⟨s, hs, hb, words⟩ := h.resolve_left (by omega)
    obtain ⟨m, d, found, hm, hd⟩ := words j (by omega)
    refine ⟨m, d, ?_, hm, hd⟩
    rw [List.find?_cons_of_neg (by simpa using Ne.symm hjk)]
    have kept : ((c.stageKeep i a).fab.ifcs[ifcNum i]).stage = some s := by
      show (c.stageKeep i a).stageOf i = some s
      rw [Chip.stageKeep, Chip.stageOf_modIfc]
      simp [Chip.stageOf] at hs
      simp [hs, hb]
    rw [kept]
    simp only [hb, if_true]
    rw [List.find?_filter]
    rw [← found]
    congr 1
    funext w
    by_cases hw : w.1 = j
    · simp [hw, hjk]
    · simp [hw]

/-- The words of a value at the registers of a wide value, each whole. -/
def wholeWords (a n v : Nat) : List (Nat × BitVec 16 × BitVec 16) := (List.range n).map fun k => (a + k, 0xFFFF, wordOf v k)

/-- Staged words found in order are the words of the value. -/
theorem staged_words_eq (a v : Nat) (f : Nat → Option (Nat × Nat × Nat)) (l : List Nat)
    (h : ∀ j ∈ l, ∃ m d, f j = some (j, m, d) ∧ BitVec.ofNat 16 m = 0xFFFF ∧ BitVec.ofNat 16 d = wordOf v j) :
    ((l.filterMap f).map fun w => (a + w.1, w.2.1, w.2.2)).map (fun w => (w.1, BitVec.ofNat 16 w.2.1, BitVec.ofNat 16 w.2.2)) =
      l.map fun k => (a + k, 0xFFFF, wordOf v k) := by
  induction l with
  | nil => rfl
  | cons j l ih =>
    obtain ⟨m, d, found, hm, hd⟩ := h j List.mem_cons_self
    rw [List.filterMap_cons_some found, List.map_cons, List.map_cons, List.map_cons, ih fun k hk => h k (List.mem_cons_of_mem _ hk), hm, hd]

/-- The words that a commit takes: the staged ones and the highest register's. -/
theorem Chip.commitWords_staged {c : Chip} {i : Ifc} {a v n : Nat} {r : RegDef} (h : c.StagedTo i a v n) (hr : WholeReg a (n + 1) n r) :
    (c.commitWords i r (a + n) (0xFFFF#16).toNat (wordOf v n).toNat).map
      (fun w => (w.1, BitVec.ofNat 16 w.2.1, BitVec.ofNat 16 w.2.2)) = wholeWords a (n + 1) v := by
  obtain ⟨s, hs, hb, words⟩ := h
  have wide : r.wide ≠ 0 := by rw [hr.wide]; omega
  have base : a + n - n = a := Nat.add_sub_cancel ..
  have hs' : c.fab.ifcs[ifcNum i].stage = some s := hs
  unfold Chip.commitWords
  simp only [wide, if_false, hr.place, hs', base, hb, ne_eq, not_false_eq_true, and_self, if_true, List.map_append]
  rw [staged_words_eq a v _ _ fun j hj => words j (List.mem_range.mp hj), wholeWords, List.range_succ, List.map_append]
  simp

theorem Chip.mbLocked_of_block (c : Chip) (i : Ifc) {a : Nat} (h : a / 0x1000 ≠ 8) : c.mbLocked i a = 0 := by
  unfold Chip.mbLocked
  simp [h]

theorem mem_wholeWords {a n v : Nat} {w : Nat × BitVec 16 × BitVec 16} (h : w ∈ wholeWords a n v) :
    ∃ k < n, w = (a + k, 0xFFFF, wordOf v k) := by
  obtain ⟨k, hk, rfl⟩ := List.mem_map.mp h
  exact ⟨k, List.mem_range.mp hk, rfl⟩

theorem Chip.each_congr {α : Type} {l : List α} {f g : Chip → α → Chip} (h : ∀ c, ∀ x ∈ l, f c x = g c x) (c : Chip) :
    c.each l f = c.each l g := by
  induction l generalizing c with
  | nil => rfl
  | cons x l ih =>
    rw [Chip.each, Chip.each, h c x List.mem_cons_self]
    exact ih (fun c y hy => h c y (List.mem_cons_of_mem _ hy)) _

/-- A commit of staged whole words that no lock holds. -/
theorem Chip.commit_staged {c : Chip} {i : Ifc} {a v n : Nat} {r : RegDef} (lk : BitVec 16) (ha : a / 0x1000 ≠ 8)
    (hr : WholeReg a (n + 1) n r) (hb : ∀ k ≤ n, (a + k) / 0x1000 = a / 0x1000) (h : c.StagedTo i a v n)
    (hl : ∀ k ≤ n, lockedBits lk (a + k) = 0) :
    c.commit lk i r (a + n) 0xFFFF (wordOf v n) =
      let o := c.modIfc i fun x => { x with stage := none }
      (Chip.wrote o (o.each (wholeWords a (n + 1) v) fun c w => c.merge w.1 w.2.1 w.2.2) lk (a + n) 0xFFFF (wordOf v n), false) := by
  have wide : r.wide ≠ 0 := by rw [hr.wide]; omega
  have words := Chip.commitWords_staged h hr
  have unlocked : ∀ k ≤ n, ∀ x : BitVec 16, (lockedBits lk (a + k) ||| c.mbLocked i (a + k)) &&& x = 0 := by
    intro k hk x
    rw [hl k hk, c.mbLocked_of_block i (by rw [hb k hk]; exact ha)]
    simp
  have keep : ∀ m x : BitVec 16, x = 0 → m &&& ~~~x = m := by
    rintro m x rfl
    exact BitVec.and_allOnes
  unfold Chip.commit
  extract_lets ws held ign free o m new
  have hws : ws = wholeWords a (n + 1) v := words
  have free_eq : free = wholeWords a (n + 1) v := by
    rw [← hws]
    refine (List.map_congr_left fun w hw => ?_).trans (List.map_id _)
    obtain ⟨k, hk, rfl⟩ := mem_wholeWords (hws ▸ hw)
    exact congrArg (fun b => (a + k, b, wordOf v k)) (keep 0xFFFF _ (unlocked k (by omega) _))
  have ign_eq : ign = false := by
    refine List.any_eq_false.mpr fun w hw => ?_
    obtain ⟨k, hk, rfl⟩ := mem_wholeWords (hws ▸ hw)
    have none : held (a + k) = 0 := unlocked k (by omega) _
    simp [none]
  have some_free : ¬ (free.all fun w => w.2.1 == 0) = true := by
    rw [free_eq]
    intro all
    have := List.all_eq_true.mp all (a + n, 0xFFFF, wordOf v n) (List.mem_map.mpr ⟨n, by simp, rfl⟩)
    simp at this
  have mask : m = 0xFFFF := by
    have none : held (a + n) = 0 := unlocked n (Nat.le_refl n) _
    show o.allowed (a + n) (0xFFFF &&& ~~~held (a + n)) (wordOf v n) = 0xFFFF
    rw [keep _ _ none, Chip.allowed_all _ _ _ _ hr.free]
  have merged : new = o.each (wholeWords a (n + 1) v) fun c w => c.merge w.1 w.2.1 w.2.2 := by
    show o.each free _ = _
    rw [free_eq]
    refine Chip.each_congr (fun c w hw => ?_) o
    obtain ⟨k, hk, rfl⟩ := mem_wholeWords hw
    dsimp only
    rw [mask, ite_self]
  have stage : o = c.modIfc i fun x => { x with stage := none } := if_neg wide
  rw [if_neg some_free, merged, mask, stage, ign_eq]
  have whole : (0xFFFF : BitVec 16) &&& wordOf v n = wordOf v n := BitVec.allOnes_and
  rw [whole]

/-- The staging of one whole word below the highest register of a wide value. -/
theorem fabWrite_stage_whole {i : Ifc} {a v n k : Nat} {c : Chip} {r : RegDef} (lk : LockSt) (hi : i ≠ .spi1)
    (hr : WholeReg a n k r) (hk : k + 1 < n) (hg : c.gate (a + k) = 0) (h : k = 0 ∨ c.StagedTo i a v k) :
    ∃ d : Chip, fabWrite i (a + k) 0xFFFF (wordOf v k) (c, lk) = ((d, lk), 0) ∧ c.Quiet d ∧ d.StagedTo i a v (k + 1) := by
  have base : a + k - k = a := Nat.add_sub_cancel ..
  refine ⟨_, fabWrite_staged lk hi hr.mapped hg hr.notLock hr.plain (by rw [hr.place, hr.wide]; exact hk) ?_, ?_, ?_⟩
  · rw [hr.writable]; decide
  · exact ((Chip.Quiet.countWr c i).trans (Chip.Quiet.modIfc _ i _)).trans (Chip.Quiet.modIfc _ i _)
  · rw [hr.place, base]
    refine Chip.StagedTo.add (h.imp_right fun ⟨s, hs, rest⟩ => ⟨s, ?_, rest⟩)
    rw [Chip.stageOf, Chip.countWr_fab]
    exact hs

/-- The whole words from place k on, as an interface writes them one after the other. -/
theorem writeRun_whole {i : Ifc} {a v n : Nat} (lk : LockSt) (hi : i ≠ .spi1) (ha : wholeWide a (n + 1) = true) (hn : n ≠ 0)
    (hl : ∀ k ≤ n, lockedBits lk.bits (a + k) = 0) (j k : Nat) (hk : k + j = n) (c : Chip) (st : List Nat)
    (hg : ∀ k ≤ n, c.gate (a + k) = 0) (h : k = 0 ∨ c.StagedTo i a v k) :
    ∃ (o : Chip) (st' : List Nat) (e : Nat), c.Quiet o ∧
      writeRun i (c, lk) st (a + k) ((List.range' k (j + 1)).map fun k => (0xFFFF, wordOf v k)) =
        ((Chip.wrote o (o.each (wholeWords a (n + 1) v) fun c w => c.merge w.1 w.2.1 w.2.2) lk.bits (a + n) 0xFFFF (wordOf v n), lk),
          st', e) := by
  have bounds : a + (n + 1) < 0x80000 := by
    simp only [wholeWide, Bool.and_eq_true, decide_eq_true_eq] at ha
    exact ha.1.2
  have block : a / 0x1000 ≠ 8 := by
    simp only [wholeWide, Bool.and_eq_true, decide_eq_true_eq] at ha
    exact ha.1.1
  induction j generalizing k c st with
  | zero =>
    obtain rfl : k = n := by omega
    obtain ⟨r, hr⟩ := wholeReg_of_wholeWide ha (Nat.lt_succ_self k)
    have staged := h.resolve_left hn
    have base : a + k - k = a := Nat.add_sub_cancel ..
    have kept : ((c.countWr i).stageKeep i a).StagedTo i a v k := by
      obtain ⟨s, hs, hb, words⟩ := staged
      refine ⟨s, ?_, hb, words⟩
      have same : c.fab.ifcs[ifcNum i].stage = some s := hs
      simp only [Chip.stageKeep, Chip.stageOf_modIfc, Chip.countWr_fab, same, Option.filter, hb, beq_self_eq_true, if_true]
    have commits := fabWrite_committed (i := i) (c := c) (d := wordOf v k) (m := 0xFFFF) lk hi hr.mapped (hg k (Nat.le_refl _)) hr.notLock
      hr.plain (by rw [hr.place, hr.wide]) (by rw [hr.writable]; decide)
    rw [hr.place, base] at commits
    rw [Chip.commit_staged lk.bits block hr (fun m hm => ?_) kept hl] at commits
    · refine ⟨_, _, _, ?_, by rw [List.range'_one, List.map_singleton, writeRun, writeRun, commits]; rfl⟩
      exact ((Chip.Quiet.countWr c i).trans (Chip.Quiet.modIfc _ i _)).trans (Chip.Quiet.modIfc _ i _)
    · obtain ⟨r', hr'⟩ := wholeReg_of_wholeWide ha (show m < k + 1 by omega)
      exact hr'.block
  | succ j ih =>
    obtain ⟨r, hr⟩ := wholeReg_of_wholeWide ha (show k < n + 1 by omega)
    obtain ⟨d, step, quiet, staged⟩ := fabWrite_stage_whole lk hi hr (by omega) (hg k (by omega)) h
    obtain ⟨o, st', e, quiet', run⟩ := ih (k + 1) (by omega) d (d.statusByte (a + k) 0 :: st)
      (fun m hm => (quiet.gate _).trans (hg m hm)) (.inr staged)
    refine ⟨o, st', e, quiet.trans quiet', ?_⟩
    have next : nextAddr (a + k) = a + (k + 1) := by
      simp only [nextAddr]
      omega
    rw [List.range'_succ, List.map_cons, writeRun, step]
    dsimp only
    rw [next]
    exact run

/-- A whole value written at the registers of a wide value that no lock holds: the words merge, then the write acts in its block. -/
theorem accWrite_wholeWords {i : Ifc} {a v n : Nat} {x : Both} (hs : x.1.serves i = true) (hi : i ≠ .spi1)
    (ha : wholeWide a (n + 1) = true) (hn : n ≠ 0) (hl : ∀ k ≤ n, lockedBits x.2.bits (a + k) = 0)
    (hg : ∀ k ≤ n, x.1.gate (a + k) = 0) :
    ∃ (o : Chip) (f : IfcSt → IfcSt), x.1.Quiet o ∧
      accWrite i a (wideWords v (n + 1)) x =
        ((Chip.wrote o (o.each (wholeWords a (n + 1) v) fun c w => c.merge w.1 w.2.1 w.2.2) x.2.bits (a + n) 0xFFFF
          (wordOf v n)).modIfc i f, x.2) := by
  obtain ⟨o, st, e, quiet, run⟩ := writeRun_whole (v := v) (c := x.1) (st := []) x.2 hi ha hn hl n 0 (by omega) hg (.inl rfl)
  have words : wideWords v (n + 1) = (List.range' 0 (n + 1)).map fun k => (0xFFFF, wordOf v k) := by
    rw [wideWords, List.range_eq_range']
  refine ⟨o, fun y => { y with resp := st.reverse.flatMap (be 1) }, quiet, ?_⟩
  rw [accWrite, if_pos hs, words]
  have run' : writeRun i x [] a ((List.range' 0 (n + 1)).map fun k => (0xFFFF, wordOf v k)) = _ := run
  rw [run']
  rfl

/-- A whole word replaces the register that the address names. -/
theorem Chip.merge_whole {a n k : Nat} {r : RegDef} (hr : WholeReg a n k r) (c : Chip) (w : BitVec 16) :
    c.merge (a + k) 0xFFFF w = c.setReg (c.keyOf (a + k)) w := by
  obtain ⟨f, fields, lo, width, acc, min, max⟩ := hr.fields
  have word : ∀ x, mergeWord r.fields 0xFFFF w x = w := by
    intro x
    have all : (0xFFFF : BitVec 16) &&& fieldMask 0 16 = 0xFFFF := by decide
    have none : x &&& ~~~(0xFFFF : BitVec 16) = 0 := BitVec.and_zero
    have whole : w &&& (0xFFFF : BitVec 16) = w := BitVec.and_allOnes
    have only : (0 : BitVec 16) ||| w = w := BitVec.zero_or
    have range : 0 ≤ w.toNat / 2 ^ 0 % 2 ^ 16 ∧ w.toNat / 2 ^ 0 % 2 ^ 16 ≤ 0xFFFF := ⟨Nat.zero_le _, by omega⟩
    rw [fields]
    simp only [mergeWord, List.foldl_cons, List.foldl_nil, fieldWrite, acc, lo, width, min, max]
    rw [all, none, whole, only, if_pos range]
  unfold Chip.merge
  simp only [hr.mapped, hr.notOut, hr.notCap, or_self, if_false, word]

/-- Whole words merged one after the other put the value in the registers that the addresses name. -/
theorem Chip.each_wholeWords {a n K : Nat} (v : Nat) (ha : wholeWide a n = true) (P : Chip → Prop)
    (hP : ∀ d, P d → ∀ k < n, ∀ w, d.keyOf (a + k) = K + k ∧ P (d.setReg (K + k) w)) (c : Chip) (hc : P c) :
    (c.each (wholeWords a n v) fun c w => c.merge w.1 w.2.1 w.2.2) = c.putWide K n v := by
  suffices h : ∀ m k, k + m = n → ∀ c : Chip, P c →
      (c.each ((List.range' k m).map fun k => (a + k, (0xFFFF : BitVec 16), wordOf v k)) fun c w => c.merge w.1 w.2.1 w.2.2) =
        c.putWide (K + k) m (v / 2 ^ (16 * k)) by
    rw [wholeWords, List.range_eq_range', h n 0 (by omega) c hc]
    simp
  intro m
  induction m with
  | zero => intros; rfl
  | succ m ih =>
    intro k hk c hc
    obtain ⟨r, hr⟩ := wholeReg_of_wholeWide ha (show k < n by omega)
    obtain ⟨key, stays⟩ := hP c hc k (by omega) (wordOf v k)
    rw [List.range'_succ, List.map_cons, Chip.each, Chip.putWide, Chip.merge_whole hr, key, ih (k + 1) (by omega) _ stays,
      Nat.div_div_eq_div_mul, ← Nat.pow_add]
    rfl

end Sys2Proof.Machine
end

section
/-! What a write of RATE leaves, by software and by the servo (06_folio_time.md R194, R197). -/

namespace Sys2Proof.Machine

theorem signed_unsigned_clip (v : Int) :
    signed 48 (unsigned 48 (max (-rateMax) (min rateMax v)) % 2 ^ 48) = max (-rateMax) (min rateMax v) := by
  simp only [signed, unsigned, rateMax]
  omega

theorem signed_toNat (v : BitVec 48) : signed 48 v.toNat = v.toInt := by
  have small := v.isLt
  rw [BitVec.toInt_eq_toNat_cond, signed, Nat.mod_eq_of_lt small]
  split <;> split <;> omega

/-- The registers and the base of RATE's history apart, setting RATE touches nothing. -/
theorem Chip.setRate_regs (c : Chip) (v : Int) :
    (c.setRate v).regs = (if max (-rateMax) (min rateMax v) = v then c.putWide (FOLIO + FOLIO_RATE_RATE.off) 3 (unsigned 48 (max (-rateMax) (min rateMax v)))
      else (c.putWide (FOLIO + FOLIO_RATE_RATE.off) 3 (unsigned 48 (max (-rateMax) (min rateMax v)))).evt FOLIO FOLIO_EVT_RATE_LIMIT).regs := by
  unfold Chip.setRate
  extract_lets w c1 c2
  split
  · rfl
  · rfl

theorem Chip.wide_setRate (c : Chip) (v : Int) :
    (c.setRate v).wide (FOLIO + FOLIO_RATE_RATE.off) 3 = unsigned 48 (max (-rateMax) (min rateMax v)) % 2 ^ 48 := by
  rw [Chip.wide_congr (c.setRate_regs v)]
  split
  · exact Chip.wide_putWide ..
  · rw [← Chip.wide_putWide c (FOLIO + FOLIO_RATE_RATE.off) 3]
    simp [Chip.wide, Chip.evt, Chip.reg_put_ne]

theorem Chip.rate_setRate (c : Chip) (v : Int) : (c.setRate v).rate = max (-rateMax) (min rateMax v) := by
  rw [Chip.rate, Chip.wide_setRate, signed_unsigned_clip]

theorem Chip.rateLimit_setRate (c : Chip) (v : Int) :
    (c.setRate v).on FOLIO FOLIO_EVT_RATE_LIMIT = (c.on FOLIO FOLIO_EVT_RATE_LIMIT || decide (max (-rateMax) (min rateMax v) ≠ v)) := by
  have before : ∀ u, (c.putWide (FOLIO + FOLIO_RATE_RATE.off) 3 u).get FOLIO FOLIO_EVT_RATE_LIMIT = c.get FOLIO FOLIO_EVT_RATE_LIMIT := by
    intro u
    simp only [Chip.get]
    rw [Chip.reg_putWide_ne _ _ _ _ _ (by decide)]
  simp only [Chip.on]
  rw [Chip.get_congr (c.setRate_regs v)]
  split
  · next h => simp [h, before]
  · next h => simp [h, Chip.evt, Chip.get_put]

theorem wholeWide_rate : wholeWide (FOLIO + FOLIO_RATE_RATE.off) 3 = true := by decide +kernel

theorem lockedBits_rate (lk : BitVec 16) {k : Nat} (hk : k ≤ 2) : lockedBits lk (FOLIO + FOLIO_RATE_RATE.off + k) = 0 := by
  have cases : k = 0 ∨ k = 1 ∨ k = 2 := by omega
  rcases cases with rfl | rfl | rfl <;> simp [lockedBits, REGB, HGRP, FOLIO, SPINE]

theorem Chip.gate_rate (c : Chip) {k : Nat} (hk : k ≤ 2) : c.gate (FOLIO + FOLIO_RATE_RATE.off + k) = c.gate FOLIO := by
  have cases : k = 0 ∨ k = 1 ∨ k = 2 := by omega
  rcases cases with rfl | rfl | rfl <;> rfl

/-- RATE_WRITE of a served interface while Folio is clocked: the chip with the value in the registers, as the write leaves it. -/
theorem exec_rateWrite {s : State} {i : Ifc} (v : BitVec 48) (hs : s.chip.serves i = true) (hi : i ≠ .spi1)
    (hg : s.chip.gate FOLIO = 0) :
    ∃ (o : Chip) (f : IfcSt → IfcSt), s.chip.Quiet o ∧
      exec (.rateWrite i v) s =
        .next (s.on ((Chip.rateWritten o (o.putWide (FOLIO + FOLIO_RATE_RATE.off) 3 v.toNat)).modIfc i f)) := by
  obtain ⟨o, f, quiet, run⟩ := accWrite_wholeWords (i := i) (a := FOLIO + FOLIO_RATE_RATE.off) (v := v.toNat) (n := 2)
    (x := (s.chip, s.lock)) hs hi wholeWide_rate (by decide) (fun k hk => lockedBits_rate _ hk)
    (fun k hk => (Chip.gate_rate _ hk).trans hg)
  have stored := o.each_wholeWords (K := FOLIO + FOLIO_RATE_RATE.off) v.toNat wholeWide_rate (fun _ => True)
    (fun d _ k hk _ => by
      have cases : k = 0 ∨ k = 1 ∨ k = 2 := by omega
      refine ⟨?_, trivial⟩
      rcases cases with rfl | rfl | rfl <;> rfl) trivial
  refine ⟨o, f, quiet, ?_⟩
  show s.actL (accWrite i (FOLIO + FOLIO_RATE_RATE.off) (wideWords v.toNat 3)) = _
  rw [State.actL, run, stored]
  rfl

section
variable {s : State} {i : Ifc} (v : BitVec 48) (hs : s.chip.serves i = true) (hi : i ≠ .spi1) (hg : s.chip.gate FOLIO = 0)
include hs hi hg

/-- A write of RATE in the TPLL cycle of a servo update is lost (R197). -/
theorem exec_rateWrite_lost (hf : s.chip.frozen = false) (hr : s.chip.folio.rateAt = some s.chip.tpll) :
    ∃ t, exec (.rateWrite i v) s = .next t ∧ t.chip.rate = s.chip.rate ∧
      t.chip.on FOLIO FOLIO_EVT_RATE_LIMIT = s.chip.on FOLIO FOLIO_EVT_RATE_LIMIT := by
  obtain ⟨o, f, quiet, run⟩ := exec_rateWrite v hs hi hg
  have lost : o.frozen = false ∧ o.folio.rateAt = some o.tpll := by
    refine ⟨?_, by rw [quiet.folio, quiet.tpll, hr]⟩
    rw [← hf, Chip.frozen, Chip.frozen, Chip.on, Chip.on, quiet.get (by decide)]
  refine ⟨_, run, ?_, ?_⟩
  · have back : ((o.putWide (FOLIO + FOLIO_RATE_RATE.off) 3 v.toNat).putWide (FOLIO + FOLIO_RATE_RATE.off) 3
        (o.wide (FOLIO + FOLIO_RATE_RATE.off) 3)).rate = s.chip.rate := by
      rw [Chip.rate, Chip.rate, Chip.wide_putWide, quiet.wide (by decide)]
      simp only [signed, Nat.mul_comm, Nat.reduceMul, Nat.mod_mod]
    rw [Chip.rateWritten, if_pos lost]
    exact back
  · rw [Chip.rateWritten, if_pos lost]
    refine (congrArg (· == 1) (Chip.get_congr (Chip.modIfc_regs _ i f) FOLIO FOLIO_EVT_RATE_LIMIT)).trans ?_
    simp only [Chip.on, Chip.get]
    rw [Chip.reg_putWide_ne _ _ _ _ _ (by decide), Chip.reg_putWide_ne _ _ _ _ _ (by decide), quiet.reg _ (by decide)]

/-- Any other write of RATE clips it. -/
theorem exec_rateWrite_taken (h : s.chip.frozen = true ∨ s.chip.folio.rateAt ≠ some s.chip.tpll) :
    ∃ c, exec (.rateWrite i v) s = .next (s.on c) ∧ ∃ o : Chip, s.chip.Quiet o ∧
      c.regs = ((o.putWide (FOLIO + FOLIO_RATE_RATE.off) 3 v.toNat).setRate (signed 48 v.toNat)).regs := by
  obtain ⟨o, f, quiet, run⟩ := exec_rateWrite v hs hi hg
  have taken : ¬ (o.frozen = false ∧ o.folio.rateAt = some o.tpll) := by
    have same : o.frozen = s.chip.frozen := by rw [Chip.frozen, Chip.frozen, Chip.on, Chip.on, quiet.get (by decide)]
    rw [same, quiet.folio, quiet.tpll]
    rcases h with h | h
    · simp [h]
    · simp [h]
  refine ⟨_, run, o, quiet, ?_⟩
  have value : (o.putWide (FOLIO + FOLIO_RATE_RATE.off) 3 v.toNat).wide (FOLIO + FOLIO_RATE_RATE.off) 3 = v.toNat := by
    rw [Chip.wide_putWide, Nat.mod_eq_of_lt v.isLt]
  rw [Chip.rateWritten, if_neg taken, value]
  rfl

end

/-- Settles O36: every value written to RATE comes within ±500 ppm, RATE_LIMIT says whether it had to, and a write in the TPLL
cycle of a servo update is lost unless FREEZE is set. -/
theorem rateIsClipped : Obligations.RateIsClipped := by
  refine ⟨fun c v => ⟨c.rate_setRate v, c.rateLimit_setRate v⟩, fun s i v hs hi hg hf hr => exec_rateWrite_lost v hs hi hg hf hr,
    fun s i v hs hi hg h => ?_⟩
  obtain ⟨c, run, o, quiet, regs⟩ := exec_rateWrite_taken v hs hi hg h
  refine ⟨_, run, ?_, ?_⟩
  · show c.rate = _
    rw [Chip.rate, Chip.wide_congr regs, ← Chip.rate, Chip.rate_setRate, signed_toNat]
  · have limit : (o.putWide (FOLIO + FOLIO_RATE_RATE.off) 3 v.toNat).on FOLIO FOLIO_EVT_RATE_LIMIT = s.chip.on FOLIO FOLIO_EVT_RATE_LIMIT := by
      simp only [Chip.on, Chip.get]
      rw [Chip.reg_putWide_ne _ _ _ _ _ (by decide), quiet.reg _ (by decide)]
    have clips : (max (-rateMax) (min rateMax v.toInt) ≠ v.toInt) ↔ (v.toInt < -36028797018964 ∨ 36028797018964 < v.toInt) := by
      simp only [rateMax]
      omega
    show c.on FOLIO FOLIO_EVT_RATE_LIMIT = _
    rw [Chip.on, Chip.get_congr regs, ← Chip.on, Chip.rateLimit_setRate, signed_toNat, limit]
    exact congrArg _ (decide_eq_decide.mpr clips)

end Sys2Proof.Machine
end

section
/-! Captured edges and failed level changes (06_folio_time.md R223, 12_clocks.md R417). -/

namespace Sys2Proof.Machine

/-- A change of one capture input leaves the others. -/
theorem Chip.modCap_caps_ne (c : Chip) {i j : Fin 4} (f : CapSt → CapSt) (h : j ≠ i) : (c.modCap i f).folio.caps[j] = c.folio.caps[j] := by
  have apart : i.val ≠ j.val := fun e => h (Fin.ext e.symm)
  exact Vector.getElem_set_ne i.isLt j.isLt apart

theorem Chip.modCap_caps_same (c : Chip) (i : Fin 4) (f : CapSt → CapSt) : (c.modCap i f).folio.caps[i] = f c.folio.caps[i] := by
  exact Vector.getElem_set_self _

section
variable {s : State} {i : Fin 4} {rising : Bool} (frac : Nat) (clocked : s.chip.folioClk = true)
  (selected : if rising then s.chip.get FOLIO FOLIO_CAP_CTL_EDGE / 4 ^ i.val % 4 % 2 = 1
    else s.chip.get FOLIO FOLIO_CAP_CTL_EDGE / 4 ^ i.val % 4 / 2 = 1) (source : s.chip.get FOLIO FOLIO_CTL_SRC ≠ 3)
include clocked selected source

/-- A selected edge with room in its queue adds its stamp. -/
theorem exec_captureEdge_queued (room : s.chip.folio.caps[i].queue.length < 8) :
    exec (.captureEdge i rising frac) s = .next (s.on (s.chip.tickFree.modCap i fun x => { x with queue := x.queue ++
      [((((s.chip.now + frac : Nat) : Int) - s.chip.latCap + ((Config.jitter s.chip.freeCtr).val : Int) - 16384).toNat, rising)] })) := by
  have heard : ¬ (s.chip.folioClk = false ∨ (if rising then s.chip.get FOLIO FOLIO_CAP_CTL_EDGE / 4 ^ i.val % 4 % 2 = 0
      else s.chip.get FOLIO FOLIO_CAP_CTL_EDGE / 4 ^ i.val % 4 / 2 = 0)) := by
    rw [clocked]
    cases rising <;> simp_all
  have room' : s.chip.tickFree.folio.caps[i].queue.length < 8 := room
  show execCaptureEdge i rising frac s = _
  rw [execCaptureEdge, State.act, if_neg heard]
  dsimp only
  rw [if_pos room', if_neg fun h => source h.2.1]

/-- A selected edge that finds eight stamps is dropped. -/
theorem exec_captureEdge_dropped (full : 8 ≤ s.chip.folio.caps[i].queue.length) :
    exec (.captureEdge i rising frac) s =
      .next (s.on ((s.chip.tickFree.put (bk i.val FOLIO) FOLIO_CAP_STAT_OVF 1).evt FOLIO FOLIO_EVT_CAP_OVF)) := by
  have heard : ¬ (s.chip.folioClk = false ∨ (if rising then s.chip.get FOLIO FOLIO_CAP_CTL_EDGE / 4 ^ i.val % 4 % 2 = 0
      else s.chip.get FOLIO FOLIO_CAP_CTL_EDGE / 4 ^ i.val % 4 / 2 = 0)) := by
    rw [clocked]
    cases rising <;> simp_all
  have full' : ¬ s.chip.tickFree.folio.caps[i].queue.length < 8 := Nat.not_lt.mpr full
  have kept : ((s.chip.tickFree.put (bk i.val FOLIO) FOLIO_CAP_STAT_OVF 1).evt FOLIO FOLIO_EVT_CAP_OVF).get FOLIO FOLIO_CTL_SRC ≠ 3 := by
    rw [Chip.evt, Chip.get_put_apart _ _ _ _ _ _ (by decide), Chip.get_put_apart _ _ _ _ _ _ (by fin_cases i <;> decide)]
    exact source
  show execCaptureEdge i rising frac s = _
  rw [execCaptureEdge, State.act, if_neg heard]
  dsimp only
  rw [if_neg full', if_neg fun h => kept h.2.1]

end

/-- Settles O37: a selected edge joins a queue of less than eight stamps, and else only sets the two overflow bits. -/
theorem captureQueueHoldsEight : Obligations.CaptureQueueHoldsEight := by
  intro s i rising frac c q sel clocked selected source
  by_cases room : q.length < 8
  · refine ⟨_, exec_captureEdge_queued frac clocked selected source room, fun j hj => Chip.modCap_caps_ne _ _ hj, fun _ => ⟨?_, rfl⟩,
      fun full => absurd full (by omega)⟩
    exact ⟨_, congrArg CapSt.queue (Chip.modCap_caps_same _ i _)⟩
  · have full : 8 ≤ q.length := Nat.not_lt.mp room
    refine ⟨_, exec_captureEdge_dropped frac clocked selected source full, fun _ _ => rfl, fun h => absurd h room, fun _ => ⟨rfl, ?_, ?_⟩⟩
    · show Chip.on _ _ _ = true
      rw [Chip.on, Chip.evt, Chip.get_put_apart, Chip.get_put]
      · rfl
      · decide
      · fin_cases i <;> decide
    · show Chip.on _ _ _ = true
      rw [Chip.on, Chip.evt, Chip.get_put _ _ _ _ (by decide)]
      rfl

/-- The fields of CLK_LEVEL and CLK_EVT lie apart. -/
theorem Chip.vhigh_levelStart (c : Chip) (t : Nat) : (c.levelStart t).get CLK CLK_LEVEL_VHIGH = c.get CLK CLK_LEVEL_VHIGH := by
  unfold Chip.levelStart
  dsimp only
  split
  · rfl
  · rw [Chip.get_put_apart _ _ _ _ _ _ (by decide)]
    split <;> rfl

/-- A level change that ends clears VHIGH, even if the next one begins at once. -/
theorem Chip.vhigh_pgoodHigh {c : Chip} {n : Nat} (h : c.clk.levelTo = some n) : c.pgoodHigh.on CLK CLK_LEVEL_VHIGH = false := by
  unfold Chip.pgoodHigh
  rw [h]
  dsimp only
  have cleared : ∀ d : Chip, ((d.put CLK CLK_LEVEL_VHIGH 0).evt CLK CLK_EVT_LEVEL_DONE).get CLK CLK_LEVEL_VHIGH = 0 := fun d => by
    rw [Chip.evt, Chip.get_put_apart _ _ _ _ _ _ (by decide), Chip.get_put _ _ _ _ (by decide), Nat.zero_mod]
  split
  · rw [Chip.on, Chip.vhigh_levelStart, cleared]
    rfl
  · rw [Chip.on, cleared]
    rfl

/-- Settles O39: PGOOD_TIMEOUT leaves the lower level's divisions under the higher level's voltage, with VHIGH until a change
completes; that the level written meanwhile is dropped is the model's choice (log entry 139). -/
theorem failedLevelChangeKeepsTheHigherVoltage : Obligations.FailedLevelChangeKeepsTheHigherVoltage := by
  intro s n
  dsimp only
  intro target small
  refine ⟨⟨s.on s.chip.pgoodTimeout, rfl, ?_⟩, s.on s.chip.pgoodHigh, rfl, Chip.vhigh_pgoodHigh target⟩
  have level : min n (s.chip.get CLK CLK_LEVEL_ACTUAL) % 4 = min n (s.chip.get CLK CLK_LEVEL_ACTUAL) := Nat.mod_eq_of_lt (by omega)
  rw [Chip.pgoodTimeout, target]
  refine ⟨rfl, rfl, rfl, fun running => ?_, ?_⟩
  · show (if s.chip.halted then _ else _) = _
    rw [running]
    rfl
  · simp (disch := decide) [Chip.on, Chip.evt, Chip.get_put_apart, Chip.get_put, level]

end Sys2Proof.Machine
end

section
/-! What a Roll engine holds, event by event (15_self_test_and_faults.md R491, R493). -/

namespace Sys2Proof.Machine

/-- An engine holds at most four frames, of at most 16,384 bytes together (R493). -/
def RollSt.Bounded (r : RollSt) : Prop := r.held.length ≤ 4 ∧ (r.held.map fun h => h.bytes.length).sum ≤ 16384

namespace RollSt

theorem room_iff (r : RollSt) (n : Nat) :
    r.room n = true ↔ r.held.length + 1 ≤ 4 ∧ (r.held.map fun h => h.bytes.length).sum + n ≤ 16384 := by
  rw [room, decide_eq_true_eq, List.sum_eq_foldl, List.foldl_map]

/-- A frame for which there is room is held beside the others. -/
theorem bounded_of_room {r r' : RollSt} {b : Bytes} {f : RollHeld} (h : r.room b.length = true) (hf : f.bytes = b) (hr : r'.held = r.held ++ [f]) :
    r'.Bounded := by
  obtain ⟨count, size⟩ := (r.room_iff _).mp h
  unfold Bounded
  rw [hr]
  simp only [List.length_append, List.length_singleton, List.map_append, List.map_singleton, List.sum_append, List.sum_singleton, hf]
  exact ⟨count, size⟩

section
variable {r : RollSt} (h : r.Bounded)
include h

/-- Frames leave, none comes. -/
theorem pass_bounded (fs : List Bytes) : (r.pass fs).Bounded := by
  unfold pass
  split
  · exact h
  · have lengths : (r.held.map fun x => { x with left := x.left - fs.length }).map (fun x => x.bytes.length) = r.held.map fun x => x.bytes.length := by
      rw [List.map_map]
      rfl
    refine ⟨(List.length_filter_le _ _).trans (by rw [List.length_map]; exact h.1), ?_⟩
    refine (List.Sublist.sum_le_sum (List.filter_sublist.map _) fun _ _ => Nat.zero_le _).trans ?_
    rw [lengths]
    exact h.2

theorem later_bounded (b : Bytes) : (r.later b).Bounded := by
  unfold later
  split
  · split
    · next room => exact bounded_of_room room rfl rfl
    · exact h
  · exact pass_bounded h _

theorem act_bounded {op param : Nat} {fix : Bool} {b : Bytes} {r' : RollSt} (hr : r.act op param fix b = some r') : r'.Bounded := by
  unfold act at hr
  split at hr
  · cases hr
    exact pass_bounded h _
  · cases hr
    split
    · exact later_bounded h _
    · exact pass_bounded h _
  · obtain ⟨_, hr⟩ := Option.ite_none_right_eq_some.mp hr
    cases hr
    exact pass_bounded h _
  · obtain ⟨room, hr⟩ := Option.ite_none_right_eq_some.mp hr
    cases hr
    exact bounded_of_room room rfl rfl
  · obtain ⟨room, hr⟩ := Option.ite_none_right_eq_some.mp hr
    cases hr
    exact bounded_of_room room rfl rfl
  · cases hr

end
end RollSt

/-- Each engine within the bounds at c is within them at d. -/
def Chip.RollBounds (c d : Chip) : Prop := ∀ k : Fin 26, (c.bist.engines[k]).Bounded → (d.bist.engines[k]).Bounded

namespace Chip.RollBounds

theorem refl (c : Chip) : c.RollBounds c := fun _ h => h

theorem trans {c d e : Chip} (h : c.RollBounds d) (g : d.RollBounds e) : c.RollBounds e := fun k hk => g k (h k hk)

/-- A change of one engine that keeps its bounds. -/
theorem modRoll (c : Chip) (e : Fin 26) {f : RollSt → RollSt} (hf : (c.bist.engines[e]).Bounded → (f c.bist.engines[e]).Bounded) :
    c.RollBounds (c.modRoll e f) := by
  intro k hk
  show ((c.bist.engines.set e.val (f c.bist.engines[e]))[k]).Bounded
  by_cases same : k = e
  · subst same
    have : (c.bist.engines.set k.val (f c.bist.engines[k]))[k] = f c.bist.engines[k] := Vector.getElem_set_self k.isLt
    rw [this]
    exact hf hk
  · have : (c.bist.engines.set e.val (f c.bist.engines[e]))[k] = c.bist.engines[k] :=
      Vector.getElem_set_ne e.isLt k.isLt fun h => same (Fin.ext h.symm)
    rw [this]
    exact hk

/-- A change of an engine's other fields. -/
theorem modRoll_held (c : Chip) (e : Fin 26) {f : RollSt → RollSt} (hf : ∀ r, (f r).held = r.held) : c.RollBounds (c.modRoll e f) :=
  modRoll c e fun h => by
    unfold RollSt.Bounded
    rw [hf]
    exact h

theorem rollBump (c : Chip) (e : Fin 26) (off : Nat) : c.RollBounds (c.rollBump e off) := fun k hk => by
  unfold Chip.rollBump
  rw [Chip.putWide_bist]
  exact hk

theorem rollActs (c : Chip) (e : Fin 26) : c.RollBounds (c.rollActs e).1 := by
  unfold Chip.rollActs
  dsimp only
  split
  · exact modRoll_held c e (f := fun r => { r with lfsr := rollStep c.bist.engines[e].lfsr }) fun _ => rfl
  · exact modRoll_held c e (f := fun r => { r with count := c.bist.engines[e].count + 1 }) fun _ => rfl

theorem later (c : Chip) (e : Fin 26) (b : Bytes) : c.RollBounds (c.modRoll e fun r => r.later b) :=
  modRoll c e fun h => RollSt.later_bounded h b

/-- An event that counts as a hit and changes what leaves the engine alone. -/
theorem altered (c : Chip) (e : Fin 26) (n : Nat) : c.RollBounds ((c.modRoll e fun r => { r with altered := n }).rollBump e ROLL_HITS_COUNT.off) :=
  (modRoll_held c e (f := fun r => { r with altered := n }) fun _ => rfl).trans (rollBump _ e _)

/-- A frame event that the engine acts on, or would but for the bounds. -/
theorem acted (c : Chip) (e : Fin 26) (op param : Nat) (fix : Bool) (f : Bytes) :
    c.RollBounds (match c.bist.engines[e].act op param fix f with
      | some r => (c.modRoll e fun _ => r).rollBump e ROLL_HITS_COUNT.off
      | none => (c.modRoll e fun r => r.later f).rollBump e ROLL_SKIP_COUNT.off) := by
  split
  · next r hr => exact (modRoll c e fun h => RollSt.act_bounded h hr).trans (rollBump _ _ _)
  · exact (later c e f).trans (rollBump _ _ _)

end Chip.RollBounds

theorem exec_rollEngineEvent_bounds (s : State) (e : Fin 26) (ev : RollEvt) :
    ∃ c, exec (.rollEngineEvent e ev) s = .next (s.on c) ∧ s.chip.RollBounds c := by
  refine ⟨_, rfl, ?_⟩
  dsimp only
  split
  · cases ev with
    | frame _ _ f => exact Chip.RollBounds.modRoll_held _ e fun _ => rfl
    | _ => exact Chip.RollBounds.refl _
  split
  · cases ev with
    | frame _ _ f =>
      dsimp only
      split
      · exact Chip.RollBounds.later _ e f
      · exact Chip.RollBounds.modRoll_held _ e fun _ => rfl
    | _ => exact Chip.RollBounds.refl _
  refine (Chip.RollBounds.rollActs _ e).trans ?_
  cases ev with
  | frame _ _ f =>
    dsimp only
    split
    · exact Chip.RollBounds.acted _ e _ _ _ f
    · exact Chip.RollBounds.later _ e f
  | _ =>
    dsimp only
    split
    · exact Chip.RollBounds.altered _ e _
    · exact Chip.RollBounds.refl _

/-- Settles O43, for ROLL_ENGINE_EVENT, the command that the statement is about. -/
theorem rollEnginesHoldAtMostFourFrames : Obligations.RollEnginesHoldAtMostFourFrames := by
  intro s t e k ev size run count bytes
  obtain ⟨c, run', bounds⟩ := exec_rollEngineEvent_bounds s e ev
  rw [run'] at run
  cases run
  exact bounds k ⟨count, bytes⟩

end Sys2Proof.Machine
end

section
/-! Counters of 48 bit and their wrap bits (16_counters.md R496, R497), and the sources of a wake (13_power_and_reset.md R432). -/

namespace Sys2Proof.Machine

/-- The bits of a register under a write of one of its bits. -/
theorem Chip.getLsbD_putBit (c : Chip) (a k : Nat) (hk : k < 16) (v : Bool) :
    ((c.putBit a ⟨0, 0, 16⟩ k v).reg a).getLsbD k = v := by
  simp only [Chip.putBit, Chip.put, Nat.add_zero, Chip.reg_setReg_same, Nat.zero_add]
  rw [splice_getLsbD]
  cases v <;> simp [hk]

/-- The registers below those of the wrap bits. -/
theorem Chip.bump_reg_below (c : Chip) {a w k n x : Nat} (h : x < a + 4 * k ∨ a + 4 * k + 3 ≤ x) (hx : x < w) : (c.bump a w k n).reg x = c.reg x := by
  unfold Chip.bump
  dsimp only
  split
  · exact Chip.reg_putWide_ne _ _ _ _ _ h
  · rw [Chip.putBit, Chip.reg_put_ne _ _ _ _ _ (by simp only; omega), Chip.reg_putWide_ne _ _ _ _ _ h]

/-- Three registers below those of the wrap bits. -/
theorem Chip.wide_three {c d : Chip} {a : Nat} (h : ∀ j < 3, c.reg (a + j) = d.reg (a + j)) : c.wide a 3 = d.wide a 3 := by
  have h0 := h 0 (by omega)
  have h1 := h 1 (by omega)
  have h2 := h 2 (by omega)
  simp only [Chip.wide, Nat.add_zero, Nat.add_assoc] at *
  rw [h0, h1, h2]

section
variable (c : Chip) {a w k : Nat} (n : Nat) (below : a + 4 * k + 3 ≤ w)
include below

theorem Chip.bump_value : (c.bump a w k n).wide (a + 4 * k) 3 = (c.wide (a + 4 * k) 3 + n) % 2 ^ 48 := by
  have value := Chip.wide_putWide c (a + 4 * k) 3 ((c.wide (a + 4 * k) 3 + n) % 2 ^ 48)
  rw [Nat.mod_mod] at value
  rw [← value]
  refine Chip.wide_three fun j hj => ?_
  unfold Chip.bump
  dsimp only
  split
  · rfl
  · rw [Chip.putBit, Chip.reg_put_ne _ _ _ _ _ (by simp only; omega)]

theorem Chip.bump_wrapped : ((c.bump a w k n).reg (w + k / 16)).getLsbD (k % 16) =
    ((c.reg (w + k / 16)).getLsbD (k % 16) || decide (2 ^ 48 ≤ c.wide (a + 4 * k) 3 + n)) := by
  unfold Chip.bump
  dsimp only
  split
  · next h =>
    rw [Chip.reg_putWide_ne _ _ _ _ _ (by omega), decide_eq_false (by omega), Bool.or_false]
  · next h =>
    rw [Chip.getLsbD_putBit _ _ _ (Nat.mod_lt _ (by decide)), decide_eq_true (by omega), Bool.or_true]

end

theorem Chip.bump_others (c : Chip) {a w k j : Nat} (n : Nat) (hj : j ≠ k) (hw : a + 4 * j + 3 ≤ w) :
    (c.bump a w k n).wide (a + 4 * j) 3 = c.wide (a + 4 * j) 3 :=
  Chip.wide_three fun _ _ => Chip.bump_reg_below _ (by omega) (by omega)

/-- Settles O42: in every area, as long as the counters lie below their wrap registers. -/
theorem countersWrapWithTheirBit : Obligations.CountersWrapWithTheirBit := fun c _ _ _ n _ below _ =>
  ⟨c.bump_value n below, c.bump_wrapped n below, fun _ hj hw => c.bump_others n hj hw⟩

/-- The later of two sources found: the one with the lower code. -/
def lowerSource (a : Option (Nat × Nat)) (x : Nat × Nat) : Option (Nat × Nat) :=
  match a with
  | some y => if x.1 < y.1 then some x else some y
  | none => some x

/-- The source of the lowest code, the first of those that have it (R432). -/
def lowestSource (l : List (Nat × Nat)) : Option (Nat × Nat) := l.foldl lowerSource none

/-- One source found stays found, under a code that is no higher. -/
theorem foldl_lowerSource (l : List (Nat × Nat)) (x : Nat × Nat) :
    ∃ z, l.foldl lowerSource (some x) = some z ∧ (z = x ∨ z ∈ l) ∧ z.1 ≤ x.1 ∧ ∀ y ∈ l, z.1 ≤ y.1 := by
  induction l generalizing x with
  | nil => exact ⟨x, rfl, .inl rfl, Nat.le_refl _, fun _ h => absurd h List.not_mem_nil⟩
  | cons y l ih =>
    by_cases h : y.1 < x.1
    · obtain ⟨z, run, mem, le, all⟩ := ih y
      refine ⟨z, ?_, .inr (List.mem_cons.mpr mem), by omega, fun u hu => ?_⟩
      · rw [List.foldl_cons, lowerSource, if_pos h, run]
      · rcases List.mem_cons.mp hu with rfl | hu
        · exact le
        · exact all u hu
    · obtain ⟨z, run, mem, le, all⟩ := ih x
      refine ⟨z, ?_, mem.imp_right (List.mem_cons_of_mem _), le, fun u hu => ?_⟩
      · rw [List.foldl_cons, lowerSource, if_neg h, run]
      · rcases List.mem_cons.mp hu with rfl | hu
        · omega
        · exact all u hu

theorem lowestSource_of_ne_nil {l : List (Nat × Nat)} (h : l ≠ []) : ∃ x ∈ l, lowestSource l = some x ∧ ∀ y ∈ l, x.1 ≤ y.1 := by
  obtain ⟨x, l, rfl⟩ := List.exists_cons_of_ne_nil h
  obtain ⟨z, run, mem, le, all⟩ := foldl_lowerSource l x
  refine ⟨z, List.mem_cons.mpr mem, run, fun y hy => ?_⟩
  rcases List.mem_cons.mp hy with rfl | hy
  · exact le
  · exact all y hy

/-- The sources that are seen show in PWR_WAKE_SEEN (R431). -/
def Chip.seenSources (c : Chip) (l : List (Nat × Nat)) : Chip := c.each l fun c y => c.put PWR ⟨PWR_WAKE_SEEN_SEEN.off, y.1, 1⟩ 1

namespace Chip

theorem seenSources_pwr (c : Chip) (l : List (Nat × Nat)) : (c.seenSources l).pwr = c.pwr := by
  induction l generalizing c with
  | nil => rfl
  | cons x l ih => exact ih _

theorem seenSources_cause (c : Chip) (l : List (Nat × Nat)) : (c.seenSources l).get PWR PWR_WAKE_CAUSE_SRC = c.get PWR PWR_WAKE_CAUSE_SRC := by
  induction l generalizing c with
  | nil => rfl
  | cons x l ih =>
    refine (ih _).trans ?_
    have apart : PWR + PWR_WAKE_SEEN_SEEN.off ≠ PWR + PWR_WAKE_CAUSE_SRC.off := by decide
    exact Chip.get_put_apart _ _ _ _ _ _ (.inl apart)

/-- A bit of PWR_WAKE_SEEN that is set stays set, and that of each source is set. -/
theorem seenSources_bit (c : Chip) (l : List (Nat × Nat)) {k : Nat} (hk : k < 16)
    (h : c.get PWR ⟨PWR_WAKE_SEEN_SEEN.off, k, 1⟩ = 1 ∨ ∃ y ∈ l, y.1 = k) :
    (c.seenSources l).get PWR ⟨PWR_WAKE_SEEN_SEEN.off, k, 1⟩ = 1 := by
  induction l generalizing c with
  | nil => exact h.resolve_right (by simp)
  | cons x l ih =>
    refine ih _ ?_
    by_cases same : x.1 = k
    · subst same
      exact .inl (Chip.get_put _ _ _ _ (by unfold Fld.fits; dsimp only; omega))
    · rcases h with h | ⟨y, hy, rfl⟩
      · refine .inl ?_
        rw [Chip.get_put_apart _ _ _ _ _ _ (by unfold Fld.apart; dsimp only; omega)]
        exact h
      · rcases List.mem_cons.mp hy with rfl | hy
        · exact absurd rfl same
        · exact .inr ⟨y, hy, rfl⟩

/-- The sources of one cycle in Nap or Watch, outside a reset. -/
theorem wakeSources_asleep {c : Chip} {l : List (Nat × Nat)} {x : Nat × Nat} (during : Bool) (mode : c.pwr.mode = 2 ∨ c.pwr.mode = 3)
    (reset : c.pwr.rstLow = false)
    (hx : lowestSource ((l.filter fun y => c.wakeEnabled y.1).filter fun y => wakeIn y.1 c.pwr.mode) = some x) :
    c.wakeSources l during =
      let d := c.seenSources ((l.filter fun y => c.wakeEnabled y.1).filter fun y => wakeIn y.1 c.pwr.mode)
      if c.pwr.wake.isSome then d else (d.wakeCause x.1 x.2 during).wakeBegin := by
  have high : ¬ c.pwr.mode ≤ 1 := by omega
  have notDoze : c.pwr.mode ≠ 1 := by omega
  have same : ∀ o : Option (Nat × Nat),
      (match o with | some x => if c.pwr.req.isSome = true ∧ c.pwr.mode ≤ 1 then c.pwrCancel.wakeCause x.1 x.2 false else c | none => c) = c := by
    rintro (_ | x)
    · rfl
    · exact if_neg fun h => high h.2
  have awake := c.seenSources_pwr ((l.filter fun y => c.wakeEnabled y.1).filter fun y => wakeIn y.1 c.pwr.mode)
  unfold Chip.wakeSources
  extract_lets on first d hits e
  have kept : d = c := same (first on)
  clear_value d
  subst kept
  have found : first hits = some x := hx
  have wake : e.pwr = d.pwr := awake
  rw [found]
  dsimp only
  rw [if_neg (by rw [reset]; exact Bool.false_ne_true), wake, if_neg notDoze]
  rfl

/-- What the beginning of a wake leaves in the registers. -/
theorem get_wakeBegin (c : Chip) (b : Nat) (f : Fld) (h : Fld.apart CLK CLK_MON_STAT_VS_XB b f) : c.wakeBegin.get b f = c.get b f := by
  unfold Chip.wakeBegin
  dsimp only
  rw [Chip.get_put_apart _ _ _ _ _ _ h]
  rfl

/-- Neither the record of the cause nor the beginning of the wake reaches PWR_WAKE_SEEN. -/
theorem seen_wakeBegin (c : Chip) (code idx : Nat) (during : Bool) (k : Nat) :
    ((c.wakeCause code idx during).wakeBegin).get PWR ⟨PWR_WAKE_SEEN_SEEN.off, k, 1⟩ = c.get PWR ⟨PWR_WAKE_SEEN_SEEN.off, k, 1⟩ := by
  have clk : CLK + CLK_MON_STAT_VS_XB.off ≠ PWR + PWR_WAKE_SEEN_SEEN.off := by decide
  have cause : PWR + PWR_WAKE_CAUSE_SRC.off ≠ PWR + PWR_WAKE_SEEN_SEEN.off := by decide
  have index : PWR + PWR_WAKE_CAUSE_INDEX.off ≠ PWR + PWR_WAKE_SEEN_SEEN.off := by decide
  have entry : PWR + PWR_WAKE_CAUSE_DURING_ENTRY.off ≠ PWR + PWR_WAKE_SEEN_SEEN.off := by decide
  rw [get_wakeBegin _ _ ⟨PWR_WAKE_SEEN_SEEN.off, k, 1⟩ (.inl clk), Chip.wakeCause, Chip.putB,
    Chip.get_put_apart _ _ _ _ _ ⟨PWR_WAKE_SEEN_SEEN.off, k, 1⟩ (.inl entry),
    Chip.get_put_apart _ _ _ _ _ ⟨PWR_WAKE_SEEN_SEEN.off, k, 1⟩ (.inl index),
    Chip.get_put_apart _ _ _ _ _ ⟨PWR_WAKE_SEEN_SEEN.off, k, 1⟩ (.inl cause)]

theorem cause_wakeBegin (c : Chip) {code : Nat} (idx : Nat) (during : Bool) (h : code < 16) :
    ((c.wakeCause code idx during).wakeBegin).get PWR PWR_WAKE_CAUSE_SRC = code := by
  rw [get_wakeBegin _ _ _ (by decide), Chip.wakeCause, Chip.putB, Chip.get_put_apart _ _ _ _ _ _ (by decide),
    Chip.get_put_apart _ _ _ _ _ _ (by decide), Chip.get_put _ _ _ _ (by decide)]
  exact Nat.mod_eq_of_lt h

end Chip

/-- The sources of a list as WAKE_START hands them on. -/
theorem filter_sources (c : Chip) (l : List (Fin 11 × Fin 16)) :
    ((l.map fun x => (x.1.val, x.2.val)).filter fun y => c.wakeEnabled y.1).filter (fun y => wakeIn y.1 c.pwr.mode) =
      (l.filter fun x => c.wakeEnabled x.1.val && wakeIn x.1.val c.pwr.mode).map fun x => (x.1.val, x.2.val) := by
  rw [List.filter_filter, List.filter_map]
  congr 2
  funext x
  exact Bool.and_comm _ _

/-- Settles O40: SEEN takes the bit of every source of the cycle, and the lowest code is the cause of a wake that starts. -/
theorem wakeCauseIsTheLowestFirstSource : Obligations.WakeCauseIsTheLowestFirstSource := by
  intro s l c hits mode reset some_hit
  let g : Fin 11 × Fin 16 → Nat × Nat := fun x => (x.1.val, x.2.val)
  obtain ⟨_, mem, lowest, least⟩ := lowestSource_of_ne_nil (l := hits.map g) (by simpa using some_hit)
  obtain ⟨x, hx, rfl⟩ := List.mem_map.mp mem
  have sources : _ = hits.map g := filter_sources c l
  have run := Chip.wakeSources_asleep (l := l.map g) false mode reset (by rw [sources]; exact lowest)
  rw [sources] at run
  have bits : ∀ y ∈ hits, (c.seenSources (hits.map g)).get PWR ⟨PWR_WAKE_SEEN_SEEN.off, y.1.val, 1⟩ = 1 := fun y hy =>
    c.seenSources_bit _ (by omega) (.inr ⟨g y, List.mem_map_of_mem hy, rfl⟩)
  refine ⟨s.on (c.wakeSources (l.map g) false), rfl, ?_⟩
  show (∀ x ∈ hits, (c.wakeSources (l.map g) false).get PWR ⟨PWR_WAKE_SEEN_SEEN.off, x.1.val, 1⟩ = 1) ∧
    (c.pwr.wake = none → ∃ x ∈ hits, (∀ y ∈ hits, x.1 ≤ y.1) ∧ (c.wakeSources (l.map g) false).get PWR PWR_WAKE_CAUSE_SRC = x.1.val ∧
      (c.wakeSources (l.map g) false).pwr.wake = some 0) ∧
    (c.pwr.wake ≠ none → (c.wakeSources (l.map g) false).get PWR PWR_WAKE_CAUSE_SRC = c.get PWR PWR_WAKE_CAUSE_SRC ∧
      (c.wakeSources (l.map g) false).pwr.wake = c.pwr.wake)
  rw [run]
  by_cases idle : c.pwr.wake = none
  · rw [idle]
    refine ⟨fun y hy => (Chip.seen_wakeBegin _ _ _ _ _).trans (bits y hy), fun _ => ⟨x, hx, fun y hy => least _ (List.mem_map_of_mem hy), ?_, rfl⟩,
      fun h => absurd rfl h⟩
    exact Chip.cause_wakeBegin _ _ _ (x.1.isLt.trans (by decide))
  · have some_wake : c.pwr.wake.isSome = true := Option.isSome_iff_ne_none.mpr idle
    simp only [some_wake, if_true]
    exact ⟨bits, fun h => absurd h idle, fun _ => ⟨c.seenSources_cause _, congrArg PwrSt.wake (c.seenSources_pwr _)⟩⟩

end Sys2Proof.Machine
end

section
/-! What a completed request shows in its mailbox (11_binder_mailboxes.md R370). -/

namespace Sys2Proof.Machine

theorem Chip.each_append {α : Type} (l l' : List α) (f : Chip → α → Chip) (c : Chip) : c.each (l ++ l') f = (c.each l f).each l' f := by
  induction l generalizing c with
  | nil => rfl
  | cons x l ih => exact ih _

/-- Values of two registers each, one after the other. -/
def Chip.putPairs (c : Chip) (a n : Nat) (f : Nat → Nat) : Chip := c.each (List.range n) fun c i => c.putWide (a + 2 * i) 2 (f i)

theorem Chip.putPairs_succ (c : Chip) (a n : Nat) (f : Nat → Nat) : c.putPairs a (n + 1) f = (c.putPairs a n f).putWide (a + 2 * n) 2 (f n) := by
  rw [putPairs, List.range_succ, Chip.each_append]
  rfl

theorem Chip.wide_two {c d : Chip} {a : Nat} (h : c.reg a = d.reg a) (h' : c.reg (a + 1) = d.reg (a + 1)) : c.wide a 2 = d.wide a 2 := by
  simp only [Chip.wide, h, h']

theorem Chip.wide_putPairs (c : Chip) (a n : Nat) (f : Nat → Nat) {k : Nat} (hk : k < n) :
    (c.putPairs a n f).wide (a + 2 * k) 2 = f k % 2 ^ 32 := by
  induction n with
  | zero => exact absurd hk (Nat.not_lt_zero k)
  | succ n ih =>
    rw [putPairs_succ]
    by_cases last : k = n
    · subst last
      exact Chip.wide_putWide ..
    · rw [← ih (by omega)]
      exact Chip.wide_two (Chip.reg_putWide_ne _ _ _ _ _ (by omega)) (Chip.reg_putWide_ne _ _ _ _ _ (by omega))

/-- What a completion shows in the registers of its mailbox. -/
def Chip.mbShown (c : Chip) (m : Fin 4) (r : MbReq) (code : Nat) (res : List Nat) (dup : Bool) : Chip :=
  let c := c.putPairs (mbB m + 0x80) 32 fun i => res.getD i 0
  let c := ((c.put (mbB m) MBN_STAT_RESULT code).putB (mbB m) MBN_STAT_DUPLICATE dup).put (mbB m) MBN_STAT_STATE 3
  let c := ((c.put (mbB m) MBN_RTAG_RTAG r.tag).put (mbB m) MBN_RTAG_NRESULT res.length).put (mbB m) MBN_RCMD_ID r.cmd
  c.putBit MBX MBX_EVT_DONE m.val true

section
variable (c : Chip) {m : Fin 4} (r : MbReq) (code : Nat) (res : List Nat) (dup store : Bool)

/-- Beyond the mailbox's registers a completion reaches those of the privileged counters alone. -/
theorem Chip.mbDone_reg (hm : m ≠ 2) {x : Nat} (hx : x / 0x1000 ≠ 9) :
    (c.mbDone m r code res dup store).reg x = (c.mbShown m r code res dup).reg x := by
  unfold Chip.mbDone
  extract_lets b c1 c2 c3 c4 c5 c6 c7 c8
  have shown : c4 = c.mbShown m r code res dup := rfl
  have ran : c6.reg x = c4.reg x := by
    refine Chip.reg_congr ?_ x
    show (if store = true ∧ r.tag ≠ 0 then _ else c5).regs = _
    split
    · exact (Chip.modMb_regs _ _ _).trans (Chip.modMb_regs _ _ _)
    · exact Chip.modMb_regs _ _ _
  rw [if_neg hm, ← shown, ← ran]
  show c7.reg x = _
  show (if code = 1 then c6 else c6.pmcEvt 0 5 1).reg x = _
  split
  · rfl
  · exact c6.pmcEvt_reg _ _ _ hx

theorem Chip.mbDone_running (hm : m ≠ 2) : ((c.mbDone m r code res dup store).binder.mbs[m]).running = none := by
  unfold Chip.mbDone
  extract_lets b c1 c2 c3 c4 c5 c6 c7 c8
  have ended : (c5.binder.mbs[m]).running = none :=
    congrArg MbSt.running (Vector.getElem_set_self m.isLt)
  have recorded : (c6.binder.mbs[m]).running = none := by
    show ((if store = true ∧ r.tag ≠ 0 then _ else c5).binder.mbs[m]).running = none
    split
    · exact (congrArg MbSt.running (Vector.getElem_set_self m.isLt)).trans ended
    · exact ended
  have counted : c7.binder = c6.binder := by
    show (if code = 1 then c6 else c6.pmcEvt 0 5 1).binder = _
    split
    · rfl
    · rw [Chip.RegsOnly.pmcEvt c6 0 5 1]
  rw [if_neg hm]
  show (c7.binder.mbs[m]).running = none
  rw [counted]
  exact recorded

end

/-- A bit of a field that was set alone. -/
theorem Chip.bit_putBit (c : Chip) (b : Nat) (f : Fld) {k : Nat} (v : Bool) (hk : k < f.w) (hf : f.lo + f.w ≤ 16) :
    (c.putBit b f k v).bit b f k = v := by
  have test : ∀ d : Chip, d.bit b f k = (d.reg (b + f.off)).getLsbD (f.lo + k) := fun d => by
    rw [Chip.bit, Chip.get, Nat.testBit_mod_two_pow, Nat.testBit_div_two_pow, decide_eq_true hk, Bool.true_and, Nat.add_comm k]
    rfl
  rw [test]
  simp only [Chip.putBit, Chip.put, Chip.reg_setReg_same, splice_getLsbD]
  cases v
  · simp
  · simp
    omega

/-- Fields that lie apart in one block do so at every place of the block. -/
theorem Chip.get_put_beside (c : Chip) (b : Nat) {f g : Fld} (v : Nat) (h : Fld.apart 0 f 0 g) : (c.put b f v).get b g = c.get b g :=
  Chip.get_put_apart _ _ _ _ _ _ (by unfold Fld.apart at h ⊢; omega)

section
variable (c : Chip) (m : Fin 4) (r : MbReq) (code : Nat) (res : List Nat) (dup : Bool)

/-- The result words lie beside the mailbox's other registers. -/
theorem Chip.mbShown_words {k : Nat} (hk : k < 32) :
    (c.mbShown m r code res dup).wide (mbB m + 0x80 + 2 * k) 2 = res.getD k 0 % 2 ^ 32 := by
  have hm := m.isLt
  rw [← Chip.wide_putPairs c (mbB m + 0x80) 32 (fun i => res.getD i 0) hk]
  have beside : ∀ j < 2, (c.mbShown m r code res dup).reg (mbB m + 0x80 + 2 * k + j) =
      (c.putPairs (mbB m + 0x80) 32 fun i => res.getD i 0).reg (mbB m + 0x80 + 2 * k + j) := by
    intro j hj
    have low : ∀ f : Fld, f.off < 0x80 → mbB m + 0x80 + 2 * k + j ≠ mbB m + f.off := fun f hf => by omega
    have evt : mbB m + 0x80 + 2 * k + j ≠ MBX + MBX_EVT_DONE.off := by
      simp only [mbB, MBX]
      omega
    rw [mbShown, Chip.putBit, Chip.reg_put_ne _ _ ⟨MBX_EVT_DONE.off, _, 1⟩ _ _ evt, Chip.reg_put_ne _ _ _ _ _ (low _ (by decide)),
      Chip.reg_put_ne _ _ _ _ _ (low _ (by decide)), Chip.reg_put_ne _ _ _ _ _ (low _ (by decide)),
      Chip.reg_put_ne _ _ _ _ _ (low _ (by decide)), Chip.putB, Chip.reg_put_ne _ _ _ _ _ (low _ (by decide)),
      Chip.reg_put_ne _ _ _ _ _ (low _ (by decide))]
  exact Chip.wide_two (beside 0 (by decide)) (beside 1 (by decide))

theorem Chip.mbShown_fields :
    (c.mbShown m r code res dup).get (mbB m) MBN_STAT_RESULT = code % 256 ∧
    (c.mbShown m r code res dup).get (mbB m) MBN_STAT_DUPLICATE = dup.toNat % 2 ∧
    (c.mbShown m r code res dup).get (mbB m) MBN_STAT_STATE = 3 ∧ (c.mbShown m r code res dup).get (mbB m) MBN_RTAG_RTAG = r.tag % 256 ∧
    (c.mbShown m r code res dup).get (mbB m) MBN_RTAG_NRESULT = res.length % 64 ∧
    (c.mbShown m r code res dup).get (mbB m) MBN_RCMD_ID = r.cmd % 65536 := by
  have hm := m.isLt
  have event : ∀ (d : Chip) (f : Fld), f.off < 0x100 → (d.putBit MBX MBX_EVT_DONE m.val true).get (mbB m) f = d.get (mbB m) f := by
    intro d f hf
    refine Chip.get_put_apart _ _ _ _ _ _ (.inl ?_)
    simp only [mbB, MBX]
    omega
  unfold mbShown
  rw [event _ _ (by decide), event _ _ (by decide), event _ _ (by decide), event _ _ (by decide), event _ _ (by decide), event _ _ (by decide)]
  simp (disch := decide) only [Chip.putB, Chip.get_put_beside, Chip.get_put]
  exact ⟨rfl, rfl, rfl, rfl, rfl, rfl⟩

theorem Chip.mbShown_done : (c.mbShown m r code res dup).bit MBX MBX_EVT_DONE m.val = true :=
  Chip.bit_putBit _ _ _ _ m.isLt (by decide)

end

/-- Settles O41 for MB0, MB1 and MB3. -/
theorem completionShowsTheResult : Obligations.CompletionShowsTheResult := by
  intro c m r code res dup store b t hm hcode htag hcmd hres words
  have below := m.isLt
  have shown : ∀ f : Fld, f.off < 0x100 → t.get b f = (c.mbShown m r code res dup).get b f := fun f hf => by
    rw [Chip.get, Chip.get, Chip.mbDone_reg c r code res dup store hm (by simp only [b, mbB, MBX]; omega)]
  have done : t.get MBX MBX_EVT_DONE = (c.mbShown m r code res dup).get MBX MBX_EVT_DONE := by
    rw [Chip.get, Chip.get, Chip.mbDone_reg c r code res dup store hm (by decide)]
  obtain ⟨result, duplicate, state, tag, count, cmd⟩ := c.mbShown_fields m r code res dup
  refine ⟨fun k hk => ?_, ?_, ?_, ?_, ?_, ?_, ?_, ?_, Chip.mbDone_running c r code res dup store hm⟩
  · have word : t.wide (b + 0x80 + 2 * k) 2 = (c.mbShown m r code res dup).wide (b + 0x80 + 2 * k) 2 :=
      Chip.wide_two (Chip.mbDone_reg c r code res dup store hm (by simp only [b, mbB, MBX]; omega))
        (Chip.mbDone_reg c r code res dup store hm (by simp only [b, mbB, MBX]; omega))
    rw [word, c.mbShown_words m r code res dup hk]
    refine Nat.mod_eq_of_lt ?_
    by_cases inside : k < res.length
    · rw [List.getD_eq_getElem _ _ inside]
      exact words _ (List.getElem_mem inside)
    · rw [List.getD_eq_default _ _ (by omega)]
      decide
  · rw [shown _ (by decide), result, Nat.mod_eq_of_lt (by omega)]
  · rw [Chip.on, shown _ (by decide), duplicate]
    cases dup <;> rfl
  · rw [shown _ (by decide), state]
  · rw [shown _ (by decide), tag, Nat.mod_eq_of_lt htag]
  · rw [shown _ (by decide), count, Nat.mod_eq_of_lt (by omega)]
  · rw [shown _ (by decide), cmd, Nat.mod_eq_of_lt hcmd]
  · rw [Chip.bit, done, ← Chip.bit, Chip.mbShown_done]

end Sys2Proof.Machine
end

section
/-! HGRP_MODE as a write finds it (01_architecture.md R26). -/

namespace Sys2Proof.Machine

/-- A writable field takes a value that is not reserved. -/
theorem fieldWrite_splice {f : FieldDef} (hacc : f.acc = .rw) (hfits : f.lo + f.w ≤ 16) {v : Nat} (hmin : f.min ≤ v) (hmax : v ≤ f.max)
    (hv : v < 2 ^ f.w) (x : BitVec 16) : fieldWrite (fieldMask f.lo f.w) (splice 0 f.lo f.w v) x f = splice x f.lo f.w v := by
  have word : x &&& ~~~(fieldMask f.lo f.w &&& fieldMask f.lo f.w) ||| splice 0 f.lo f.w v &&& (fieldMask f.lo f.w &&& fieldMask f.lo f.w) =
      splice x f.lo f.w v := by
    refine BitVec.eq_of_getLsbD_eq fun i hi => ?_
    simp only [BitVec.and_self, BitVec.getLsbD_or, BitVec.getLsbD_and, BitVec.getLsbD_not, splice_getLsbD, fieldMask_getLsbD]
    by_cases inside : f.lo ≤ i ∧ i < f.lo + f.w
    · simp [inside, hi]
    · simp [inside, hi]
      omega
  have value : (splice x f.lo f.w v).toNat / 2 ^ f.lo % 2 ^ f.w = v := by
    rw [splice_field _ _ _ _ hfits, Nat.mod_eq_of_lt hv]
  unfold fieldWrite
  rw [hacc]
  dsimp only
  rw [word, value, if_pos ⟨hmin, hmax⟩]

/-- HGRP_MODE under a write of MODE. -/
theorem Chip.merge_hgrpMode (c : Chip) {m : Nat} (h : m ≤ 4) :
    c.merge (HGRP + HGRP_MODE_MODE.off) HGRP_MODE_MODE.mask (splice 0 HGRP_MODE_MODE.lo HGRP_MODE_MODE.w m) = c.put HGRP HGRP_MODE_MODE m := by
  obtain ⟨r, hr, fields⟩ : ∃ r : RegDef, mapped (HGRP + HGRP_MODE_MODE.off) = some r ∧
    r.fields = [⟨0, 3, .rw, 0, 62, 0, 4⟩, ⟨4, 3, .ro, 0, 126, 0, 7⟩, ⟨7, 1, .ro, 0, 126, 0, 1⟩] := ⟨_, rfl, rfl⟩
  have key : c.keyOf (HGRP + HGRP_MODE_MODE.off) = HGRP + HGRP_MODE_MODE.off := rfl
  have mode := fun x => fieldWrite_splice (f := ⟨0, 3, .rw, 0, 62, 0, 4⟩) rfl (by decide) (Nat.zero_le m) h (by dsimp only; omega) x
  have out : HGRP + HGRP_MODE_MODE.off ≠ FOLIO + FOLIO_OUT_CTL_SEL.off ∧ HGRP + HGRP_MODE_MODE.off ≠ FOLIO + FOLIO_CAP_STAT_SEL.off := by decide
  unfold Chip.merge
  simp only [hr, out, or_self, if_false, key]
  rw [fields, mergeWord, List.foldl_cons, List.foldl_cons, List.foldl_cons, List.foldl_nil, fieldWrite_id _ _ _ ⟨7, 1, .ro, 0, 126, 0, 1⟩ (by decide),
    fieldWrite_id _ _ _ ⟨4, 3, .ro, 0, 126, 0, 7⟩ (by decide), mode]
  rfl

/-- Nothing outside blocks PMC and HGRP says whether a lane is enabled. -/
theorem Chip.lanesOff_congr {c d : Chip} (h : ∀ l : Lane, d.reg (laneB l + XN_CTL_ENABLE.off) = c.reg (laneB l + XN_CTL_ENABLE.off)) :
    d.lanesOff = c.lanesOff := by
  simp only [Chip.lanesOff, Chip.laneOn, Chip.on, Chip.get, h]

section
variable {s : State} {i : Ifc} {m : BitVec 3} (admitted : s.admits i (HGRP + HGRP_MODE_MODE.off) HGRP_MODE_MODE.mask) (small : m.toNat ≤ 4)
include admitted small

/-- The write of a mode, up to its effect. -/
theorem exec_hgrpModeWrite : exec (.hgrpModeWrite i m) s =
    .next (s.wrote i (HGRP + HGRP_MODE_MODE.off) ((s.chip.countWr i).put HGRP HGRP_MODE_MODE m.toNat).modeWritten) := by
  show s.actL (accPut i (HGRP + HGRP_MODE_MODE.off) HGRP_MODE_MODE.mask (splice 0 HGRP_MODE_MODE.lo HGRP_MODE_MODE.w m.toNat)) = _
  rw [State.put_admitted s i _ _ _ admitted (by decide +kernel) (by decide +kernel) (by decide)]
  simp only [State.took, Chip.merge_hgrpMode _ small]
  rfl

end

/-- Settles O45 for the modes that differ from the active one. -/
theorem hostModeWaitsForDisabledLanes : Obligations.HostModeWaitsForDisabledLanes := by
  intro s i m c a d admitted small differs
  let o := (c.countWr i).put HGRP HGRP_MODE_MODE m.toNat
  have mode : o.get HGRP HGRP_MODE_MODE = m.toNat := (Chip.get_put _ _ _ _ (by decide)).trans (Nat.mod_eq_of_lt (Nat.lt_of_le_of_lt small (by decide)))
  have active : o.hostMode = c.hostMode := by
    refine (Chip.get_put_apart _ _ _ _ _ _ (by decide)).trans ?_
    rw [Chip.get, Chip.countWr_reg _ _ _ (by decide)]
    rfl
  have lanes : o.lanesOff = c.lanesOff := Chip.lanesOff_congr fun l => by
    rw [Chip.reg_put_ne _ _ _ _ _ (by fin_cases l <;> decide), Chip.countWr_reg _ _ _ (by fin_cases l <;> decide)]
  have written : o.modeWritten = if c.lanesOff then o.hostModeApply m.toNat else o.put HGRP HGRP_MODE_PENDING 1 := by
    unfold Chip.modeWritten
    dsimp only
    rw [mode, active, if_neg differs, lanes]
  have run : exec (.hgrpModeWrite i m) s = .next (s.wrote i a o.modeWritten) := exec_hgrpModeWrite admitted small
  refine ⟨fun on => ?_, fun off => ?_⟩
  · rw [written, on] at run
    refine ⟨_, run, ?_, ?_, ?_, ?_⟩
    · show (o.put HGRP HGRP_MODE_PENDING 1).get HGRP HGRP_MODE_ACTIVE = _
      rw [Chip.get_put_apart _ _ _ _ _ _ (by decide)]
      exact active
    · show (o.put HGRP HGRP_MODE_PENDING 1).get HGRP HGRP_MODE_MODE = _
      rw [Chip.get_put_apart _ _ _ _ _ _ (by decide), mode]
    · show (o.put HGRP HGRP_MODE_PENDING 1).on HGRP HGRP_MODE_PENDING = _
      rw [Chip.on, Chip.get_put _ _ _ _ (by decide)]
      rfl
    · show (c.countWr i).quire = c.quire
      rw [(Chip.Quiet.countWr c i).rest]
  · rw [run, written, off, State.took, Chip.merge_hgrpMode _ small]
    rfl

end Sys2Proof.Machine
end

section
/-! The error log of the register fabric (10_register_fabric.md R359). -/

namespace Sys2Proof.Machine

section
variable (c : Chip) (i : Ifc) (a cause : Nat) (wr : Bool)

/-- The first refused access is logged whole. -/
theorem Chip.errLog_first (h : c.on REGB REG_ERRLOG_CAUSE_VALID = false) :
    (c.errLog i a cause wr).on REGB REG_ERRLOG_CAUSE_VALID = true ∧ (c.errLog i a cause wr).get REGB REG_ERRLOG_CAUSE_CAUSE = cause % 8 ∧
    (c.errLog i a cause wr).get REGB REG_ERRLOG_CAUSE_SOURCE = ifcCode i % 8 ∧
    (c.errLog i a cause wr).on REGB REG_ERRLOG_CAUSE_WRITE = wr ∧
    (c.errLog i a cause wr).wide (REGB + REG_ERRLOG_ADDR_ADDR.off) 2 = a % 2 ^ 32 ∧
    (c.errLog i a cause wr).get REGB REG_ERRLOG_CNT_CNT = 0 := by
  have beside : ∀ (d : Chip) (v : Nat) (f : Fld), f.off = REG_ERRLOG_CAUSE_VALID.off →
      (d.putWide (REGB + REG_ERRLOG_ADDR_ADDR.off) 2 v).get REGB f = d.get REGB f := by
    intro d v f hf
    simp only [Chip.get, hf]
    rw [Chip.reg_putWide_ne _ _ _ _ _ (by decide)]
  have addr : ∀ (d : Chip) (v : Nat), (d.put REGB REG_ERRLOG_CNT_CNT v).wide (REGB + REG_ERRLOG_ADDR_ADDR.off) 2 =
      d.wide (REGB + REG_ERRLOG_ADDR_ADDR.off) 2 := fun d v =>
    Chip.wide_two (Chip.reg_put_ne _ _ _ _ _ (by decide)) (Chip.reg_put_ne _ _ _ _ _ (by decide))
  unfold Chip.errLog
  rw [h]
  dsimp only
  rw [if_neg Bool.false_ne_true, addr, Chip.wide_putWide]
  simp (disch := decide) only [Chip.on, Chip.putB, Chip.get_put_beside, Chip.get_put, beside]
  cases wr <;> simp

/-- Later refused accesses are counted alone. -/
theorem Chip.errLog_later (h : c.on REGB REG_ERRLOG_CAUSE_VALID = true) :
    c.errLog i a cause wr = c.put REGB REG_ERRLOG_CNT_CNT (min 0xFFFF (c.get REGB REG_ERRLOG_CNT_CNT + 1)) := by
  unfold Chip.errLog
  rw [if_pos h, satU, Nat.min_comm]
  rfl

end

/-- A write to a register that does not exist, or whose block is gated or unpowered, is refused with ERR. -/
theorem fabWrite_refused {i : Ifc} {a : Nat} {m d : BitVec 16} {x : Both} {cause : Nat} (hi : i ≠ .spi1) (hm : m ≠ 0)
    (h : mapped a = none ∧ cause = 5 ∨ (mapped a).isSome = true ∧ x.1.gate a ≠ 0 ∧ cause = x.1.gate a) :
    fabWrite i a m d x = ((x.1.errLog i a cause true, x.2), 1) := by
  unfold fabWrite
  rcases h with ⟨none, rfl⟩ | ⟨some, gated, rfl⟩
  · simp only [hi, hm, none, if_false]
  · obtain ⟨r, hr⟩ := Option.isSome_iff_exists.mp some
    simp only [hi, hm, hr, if_false, gated, ne_eq, not_false_eq_true, if_true]

/-- Without a hardware update in the same cycle a write acts with its data (R362). -/
theorem metFields_zero (fs : List FieldDef) : metFields fs 0 = 0 := by
  have zero : ∀ m : BitVec 16, 0 &&& m = 0 := fun _ => BitVec.zero_and
  have none : ∀ n : BitVec 16, fs.foldl (fun n f => if (0 : BitVec 16) &&& fieldMask f.lo f.w = 0 then n else n ||| fieldMask f.lo f.w) n = n := by
    induction fs with
    | nil => exact fun _ => rfl
    | cons f fs ih => exact fun n => by rw [List.foldl_cons, if_pos (zero _), ih]
  exact none 0

theorem Chip.metData_zero (c : Chip) (lk : LockSt) (a : Nat) (d : BitVec 16) : c.metData lk a d 0 = d := by
  have lost : ∀ fs, c.adaptedLost a fs 0 = 0 := fun fs => by
    simp only [Chip.adaptedLost, metFields_zero, ite_self]
  have all : d &&& ~~~(0 : BitVec 16) = d := BitVec.and_allOnes
  have none : ∀ w : BitVec 16, w &&& 0 = 0 := fun _ => BitVec.and_zero
  have same : d ||| 0 = d := BitVec.or_zero
  unfold Chip.metData
  split
  · rfl
  · dsimp only
    rw [lost, metFields_zero, none, all, all, none, same]

/-- A write of 1 to VALID clears it. -/
theorem Chip.merge_errValid (c : Chip) :
    (c.merge (REGB + REG_ERRLOG_CAUSE_VALID.off) 0x8000 0x8000).on REGB REG_ERRLOG_CAUSE_VALID = false := by
  obtain ⟨r, hr, fields⟩ : ∃ r : RegDef, mapped (REGB + REG_ERRLOG_CAUSE_VALID.off) = some r ∧
    r.fields = [⟨0, 3, .ro, 0, 8, 0, 7⟩, ⟨3, 3, .ro, 0, 8, 0, 7⟩, ⟨6, 1, .ro, 0, 8, 0, 1⟩, ⟨15, 1, .w1c, 0, 8, 0, 1⟩] := ⟨_, rfl, rfl⟩
  have key : c.keyOf (REGB + REG_ERRLOG_CAUSE_VALID.off) = REGB + REG_ERRLOG_CAUSE_VALID.off := rfl
  rw [Chip.on, Chip.get, Chip.merge_reg c _ _ _ r hr (by decide) (by decide), key, if_pos rfl, fields]
  generalize c.reg (REGB + REG_ERRLOG_CAUSE_VALID.off) = x
  have bit : (mergeWord [⟨0, 3, .ro, 0, 8, 0, 7⟩, ⟨3, 3, .ro, 0, 8, 0, 7⟩, ⟨6, 1, .ro, 0, 8, 0, 1⟩, ⟨15, 1, .w1c, 0, 8, 0, 1⟩] 0x8000 0x8000 x) =
      x &&& 0x7FFF := by
    rw [mergeWord, List.foldl_cons, List.foldl_cons, List.foldl_cons, List.foldl_cons, List.foldl_nil,
      fieldWrite_id _ _ _ ⟨0, 3, .ro, 0, 8, 0, 7⟩ (by decide), fieldWrite_id _ _ _ ⟨3, 3, .ro, 0, 8, 0, 7⟩ (by decide),
      fieldWrite_id _ _ _ ⟨6, 1, .ro, 0, 8, 0, 1⟩ (by decide)]
    refine if_pos ⟨Nat.zero_le _, ?_⟩
    have bound := Nat.mod_lt (x := (x &&& 0x7FFF).toNat / 2 ^ 15) (y := 2 ^ 1) (by decide)
    exact Nat.lt_succ_iff.mp bound
  rw [bit, BitVec.toNat_and]
  have low : x.toNat &&& (0x7FFF : BitVec 16).toNat < 2 ^ 15 := Nat.and_lt_two_pow _ (by decide)
  rw [Nat.div_eq_of_lt low]
  rfl

/-- Nothing locks VALID, and block REG is always clocked. -/
theorem State.admits_errValid (s : State) {i : Ifc} (served : s.chip.serves i = true) (notSpi1 : i ≠ .spi1) :
    s.admits i (REGB + REG_ERRLOG_CAUSE_VALID.off) 0x8000 := by
  have unlocked : lockedBits s.lock.bits (REGB + REG_ERRLOG_CAUSE_VALID.off) = 0 := by simp [lockedBits, REGB, HGRP, FOLIO, SPINE]
  refine ⟨served, notSpi1, rfl, ?_, ?_⟩
  · rw [unlocked]
    rfl
  · rw [Chip.mbLocked_of_block _ _ (by decide)]
    rfl

/-- Settles O33. -/
theorem refusedAccessesEnterTheErrorLog : Obligations.RefusedAccessesEnterTheErrorLog := by
  intro s i a m d cause wr served notSpi1 mask
  refine ⟨fun small idle => ?_, fun valid => Chip.errLog_later _ _ _ _ _ valid, fun refused write => ?_, ?_⟩
  · obtain ⟨valid, code, source, write, addr, count⟩ := s.chip.errLog_first i a.toNat cause wr idle
    have ifc : ifcCode i < 8 := Nat.lt_trans (ifcNum i).isLt (by decide)
    refine ⟨valid, code.trans (Nat.mod_eq_of_lt small), source.trans (Nat.mod_eq_of_lt ifc), write, addr.trans (Nat.mod_eq_of_lt ?_), count⟩
    exact Nat.lt_trans a.isLt (by decide)
  · subst write
    rw [exec_registerWrite_served a m d 0 served]
    simp only [fabWrite_refused (x := (s.chip, s.lock)) notSpi1 mask refused]
  · have admitted := s.admits_errValid served notSpi1
    have addr : (BitVec.ofNat 19 (REGB + REG_ERRLOG_CAUSE_VALID.off)).toNat = REGB + REG_ERRLOG_CAUSE_VALID.off := by decide
    have run := s.put_admitted i _ 0x8000 0x8000 admitted (by decide +kernel) (by decide +kernel) (by decide)
    refine ⟨s.wrote i (REGB + REG_ERRLOG_CAUSE_VALID.off)
      ((s.took i (REGB + REG_ERRLOG_CAUSE_VALID.off) 0x8000 0x8000).put REGB REG_ERRLOG_CAUSE_CAUSE 0), ?_, ?_⟩
    · show execRegisterWrite i _ 0x8000 0x8000 0 s = _
      rw [execRegisterWrite]
      simp only [Chip.metData_zero, addr]
      exact run
    · show ((s.took i (REGB + REG_ERRLOG_CAUSE_VALID.off) 0x8000 0x8000).put REGB REG_ERRLOG_CAUSE_CAUSE 0).on REGB REG_ERRLOG_CAUSE_VALID = false
      rw [Chip.on, Chip.get_put_apart _ _ _ _ _ _ (by decide)]
      exact Chip.merge_errValid _

end Sys2Proof.Machine
end

section
/-! A ledger entry and what its projections and proposals leave of it (14_calibration_and_ageing.md R466 to R469). -/

namespace Sys2Proof.Machine

/-- The ledger, its sequence and its event stay. -/
structure Chip.LedgerStays (c d : Chip) : Prop where
  ledger : d.age.ledger = c.age.ledger
  seq : d.age.seq = c.age.seq
  entry : d.get AGE AGE_EVT_ENTRY = c.get AGE AGE_EVT_ENTRY

namespace Chip.LedgerStays

theorem refl (c : Chip) : c.LedgerStays c := ⟨rfl, rfl, rfl⟩

theorem trans {c d e : Chip} (h : c.LedgerStays d) (g : d.LedgerStays e) : c.LedgerStays e :=
  ⟨g.ledger.trans h.ledger, g.seq.trans h.seq, g.entry.trans h.entry⟩

theorem put (c : Chip) (b : Nat) (f : Fld) (v : Nat) (h : Fld.apart b f AGE AGE_EVT_ENTRY) : c.LedgerStays (c.put b f v) :=
  ⟨rfl, rfl, Chip.get_put_apart _ _ _ _ _ _ h⟩

theorem each {α : Type} (l : List α) {f : Chip → α → Chip} (h : ∀ c a, Chip.LedgerStays c (f c a)) (c : Chip) : c.LedgerStays (c.each l f) := by
  induction l generalizing c with
  | nil => exact refl c
  | cons a l ih => exact (h c a).trans (ih _)

/-- The event lies beside the registers of every target. -/
theorem bk_apart (t : Nat) {f : Fld} (h : f.off < 0x30) : Fld.apart (bk t AGE) f AGE AGE_EVT_ENTRY := by
  refine .inl ?_
  show 0x4000 + 0x80000 * t + f.off ≠ 0x4000 + 0x30
  omega

theorem mtpAdd (c : Chip) (w : MtpWrite) : c.LedgerStays (c.mtpAdd w) :=
  ⟨rfl, rfl, Chip.get_put_apart _ _ _ _ _ _ (by decide)⟩

/-- A queued proposal. -/
theorem propose (c : Chip) (t : Nat) : c.LedgerStays (c.propose t) := by
  unfold Chip.propose
  split
  · next i k v _ _ =>
    dsimp only
    refine trans ?_ (mtpAdd _ _)
    exact ⟨rfl, rfl, (Chip.get_put_apart _ _ _ _ _ _ (by decide)).trans (Chip.get_congr rfl _ _)⟩
  · exact refl c

/-- The projection of one target. -/
theorem projected (c : Chip) (t y : Nat) (r : Int) (now : Option Int) :
    c.LedgerStays
      (let d := (c.put (bk t AGE) AGE_YTL_VALUE y).putS (bk t AGE) AGE_TREND_VALUE r
       if t < 8 then d.put (bk t AGE) AGE_NOW_VALUE (max 0 (min 65535 (d.age.d.getD t 0))).toNat
       else match now with
         | some v => d.putS (bk t AGE) AGE_NOW_VALUE v
         | none => d) := by
  have shown : c.LedgerStays ((c.put (bk t AGE) AGE_YTL_VALUE y).putS (bk t AGE) AGE_TREND_VALUE r) :=
    (put _ _ _ _ (bk_apart t (by decide))).trans (put _ _ _ _ (bk_apart t (by decide)))
  dsimp only
  split
  · exact shown.trans (put _ _ _ _ (bk_apart t (by decide)))
  · split
    · exact shown.trans (put _ _ _ _ (bk_apart t (by decide)))
    · exact shown

end Chip.LedgerStays

theorem Chip.ledgerWords_length (c : Chip) : c.ledgerWords.length = 15 := by
  simp [Chip.ledgerWords]

/-- What LEDGER_ENTRY leaves of the ledger. -/
theorem Chip.ledgerEntry_ledger (c : Chip) :
    c.ledgerEntry.age.ledger = ({ words := c.ledgerWords ++ [(crc32 (c.ledgerWords.flatMap (be 4))).toNat] } :: c.age.ledger).take 192 ∧
      c.ledgerEntry.age.seq = (c.age.seq + 1) % 65536 ∧ c.ledgerEntry.get AGE AGE_EVT_ENTRY = 1 := by
  unfold Chip.ledgerEntry
  extract_lets w crc seq now d e est f g due due'
  have entry : e.get AGE AGE_EVT_ENTRY = 1 := Chip.get_put _ _ _ _ (by decide)
  have projects : f.LedgerStays g := Chip.LedgerStays.each _ (fun c t => Chip.LedgerStays.projected c t _ _ (now (t - 8))) f
  have proposes : g.LedgerStays (g.each (due'.map (·.2)) Chip.propose) := Chip.LedgerStays.each _ Chip.LedgerStays.propose g
  obtain ⟨ledger, seq', event⟩ := projects.trans proposes
  exact ⟨ledger, seq', event.trans entry⟩

/-- Settles O44. -/
theorem ledgerKeepsTheNewestEntries : Obligations.LedgerKeepsTheNewestEntries := by
  intro s
  obtain ⟨ledger, seq, entry⟩ := s.chip.ledgerEntry_ledger
  refine ⟨s.on s.chip.ledgerEntry, _, rfl, ledger, ?_, seq, ?_⟩
  · rw [List.length_append, Chip.ledgerWords_length]
    rfl
  · show s.chip.ledgerEntry.on AGE AGE_EVT_ENTRY = true
    rw [Chip.on, entry]
    rfl

end Sys2Proof.Machine
end

section
/-! The reset state (12_clocks.md R397, 13_power_and_reset.md R443), and the balls and islands by power state (R441, R448, R515). -/

namespace Sys2Proof.Machine

/-- Settles O54, by evaluating the reset state. -/
theorem resetState : Obligations.ResetState := by
  refine ⟨rfl, rfl, rfl, ?_, ?_, ?_, ?_, rfl, rfl, rfl⟩ <;> decide +kernel

namespace Chip

section
variable {c : Chip} (p : Port) (l : Lane) (neg : Bool)

/-- While the core has its balls, the ball of a pair or a lane is its own. -/
theorem ballsTaken_none (core : c.on TAP TAP_STAT_CORE_OFF = false) (on : c.pwr.mode ≠ 4) : c.ballsTaken = none := by
  rw [ballsTaken, if_neg on, core]
  rfl

theorem ball_line (h : c.ballsTaken = none) : c.ball (.line p neg) = c.lineBall p := by simp [ball, supplyBall, h]
theorem ball_laneTx (h : c.ballsTaken = none) : c.ball (.lane l true neg) = c.laneBallTx l := by simp [ball, supplyBall, h]
theorem ball_laneRx (h : c.ballsTaken = none) : c.ball (.lane l false neg) = .quiet := by simp [ball, supplyBall, h]
theorem ball_low (b : LowBall) (h : c.ballsTaken = none) : c.ball (.low b) = c.lowBall b := by simp [ball, supplyBall, h]

theorem laneBallTx_idle (h : c.pwr.mode ≠ 0) : c.laneBallTx l = .idle := if_pos (.inr (.inl h))

theorem lineBall_doze (h : c.pwr.mode = 1) (reset : c.pwr.rstLow = false) :
    c.lineBall p = if c.bit PWR PWR_WATCH_PAIRS_LISTEN p.val then .listens else .quiet := by simp [lineBall, h, reset]

theorem lineBall_asleep (h : c.pwr.mode = 2 ∨ c.pwr.mode = 3) (reset : c.pwr.rstLow = false) :
    c.lineBall p = if c.pwr.mode = 3 ∧ c.bit PWR PWR_WATCH_PAIRS_LISTEN p.val then .windows else .quiet := by
  rcases h with h | h
  · simp [lineBall, h, reset]
  · simp [lineBall, h, reset]

theorem islandBias_doze (h : c.pwr.mode = 1) {k : Nat} (low : 2 ≤ k) (high : k ≤ 5) (on : c.islandOn k = true) : c.islandBias k = .reverse := by
  simp [islandBias, on, h, low, high]

theorem islandBias_run (h : c.pwr.mode = 0) {k : Nat} (on : c.islandOn k = true) : c.islandBias k = .none := by
  simp [islandBias, on, h]

end
end Chip

/-- Settles O55, power state by power state. -/
theorem powerStateAtTheBalls : Obligations.PowerStateAtTheBalls := by
  intro c l p neg core hears
  refine ⟨fun asleep => ?_, fun doze => ?_, fun run k on => c.islandBias_run run on, fun off => ?_⟩
  · have own : c.ballsTaken = none := Chip.ballsTaken_none core (by omega)
    have deep : ¬ c.pwr.mode ≤ 1 := by omega
    refine ⟨?_, ?_, (Chip.ball_laneTx l neg own).trans (Chip.laneBallTx_idle l (by omega)), Chip.ball_laneRx l neg own, ?_, ?_,
      fun reset => (Chip.ball_line p neg own).trans (Chip.lineBall_asleep p asleep reset)⟩
    · rw [Chip.ball_low _ own, Chip.lowBall, decide_eq_false deep, Bool.and_false]
      rfl
    · rw [Chip.ball_low _ own, Chip.lowBall, Chip.alertLow, decide_eq_false deep, Bool.false_and, Bool.false_and]
      rfl
    · rcases asleep with h | h
      · simp [Chip.keepRetained, h]
      · simp [Chip.keepRetained, h]
    · exact if_neg deep
  · have own : c.ballsTaken = none := Chip.ballsTaken_none core (by omega)
    refine ⟨(Chip.ball_laneTx l neg own).trans (Chip.laneBallTx_idle l (by omega)), ?_, if_pos (by omega),
      fun reset => (Chip.ball_line p neg own).trans (Chip.lineBall_doze p doze reset), fun k low high on => c.islandBias_doze doze low high on⟩
    simp [Chip.keepRetained, doze]
  · have unpowered : c.ballsTaken = some .unpowered := if_pos off
    refine ⟨?_, ?_⟩
    · simp [Chip.ball, supplyBall, unpowered]
    · simp [Chip.ball, supplyBall, unpowered]

end Sys2Proof.Machine
end

section
/-! What admitted accesses leave in the registers (10_register_fabric.md R335, R336, R354). -/

namespace Sys2Proof.Machine

/-- A field whose bits no mask bit covers reads as before. -/
theorem get_of_agrees {c d : Chip} {b : Nat} {f : Fld} {m : BitVec 16} (h : agreeOutside m (d.reg (b + f.off)) (c.reg (b + f.off)))
    (apart : m &&& f.mask = 0) (fits : f.fits) : d.get b f = c.get b f := by
  apply Nat.eq_of_testBit_eq
  intro i
  simp only [Chip.get, Nat.testBit_mod_two_pow, Nat.testBit_div_two_pow]
  by_cases hi : i < f.w
  · have free : m.getLsbD (f.lo + i) = false := by
      have bit := congrArg (fun v : BitVec 16 => v.getLsbD (f.lo + i)) apart
      simp only [BitVec.getLsbD_and, fieldMask_getLsbD] at bit
      have inside : f.lo + i < 16 := by unfold Fld.fits at fits; omega
      simpa [hi, inside] using bit
    have same := h (f.lo + i) free
    rw [Nat.add_comm i]
    simp only [hi, decide_true, Bool.true_and]
    exact same
  · simp [hi]

/-- A field outside the mask of a write reads as before, in whatever register. -/
theorem State.took_get (s : State) (i : Ifc) (a : Nat) (m d : BitVec 16) (b : Nat) (f : Fld) (apart : m &&& f.mask = 0) (fits : f.fits)
    (pmc : (b + f.off) / 0x1000 ≠ 9) : (s.took i a m d).get b f = s.chip.get b f := by
  refine (get_of_agrees ((s.chip.countWr i).merge_agrees a m d _) apart fits).trans ?_
  rw [Chip.get, Chip.get, Chip.countWr_reg _ _ _ pmc]

/-- Beside registers and the PMC units a write that has only merged changes nothing. -/
theorem State.took_rest (s : State) (i : Ifc) (a : Nat) (m d : BitVec 16) :
    s.took i a m d = { s.chip with regs := (s.took i a m d).regs, freeCtr := (s.took i a m d).freeCtr } := by
  rw [State.took, Chip.merge_regs]
  unfold Chip.countWr
  split
  · have h := Chip.RegsOnly.pmcEvt s.chip 0 8 1
    unfold Chip.RegsOnly at h
    rw [h]
  · rfl

theorem Chip.counted_read (c : Chip) (i : Ifc) {a : Nat} (posted : a ≠ REGB + REG_POSTED_CLK.off) :
    (if i = .binder then c.binderRead a else c) = c.countRd i := by
  unfold Chip.countRd Chip.binderRead
  split
  · exact if_neg fun h => posted h.1
  · rfl

/-- An admitted read of a register of one word. -/
theorem State.read_admitted (s : State) {i : Ifc} {a : Nat} {r : RegDef} (served : s.chip.serves i = true) (notSpi1 : i ≠ .spi1)
    (gate : s.chip.gate a = 0) (hr : mapped a = some r) (word : r.wide = 0) (posted : a ≠ REGB + REG_POSTED_CLK.off) :
    s.actL (accRead i a 1) =
      .next (s.gave i a ((s.chip.countRd i).readEff a) ((s.chip.countRd i).view s.lock a)) := by
  have read : fabRead i a (s.chip, s.lock) = ((s.chip.countRd i).readEff a, (s.chip.countRd i).view s.lock a, 0) := by
    simp only [fabRead, hr, notSpi1, false_and, if_false, gate, word, if_true, ne_eq, not_true_eq_false]
    rw [Chip.counted_read s.chip i posted]
  simp [State.actL, accRead, served, readRun, read, answer]

/-- An admitted read of the lowest register of a wide value, which latches the rest. -/
theorem State.read_lowest (s : State) {i : Ifc} {a : Nat} {r : RegDef} (served : s.chip.serves i = true) (notSpi1 : i ≠ .spi1)
    (gate : s.chip.gate a = 0) (hr : mapped a = some r) (wide : r.wide ≠ 0) (place : r.place a = 0) (posted : a ≠ REGB + REG_POSTED_CLK.off) :
    s.actL (accRead i a 1) =
      .next (s.gave i a (((s.chip.countRd i).modIfc i fun y =>
        { y with latch := { base := a, words := (List.range r.wide).map fun k => ((s.chip.countRd i).view s.lock (a + k)).toNat } }).readEff a)
        ((s.chip.countRd i).view s.lock a)) := by
  have read : fabRead i a (s.chip, s.lock) = (((s.chip.countRd i).modIfc i fun y =>
      { y with latch := { base := a, words := (List.range r.wide).map fun k => ((s.chip.countRd i).view s.lock (a + k)).toNat } }).readEff a,
      (s.chip.countRd i).view s.lock a, 0) := by
    simp only [fabRead, hr, notSpi1, false_and, if_false, gate, wide, place, if_true, ne_eq, not_true_eq_false]
    rw [Chip.counted_read s.chip i posted]
  simp [State.actL, accRead, served, readRun, read, answer]

/-- A write of the value to the field reaches that field of the register alone, and the value is not reserved. -/
def RegDef.takes (d : RegDef) (f : Fld) (v : Nat) : Bool :=
  (d.fields.all fun g => if g.lo = f.lo ∧ g.w = f.w then g.acc == .rw && decide (g.min ≤ v ∧ v ≤ g.max) else f.mask &&& fieldMask g.lo g.w == 0) &&
    d.fields.any fun g => g.lo == f.lo && g.w == f.w

theorem splice_splice (x : BitVec 16) (lo w v : Nat) : splice (splice x lo w v) lo w v = splice x lo w v := by
  refine BitVec.eq_of_getLsbD_eq fun k hk => ?_
  simp only [splice_getLsbD]
  split
  · rfl
  · simp [hk]

theorem mergeWord_takes {d : RegDef} {f : Fld} {v : Nat} (h : d.takes f v = true) (fits : f.fits) (hv : v < 2 ^ f.w) (x : BitVec 16) :
    mergeWord d.fields f.mask (splice 0 f.lo f.w v) x = splice x f.lo f.w v := by
  simp only [RegDef.takes, Bool.and_eq_true] at h
  obtain ⟨each, some_field⟩ := h
  suffices run : ∀ l : List FieldDef, (∀ g ∈ l, g ∈ d.fields) → ∀ x : BitVec 16,
      l.foldl (fieldWrite f.mask (splice 0 f.lo f.w v)) x = if l.any (fun g => g.lo == f.lo && g.w == f.w) then splice x f.lo f.w v else x by
    rw [mergeWord, run d.fields (fun _ h => h), if_pos some_field]
  intro l
  induction l with
  | nil => exact fun _ _ => rfl
  | cons g l ih =>
    intro within x
    have here := List.all_eq_true.mp each g (within g List.mem_cons_self)
    rw [List.foldl_cons, ih (fun g h => within g (List.mem_cons_of_mem _ h)), List.any_cons]
    by_cases same : g.lo = f.lo ∧ g.w = f.w
    · obtain ⟨lo, w⟩ := same
      rw [if_pos ⟨lo, w⟩] at here
      simp only [Bool.and_eq_true, beq_iff_eq, decide_eq_true_eq] at here
      obtain ⟨acc, min, max⟩ := here
      have taken := fieldWrite_splice (f := g) acc (by rw [lo, w]; exact fits) min max (by rw [w]; exact hv) x
      rw [lo, w] at taken
      rw [taken]
      simp only [lo, w, beq_self_eq_true, Bool.and_self, Bool.true_or, if_true, splice_splice, ite_self]
    · have other : (g.lo == f.lo && g.w == f.w) = false := by
        simp only [Bool.and_eq_false_iff, beq_eq_false_iff_ne]
        omega
      rw [if_neg same, beq_iff_eq] at here
      rw [fieldWrite_id _ _ _ _ here, other, Bool.false_or]

/-- A register outside every indirection takes a value in one of its fields. -/
theorem State.took_takes (s : State) (i : Ifc) {b : Nat} {f : Fld} {v : Nat} {r : RegDef} (hr : mapped (b + f.off) = some r)
    (out : b + f.off ≠ FOLIO + FOLIO_OUT_CTL_SEL.off) (cap : b + f.off ≠ FOLIO + FOLIO_CAP_STAT_SEL.off)
    (key : (s.chip.countWr i).keyOf (b + f.off) = b + f.off) (takes : r.takes f v = true) (fits : f.fits) (hv : v < 2 ^ f.w) :
    s.took i (b + f.off) f.mask (splice 0 f.lo f.w v) = (s.chip.countWr i).put b f v := by
  unfold State.took Chip.merge
  simp only [hr, out, cap, or_self, if_false, key, mergeWord_takes takes fits hv]
  rfl

end Sys2Proof.Machine
end

section
/-! The control bits of a line port (02_line_port.md R49, R54 to R57, R62 to R65, R71, R79). -/

namespace Sys2Proof.Machine

-- One proof at a time: an evaluation by the kernel holds a thread until every proof before it is checked.
set_option Elab.async false

/-- Only the tone tables of a port's block are reached through a selector. -/
theorem Chip.keyOf_lp (c : Chip) (p : Port) {k : Nat} (hk : k < 0x1000) (tone : k ≠ 0x711) : c.keyOf (lpB p + k) = lpB p + k := by
  have block : (lpB p + k) / 0x1000 = 0x10 + p.val := by simp only [lpB]; omega
  unfold Chip.keyOf
  rw [block, lp_mod p k hk]
  fin_cases p <;> simp [tone]

/-- A field of every port's block takes a value. -/
def lpTakes (f : Fld) (v : Nat) : Bool := allPorts.all fun p => match mapped (lpB p + f.off) with | some r => r.takes f v | none => false

/-- An admitted write of a port's field leaves the value in it. -/
theorem State.took_lp (s : State) (i : Ifc) (p : Port) {f : Fld} {v : Nat} (takes : lpTakes f v = true) (off : f.off < 0x1000)
    (tone : f.off ≠ 0x711) (fits : f.fits) (hv : v < 2 ^ f.w) :
    s.took i (lpB p + f.off) f.mask (splice 0 f.lo f.w v) = (s.chip.countWr i).put (lpB p) f v := by
  have here := List.all_eq_true.mp takes p (mem_allPorts p)
  split at here
  · next r hr =>
    exact s.took_takes i hr (by simp only [lpB, FOLIO]; omega) (by simp only [lpB, FOLIO]; omega) (Chip.keyOf_lp _ p off tone) here fits hv
  · cases here

/-- Every port's block has a register of one word at the place. -/
def lpWord (k : Nat) : Bool := allPorts.all fun p => match mapped (lpB p + k) with | some r => r.wide == 0 | none => false

/-- An admitted read of a register of a port's block. -/
theorem State.lp_read (s : State) {i : Ifc} (p : Port) {k : Nat} (hk : k < 0x1000) (word : lpWord k = true) (h : s.admitsRead i (lpB p)) :
    s.actL (accRead i (lpB p + k) 1) =
      .next (s.gave i (lpB p + k) ((s.chip.countRd i).readEff (lpB p + k)) ((s.chip.countRd i).view s.lock (lpB p + k))) := by
  obtain ⟨served, notSpi1, gate⟩ := h
  have here := List.all_eq_true.mp word p (mem_allPorts p)
  have same : s.chip.gate (lpB p + k) = s.chip.gate (lpB p) := by
    have block : (lpB p + k) / 0x1000 = lpB p / 0x1000 := by simp only [lpB]; omega
    simp only [Chip.gate, block]
  split at here
  · next r hr => exact s.read_admitted served notSpi1 (same.trans gate) hr (beq_iff_eq.mp here) (by simp only [lpB, REGB]; omega)
  · cases here

/-- The side effect of a read in a port's block. -/
def Chip.readEffLp (c : Chip) (p : Port) (k : Nat) : Chip :=
  match k with
  | 0x202 => c.tapNext p
  | 0x712 =>
    let t := c.get (lpB p) OCT_TONE_SEL_TONE
    if c.on (lpB p) OCT_TONE_SEL_AUTOINC then c.put (lpB p) OCT_TONE_SEL_TONE (if 2039 ≤ t then 8 else t + 1) else c
  | 0x90B => c.pipDiagNext p
  | _ => c

theorem Chip.readEff_lp (c : Chip) (p : Port) {k : Nat} (hk : k < 0x1000) : c.readEff (lpB p + k) = c.readEffLp p k := by
  have block : (lpB p + k) / 0x1000 = 0x10 + p.val := by simp only [lpB]; omega
  have notCap : lpB p + k ≠ FOLIO + FOLIO_CAP_TIME_TIME.off := by simp only [lpB, FOLIO]; omega
  have port : Fin.ofNat 8 (0x10 + p.val) = p := by fin_cases p <;> rfl
  have within : 0x10 ≤ 0x10 + p.val ∧ 0x10 + p.val < 0x18 := by omega
  unfold Chip.readEff
  rw [if_neg notCap, block, if_pos within, lp_mod p k hk, port]
  rfl

section
variable (s : State) (i : Ifc) (p : Port)

/-- ENABLE as a write of it leaves it. -/
theorem Chip.on_enable {v : Nat} (hv : v < 2) :
    (s.took i (lpB p + PMA_CTL_ENABLE.off) PMA_CTL_ENABLE.mask (splice 0 PMA_CTL_ENABLE.lo PMA_CTL_ENABLE.w v)).on (lpB p) PMA_CTL_ENABLE =
      (v == 1) := by
  have takes : lpTakes PMA_CTL_ENABLE v = true := by
    rcases (by omega : v = 0 ∨ v = 1) with rfl | rfl
    · decide +kernel
    · decide +kernel
  rw [s.took_lp i p takes (by decide) (by decide) (by decide) hv, Chip.on, Chip.get_put _ _ _ _ (by decide)]
  exact congrArg (· == 1) (Nat.mod_eq_of_lt hv)

/-- A write of ENABLE that changes it. -/
theorem wroteLp_enable {c o : Chip} (m t : BitVec 16) (srst : t.getLsbD 1 = false) (h : o.on (lpB p) PMA_CTL_ENABLE ≠ c.on (lpB p) PMA_CTL_ENABLE) :
    Chip.wroteLp o c p (lpB p + PMA_CTL_ENABLE.off) m t = c.enableWritten p := by
  unfold Chip.wroteLp
  rw [lp_mod p _ (by decide)]
  exact (if_neg (by rw [srst]; exact Bool.false_ne_true)).trans (if_neg h)

theorem exec_portEnable (h : s.admits1 i (lpB p) PMA_CTL_ENABLE) (off : s.chip.on (lpB p) PMA_CTL_ENABLE = false) :
    exec (.portEnable i p) s = .next (s.wrote i (lpB p + PMA_CTL_ENABLE.off) ((s.set1 i (lpB p) PMA_CTL_ENABLE).portStart p)) := by
  have on := Chip.on_enable s i p (v := 1) (by decide)
  have before : (s.chip.countWr i).on (lpB p) PMA_CTL_ENABLE = false := by
    rw [Chip.on, Chip.get, Chip.countWr_reg _ _ _ (by simp only [lpB]; omega)]
    exact off
  show s.actL (accPut i (lpB p + PMA_CTL_ENABLE.off) PMA_CTL_ENABLE.mask (splice 0 PMA_CTL_ENABLE.lo PMA_CTL_ENABLE.w 1)) = _
  rw [s.lp_put i p PMA_CTL_ENABLE.off _ _ _ (by decide) (by decide +kernel) rfl h, wroteLp_enable p _ _ (by decide) (by rw [before, on]; decide),
    Chip.enableWritten, on]
  rfl

theorem exec_portDisable (h : s.admits1 i (lpB p) PMA_CTL_ENABLE) (on : s.chip.on (lpB p) PMA_CTL_ENABLE = true) (up : s.chip.lState p ≠ 0) :
    exec (.portDisable i p) s =
      .next (s.wrote i (lpB p + PMA_CTL_ENABLE.off) ((s.took i (lpB p + PMA_CTL_ENABLE.off) PMA_CTL_ENABLE.mask 0).toLink p 0)) := by
  have off := Chip.on_enable s i p (v := 0) (by decide)
  have before : (s.chip.countWr i).on (lpB p) PMA_CTL_ENABLE = true := by
    rw [Chip.on, Chip.get, Chip.countWr_reg _ _ _ (by simp only [lpB]; omega)]
    exact on
  have state : (s.took i (lpB p + PMA_CTL_ENABLE.off) PMA_CTL_ENABLE.mask (splice 0 PMA_CTL_ENABLE.lo PMA_CTL_ENABLE.w 0)).lState p ≠ 0 := by
    have taken := s.took_lp i p (f := PMA_CTL_ENABLE) (v := 0) (by decide +kernel) (by decide) (by decide) (by decide) (by decide)
    rw [taken, Chip.lState, Chip.get_put_beside _ _ _ (by decide), Chip.get, Chip.countWr_reg _ _ _ (by simp only [lpB]; omega)]
    exact up
  show s.actL (accPut i (lpB p + PMA_CTL_ENABLE.off) PMA_CTL_ENABLE.mask (splice 0 PMA_CTL_ENABLE.lo PMA_CTL_ENABLE.w 0)) = _
  rw [s.lp_put i p PMA_CTL_ENABLE.off _ _ _ (by decide) (by decide +kernel) rfl h, wroteLp_enable p _ _ (by decide) (by rw [before, off]; decide),
    Chip.enableWritten, off, if_neg (by decide), if_neg state]
  rfl

theorem exec_portSrst (h : s.admits1 i (lpB p) PMA_CTL_SRST) :
    exec (.portSrst i p) s =
      .next (s.wrote i (lpB p + PMA_CTL_SRST.off) (((s.set1 i (lpB p) PMA_CTL_SRST).put (lpB p) PMA_CTL_SRST 0).portReset p)) := by
  have acts : ∀ o c : Chip, ∀ m t : BitVec 16, t.getLsbD 1 = true →
      Chip.wroteLp o c p (lpB p + PMA_CTL_SRST.off) m t = (c.put (lpB p) PMA_CTL_SRST 0).portReset p := by
    intro o c m t srst
    unfold Chip.wroteLp
    rw [lp_mod p _ (by decide)]
    exact if_pos srst
  show s.actL (accPut i (lpB p + PMA_CTL_SRST.off) PMA_CTL_SRST.mask PMA_CTL_SRST.mask) = _
  rw [s.lp_put i p PMA_CTL_SRST.off _ _ _ (by decide) (by decide +kernel) rfl h, acts _ _ _ _ (by decide)]

/-- A write of 1 to RESTART acts. -/
theorem exec_restart (h : s.admits1 i (lpB p) LINK_CTL_RESTART) :
    exec (.restart i p false) s =
      .next (s.wrote i (lpB p + LINK_CTL_RESTART.off) ((s.set1 i (lpB p) LINK_CTL_RESTART).restartWritten p)) := by
  have acts : ∀ o c : Chip, ∀ m t : BitVec 16, t.getLsbD 7 = true →
      Chip.wroteLp o c p (lpB p + LINK_CTL_RESTART.off) m t = c.restartWritten p := by
    intro o c m t restart
    unfold Chip.wroteLp
    rw [lp_mod p _ (by decide)]
    exact if_pos restart
  show s.actL (accPut i (lpB p + LINK_CTL_RESTART.off) LINK_CTL_RESTART.mask LINK_CTL_RESTART.mask) = _
  rw [s.lp_put i p LINK_CTL_RESTART.off _ _ _ (by decide) (by decide +kernel) rfl h, acts _ _ _ _ (by decide)]

/-- RESTART with a criterion met in the same cycle keeps the lower cause of a link that has failed. -/
theorem exec_restart_met (down : s.chip.lState p = 8) (low : 1 ≤ s.chip.get (lpB p) LINK_STAT_FAIL_CAUSE)
    (high : s.chip.get (lpB p) LINK_STAT_FAIL_CAUSE ≤ 5) :
    ∃ c : Chip, exec (.restart i p true) s =
      .next (s.on (c.put (lpB p) LINK_STAT_FAIL_CAUSE (s.chip.get (lpB p) LINK_STAT_FAIL_CAUSE))) := by
  have kept := accPut_lock i (a := lpB p + LINK_CTL_RESTART.off) LINK_CTL_RESTART.mask LINK_CTL_RESTART.mask (s.chip, s.lock)
    (lpB_ne_lockAddr p _)
  refine ⟨(accBit i (lpB p) LINK_CTL_RESTART (s.chip, s.lock)).1, ?_⟩
  show execRestart i p true s = _
  simp only [execRestart, State.actL, if_true, Chip.causeKept]
  rw [if_pos ⟨down, low, high⟩, kept]

/-- A write that leaves the freeze bits leaves a running refresh. -/
theorem Chip.freezeWritten_of_agrees {c : Chip} {m old : BitVec 16} (h : agreeOutside m (c.reg (lpB p + DSP_CTL_FREEZE_AGC.off)) old)
    (apart : m &&& 0x1F#16 = 0) : c.freezeWritten p old = c := by
  refine if_neg fun newly => newly.1 (BitVec.eq_of_getLsbD_eq fun k hk => ?_)
  have bit := congrArg (fun v : BitVec 16 => v.getLsbD k) apart
  simp only [BitVec.getLsbD_and, BitVec.getLsbD_not, BitVec.ofNat_eq_ofNat, BitVec.getLsbD_zero, Bool.and_eq_false_iff] at bit ⊢
  rcases bit with bit | bit
  · rw [h k bit]
    simp [hk]
  · exact .inr bit

theorem exec_refreshReq (h : s.admits1 i (lpB p) DSP_CTL_REFRESH_REQ) :
    exec (.refreshReq i p) s =
      .next (s.wrote i (lpB p + DSP_CTL_REFRESH_REQ.off) ((s.set1 i (lpB p) DSP_CTL_REFRESH_REQ).refreshWritten p)) := by
  have acts : ∀ o c : Chip, ∀ m t : BitVec 16, t.getLsbD 9 = true → Chip.wroteLp o c p (lpB p + DSP_CTL_REFRESH_REQ.off) m t =
      (c.freezeWritten p (o.reg (lpB p + DSP_CTL_REFRESH_REQ.off))).refreshWritten p := by
    intro o c m t refresh
    unfold Chip.wroteLp
    rw [lp_mod p _ (by decide)]
    exact if_pos refresh
  have frozen := Chip.freezeWritten_of_agrees p ((s.chip.countWr i).merge_agrees (lpB p + DSP_CTL_REFRESH_REQ.off) DSP_CTL_REFRESH_REQ.mask
    DSP_CTL_REFRESH_REQ.mask (lpB p + DSP_CTL_FREEZE_AGC.off)) (by decide)
  show s.actL (accPut i (lpB p + DSP_CTL_REFRESH_REQ.off) DSP_CTL_REFRESH_REQ.mask DSP_CTL_REFRESH_REQ.mask) = _
  rw [s.lp_put i p DSP_CTL_REFRESH_REQ.off _ _ _ (by decide) (by decide +kernel) rfl h, acts _ _ _ _ (by decide)]
  exact congrArg (fun c : Chip => Host.Outcome.next (s.wrote i (lpB p + DSP_CTL_REFRESH_REQ.off) (c.refreshWritten p))) frozen

theorem exec_groupFreeze (bits : BitVec 5) (h : s.admits i (lpB p + DSP_CTL_FREEZE_AGC.off) 0x1F) :
    exec (.groupFreeze i p bits) s = .next (s.wrote i (lpB p + DSP_CTL_FREEZE_AGC.off)
      ((s.took i (lpB p + DSP_CTL_FREEZE_AGC.off) 0x1F (bits.setWidth 16)).freezeWritten p
        ((s.chip.countWr i).reg (lpB p + DSP_CTL_FREEZE_AGC.off)))) := by
  have acts : ∀ o c : Chip, ∀ m t : BitVec 16, t.getLsbD 9 = false → Chip.wroteLp o c p (lpB p + DSP_CTL_FREEZE_AGC.off) m t =
      c.freezeWritten p (o.reg (lpB p + DSP_CTL_FREEZE_AGC.off)) := by
    intro o c m t refresh
    unfold Chip.wroteLp
    rw [lp_mod p _ (by decide)]
    exact if_neg (by rw [refresh]; exact Bool.false_ne_true)
  have none : ((0x1F : BitVec 16) &&& bits.setWidth 16).getLsbD 9 = false := by simp
  show s.actL (accPut i (lpB p + DSP_CTL_FREEZE_AGC.off) 0x1F (bits.setWidth 16)) = _
  rw [s.lp_put i p DSP_CTL_FREEZE_AGC.off _ _ _ (by decide) (by decide +kernel) rfl h, acts _ _ _ _ none]

/-- A write of LPn_DSP_TAP_DATA sets the value that it selects; the register itself shows that value only. -/
theorem put_tapData (w : BitVec 16) (h : s.admits i (lpB p + DSP_TAP_DATA_VALUE.off) 0xFFFF) :
    s.actL (accPut i (lpB p + DSP_TAP_DATA_VALUE.off) 0xFFFF w) = .next (s.wrote i (lpB p + DSP_TAP_DATA_VALUE.off)
      (((s.took i (lpB p + DSP_TAP_DATA_VALUE.off) 0xFFFF w).setReg (lpB p + DSP_TAP_DATA_VALUE.off)
        ((s.chip.countWr i).reg (lpB p + DSP_TAP_DATA_VALUE.off))).tapWrite p w.toNat)) := by
  have held : ∀ v : BitVec 16, (v &&& ~~~(0xFFFF : BitVec 16)) ||| w = w := fun v => by
    have none : v &&& ~~~(0xFFFF : BitVec 16) = 0 := BitVec.and_zero
    rw [none]
    exact BitVec.zero_or
  have all : (0xFFFF : BitVec 16) &&& w = w := BitVec.allOnes_and
  have acts : ∀ o c : Chip, Chip.wroteLp o c p (lpB p + DSP_TAP_DATA_VALUE.off) 0xFFFF w =
      (c.setReg (lpB p + DSP_TAP_DATA_VALUE.off) (o.reg (lpB p + DSP_TAP_DATA_VALUE.off))).tapWrite p w.toNat := by
    intro o c
    unfold Chip.wroteLp
    rw [lp_mod p _ (by decide), held]
    rfl
  rw [s.lp_put i p DSP_TAP_DATA_VALUE.off _ _ _ (by decide) (by decide +kernel) all h, acts]

theorem exec_dspTapDataAccess_write (w : BitVec 16) (met : Bool) (h : s.admits i (lpB p + DSP_TAP_DATA_VALUE.off) 0xFFFF)
    (frozen : met = true → s.chip.tapFrozen p (s.chip.tapSel p).1 = true) :
    exec (.dspTapDataAccess i p (some w) met) s = .next (s.wrote i (lpB p + DSP_TAP_DATA_VALUE.off)
      (((s.took i (lpB p + DSP_TAP_DATA_VALUE.off) 0xFFFF w).setReg (lpB p + DSP_TAP_DATA_VALUE.off)
        ((s.chip.countWr i).reg (lpB p + DSP_TAP_DATA_VALUE.off))).tapWrite p w.toNat)) := by
  rw [← put_tapData s i p w h]
  show execDspTapDataAccess i p (some w) met s = _
  cases met with
  | false => rfl
  | true =>
    simp only [execDspTapDataAccess, State.actL, Chip.tapsKept, frozen rfl, Option.isSome_some, Bool.and_self, if_true]

/-- The value of an adaptation step wins over the software's in the same cycle. -/
theorem exec_dspTapDataAccess_lost (w : BitVec 16) (free : s.chip.tapFrozen p (s.chip.tapSel p).1 = false) :
    ∃ t, exec (.dspTapDataAccess i p (some w) true) s = .next t ∧ (t.chip.port p).link.taps = (s.chip.port p).link.taps ∧
      (t.chip.port p).link.centres = (s.chip.port p).link.centres := by
  have kept : ∀ c : Chip, ((Chip.tapsKept s.chip c p).port p).link.taps = (s.chip.port p).link.taps ∧
      ((Chip.tapsKept s.chip c p).port p).link.centres = (s.chip.port p).link.centres := by
    intro c
    rw [Chip.tapsKept, free, if_neg Bool.false_ne_true, Chip.modLink, Chip.port_modPort, if_pos rfl]
    exact ⟨rfl, rfl⟩
  exact ⟨_, rfl, kept _⟩

theorem exec_dspTapDataAccess_read (met : Bool) (h : s.admitsRead i (lpB p)) :
    exec (.dspTapDataAccess i p none met) s = .next (s.gave i (lpB p + DSP_TAP_DATA_VALUE.off) ((s.chip.countRd i).tapNext p)
      ((s.chip.countRd i).view s.lock (lpB p + DSP_TAP_DATA_VALUE.off))) := by
  have read := s.lp_read p (k := DSP_TAP_DATA_VALUE.off) (by decide) (by decide +kernel) h
  rw [Chip.readEff_lp _ p (by decide)] at read
  have plain : exec (.dspTapDataAccess i p none met) s = s.actL (accRead i (lpB p + DSP_TAP_DATA_VALUE.off) 1) := by
    show execDspTapDataAccess i p none met s = _
    simp only [execDspTapDataAccess, Option.isSome_none, Bool.and_false]
    rfl
  exact plain.trans read

end

/-- Settles O1. -/
theorem portControlWritesComplete : Obligations.PortControlWritesComplete := by
  intro s i p
  refine ⟨exec_portEnable s i p, exec_portDisable s i p, exec_portSrst s i p, fun h up down => ?_, fun _ down low high => exec_restart_met s i p down low high,
    fun h adapts => ?_, exec_groupFreeze s i p, exec_dspTapDataAccess_write s i p, exec_dspTapDataAccess_lost s i p,
    exec_dspTapDataAccess_read s i p, fun mode h differs off => ?_⟩
  · rw [exec_restart s i p h, Chip.restartWritten]
    dsimp only
    rw [if_neg up, if_neg down]
  · rw [exec_refreshReq s i p h, Chip.refreshWritten]
    dsimp only
    rw [if_pos adapts]
  · show s.actL (accPut i (HGRP + HGRP_MODE_MODE.off) HGRP_MODE_MODE.mask (splice 0 HGRP_MODE_MODE.lo HGRP_MODE_MODE.w mode.toNat)) = _
    rw [State.put_admitted s i _ _ _ h (by decide +kernel) (by decide +kernel) (by decide)]
    have applies : (s.took i (HGRP + HGRP_MODE_MODE.off) HGRP_MODE_MODE.mask (splice 0 0 3 mode.toNat)).modeWritten =
        (s.took i (HGRP + HGRP_MODE_MODE.off) HGRP_MODE_MODE.mask (splice 0 0 3 mode.toNat)).hostModeApply
          ((s.took i (HGRP + HGRP_MODE_MODE.off) HGRP_MODE_MODE.mask (splice 0 0 3 mode.toNat)).get HGRP HGRP_MODE_MODE) :=
      (if_neg differs).trans (if_pos off)
    rw [← applies]
    rfl

end Sys2Proof.Machine
end

section
/-! The request bits of a port's Octavo, Pip and cable blocks (03_octavo.md R116, 04_pip_channel.md R140 to R159,
05_cable_and_idle.md R160, R179). -/

namespace Sys2Proof.Machine

-- One proof at a time: an evaluation by the kernel holds a thread until every proof before it is checked.
set_option Elab.async false

/-- A field outside the mask of a merge reads as before. -/
theorem Chip.get_merge (c : Chip) (a : Nat) (m d : BitVec 16) (b : Nat) (f : Fld) (apart : m &&& f.mask = 0) (fits : f.fits) :
    (c.merge a m d).get b f = c.get b f := get_of_agrees (c.merge_agrees a m d _) apart fits

/-- Bits of a register outside the mask of a merge differ in nothing. -/
theorem Chip.xor_merge (c : Chip) (a : Nat) (m d w : BitVec 16) (x : Nat) (apart : w &&& ~~~m = w) :
    (c.reg x ^^^ (c.merge a m d).reg x) &&& w = 0 := by
  have same := (agreeOutside_iff _ _ _).mp (c.merge_agrees a m d x)
  rw [← apart, BitVec.and_comm w, ← BitVec.and_assoc, BitVec.xor_comm, same]
  exact BitVec.zero_and

section
variable (s : State) (i : Ifc) (p : Port)

/-- A write of 1 to one bit of a port's block, up to its effect. -/
theorem State.lp_bit (f : Fld) {x : Chip} (hk : f.off < 0x1000) (plain : lpPlain f.off f.mask = true) (h : s.admits1 i (lpB p) f)
    (acts : Chip.wroteLp (s.chip.countWr i) (s.set1 i (lpB p) f) p (lpB p + f.off) f.mask f.mask = x) :
    s.actL (accBit i (lpB p) f) = .next (s.wrote i (lpB p + f.off) x) := by
  rw [show s.actL (accBit i (lpB p) f) = s.actL (accPut i (lpB p + f.off) f.mask f.mask) from rfl,
    s.lp_put i p f.off f.mask f.mask f.mask hk plain (BitVec.and_self) h, acts]

theorem exec_reload (h : s.admits1 i (lpB p) OCT_CTL_RELOAD) :
    exec (.reload i p) s = .next (s.wrote i (lpB p + OCT_CTL_RELOAD.off) ((s.set1 i (lpB p) OCT_CTL_RELOAD).reloadWritten p)) := by
  refine s.lp_bit i p OCT_CTL_RELOAD (by decide) (by decide +kernel) h ?_
  unfold Chip.wroteLp
  rw [lp_mod p _ (by decide)]
  exact if_pos (by decide)

/-- The MASTER's reload begins at once. -/
theorem Chip.reloadWritten_master {c : Chip} (shows : (c.put (lpB p) OCT_CTL_RELOAD 0).showtime p = true)
    (free : (c.put (lpB p) OCT_CTL_RELOAD 0).reloadHeld p = 0) (master : ((c.put (lpB p) OCT_CTL_RELOAD 0).port p).oct.master = true) :
    c.reloadWritten p = ((c.put (lpB p) OCT_CTL_RELOAD 0).omcNext p).reloadStart p ((c.put (lpB p) OCT_CTL_RELOAD 0).port p).oct.omcSeq := by
  have master' : (((c.put (lpB p) OCT_CTL_RELOAD 0).omcNext p).port p).oct.master = true := by
    rw [Chip.omcNext, Chip.modOct, Chip.port_modPort, if_pos rfl]
    exact master
  unfold Chip.reloadWritten
  dsimp only
  rw [shows, if_neg (by decide), if_neg (by rw [free]; decide), if_pos master']

/-- A request bit of PIP_CTL written 1 leaves EN, so that only its own effect follows. -/
theorem wroteLp_pipCtl (c : Chip) (m d t : BitVec 16) (apart : m &&& PIP_CTL_EN.mask = 0) :
    Chip.wroteLp c (c.merge (lpB p + 0x900) m d) p (lpB p + 0x900) m t =
      let c := c.merge (lpB p + 0x900) m d
      let c := if t.getLsbD 12 then c.wakeReqWritten p else c
      let c := if t.getLsbD 13 then c.sleepReqWritten p else c
      if t.getLsbD 14 then c.diagReqWritten p else c := by
  have enabled : (c.merge (lpB p + 0x900) m d).on (lpB p) PIP_CTL_EN = c.on (lpB p) PIP_CTL_EN := by
    rw [Chip.on, Chip.on, Chip.get_merge _ _ _ _ _ _ apart (by decide)]
  have stays : ¬ (c.on (lpB p) PIP_CTL_EN = true ∧ (c.merge (lpB p + 0x900) m d).on (lpB p) PIP_CTL_EN = false) := by
    rw [enabled]
    rintro ⟨on, off⟩
    exact absurd (on.symm.trans off) (by decide)
  unfold Chip.wroteLp
  rw [lp_mod p _ (by decide)]
  dsimp only
  rw [if_neg stays]
  rfl

theorem exec_wakeReq (h : s.admits1 i (lpB p) PIP_CTL_WAKE_REQ) :
    exec (.wakeReq i p) s = .next (s.wrote i (lpB p + PIP_CTL_WAKE_REQ.off) ((s.set1 i (lpB p) PIP_CTL_WAKE_REQ).wakeReqWritten p)) := by
  have acts := wroteLp_pipCtl p (s.chip.countWr i) PIP_CTL_WAKE_REQ.mask PIP_CTL_WAKE_REQ.mask PIP_CTL_WAKE_REQ.mask (by decide)
  dsimp only at acts
  rw [if_neg (by decide), if_neg (by decide), if_pos (by decide)] at acts
  exact s.lp_bit i p PIP_CTL_WAKE_REQ (by decide) (by decide +kernel) h acts

theorem exec_sleepReq (h : s.admits1 i (lpB p) PIP_CTL_SLEEP_REQ) :
    exec (.sleepReq i p) s = .next (s.wrote i (lpB p + PIP_CTL_SLEEP_REQ.off) ((s.set1 i (lpB p) PIP_CTL_SLEEP_REQ).sleepReqWritten p)) := by
  have acts := wroteLp_pipCtl p (s.chip.countWr i) PIP_CTL_SLEEP_REQ.mask PIP_CTL_SLEEP_REQ.mask PIP_CTL_SLEEP_REQ.mask (by decide)
  dsimp only at acts
  rw [if_neg (by decide), if_pos (by decide), if_neg (by decide)] at acts
  exact s.lp_bit i p PIP_CTL_SLEEP_REQ (by decide) (by decide +kernel) h acts

theorem exec_diagReq (h : s.admits1 i (lpB p) PIP_CTL_DIAG_REQ) :
    exec (.diagReq i p) s = .next (s.wrote i (lpB p + PIP_CTL_DIAG_REQ.off) ((s.set1 i (lpB p) PIP_CTL_DIAG_REQ).diagReqWritten p)) := by
  have acts := wroteLp_pipCtl p (s.chip.countWr i) PIP_CTL_DIAG_REQ.mask PIP_CTL_DIAG_REQ.mask PIP_CTL_DIAG_REQ.mask (by decide)
  dsimp only at acts
  rw [if_pos (by decide), if_neg (by decide), if_neg (by decide)] at acts
  exact s.lp_bit i p PIP_CTL_DIAG_REQ (by decide) (by decide +kernel) h acts

/-- A request that the port can send takes the place of an older one. -/
theorem Chip.pipRequest_runs {c : Chip} (typ : Nat) (f : Fld) (body : Bytes) (up : c.lState p ≠ 0) (en : c.on (lpB p) PIP_CTL_EN = true) :
    c.pipRequest p typ f body = ((c.pipDrop p fun m => m.typ == typ).put (lpB p) f 1).pipPost p typ body :=
  if_neg fun h => h.elim up fun off => absurd (en.symm.trans off) (by decide)

/-- A burst that starts is numbered with the next SEQ. -/
theorem Chip.startBurst_pip (c : Chip) : ((c.startBurst p).port p).pip.burst = true ∧ ((c.startBurst p).port p).pip.burstSeq = (c.port p).pip.seq := by
  have numbered : ((c.startBurst p).port p).pip = ((((c.nextSeq p).modPip p fun x =>
      { x with burst := true, burstSeq := (c.port p).pip.seq, burstAt := c.tpll, burstLen := c.get (lpB p) PIP_WAKE_BURST,
               wire := pipBits (be 1 5 ++ be 1 (c.port p).pip.seq ++ c.identBytes p ++ be 1 0) }).port p).pip) := rfl
  rw [numbered, Chip.modPip, Chip.port_modPort, if_pos rfl]
  exact ⟨rfl, rfl⟩

/-- A WAKE alone on a free transmitter starts its burst. -/
theorem Chip.wakeNow_pip {c : Chip} {m : PipMsg} (only : (c.port p).pip.waiting = [m]) (typ : m.typ = 5) (runs : c.pipRuns p = true)
    (idle : c.tdrBusy p = false) (free : c.pipSends p = false) :
    ((c.wakeNow p).port p).pip.burst = true ∧ ((c.wakeNow p).port p).pip.burstSeq = (c.port p).pip.seq := by
  have seq : (((c.modPip p fun x => { x with waiting := x.waiting.filter fun m => m.typ != 5 }).port p).pip).seq = (c.port p).pip.seq := by
    rw [Chip.modPip, Chip.port_modPort, if_pos rfl]
  have starts : c.wakeNow p = (c.modPip p fun x => { x with waiting := x.waiting.filter fun m => m.typ != 5 }).startBurst p := by
    unfold Chip.wakeNow
    rw [only]
    exact if_pos ⟨typ, runs, idle, free⟩
  rw [starts, ← seq]
  exact Chip.startBurst_pip p _

/-- A WAKE that waits in place of an older one. -/
def Chip.wakeQueued (c : Chip) (p : Port) : Chip := ((c.pipDrop p fun m => m.typ == 5).put (lpB p) PIP_CTL_WAKE_REQ 1).pipPost p 5 []

/-- It changes no field of the block but WAKE_REQ and OUTSTANDING. -/
theorem Chip.get_wakeQueued (c : Chip) (f : Fld) (h : Fld.apart 0 PIP_CTL_WAKE_REQ 0 f) (h' : Fld.apart 0 PIP_STAT_OUTSTANDING 0 f) :
    (c.wakeQueued p).get (lpB p) f = c.get (lpB p) f := by
  refine (Chip.get_congr (Chip.modPort_regs _ _ _) _ _).trans ?_
  rw [Chip.get_put_beside _ _ _ h]
  refine (Chip.get_put_beside _ _ _ h').trans ?_
  exact Chip.get_congr rfl _ _

/-- What waits, and what the transmitter does, beside it. -/
theorem Chip.pip_wakeQueued (c : Chip) :
    ∃ m : PipMsg, m.typ = 5 ∧ ((c.wakeQueued p).port p).pip.waiting = ((c.port p).pip.waiting.filter fun m => !(m.typ == 5)) ++ [m] ∧
      ((c.wakeQueued p).port p).pip.burst = (c.port p).pip.burst ∧ ((c.wakeQueued p).port p).pip.sending = (c.port p).pip.sending ∧
      ((c.wakeQueued p).port p).pip.seq = (c.port p).pip.seq := by
  refine ⟨{ typ := 5, body := [], rate := ((c.pipDrop p fun m => m.typ == 5).put (lpB p) PIP_CTL_WAKE_REQ 1).rateOf p 5, answer := false }, rfl, ?_⟩
  have ports : ∀ (d : Chip) (b : Nat) (f : Fld) (v : Nat), (d.put b f v).port p = d.port p := fun _ _ _ _ => rfl
  simp only [wakeQueued, Chip.pipPost, Chip.pipQueue, Chip.pipDrop, Chip.setOutstanding, Chip.putB, Chip.modPip, Chip.port_modPort, ports,
    if_true, and_self]

/-- WAKE_REQ with nothing else to send starts a burst under the next SEQ. -/
theorem Chip.wakeReqWritten_idle {c : Chip} (runs : c.pipRuns p = true) (idle : c.tdrBusy p = false) (sending : (c.port p).pip.sending = none)
    (waiting : (c.port p).pip.waiting = []) :
    ((c.wakeReqWritten p).port p).pip.burst = true ∧ ((c.wakeReqWritten p).port p).pip.burstSeq = (c.port p).pip.seq := by
  unfold Chip.wakeReqWritten
  cases burst : (c.port p).pip.burst with
  | true => exact Chip.startBurst_pip p c
  | false =>
    have en : c.on (lpB p) PIP_CTL_EN = true := by
      simp only [Chip.pipRuns, Bool.and_eq_true] at runs
      exact runs.2
    have up : c.lState p ≠ 0 := by
      intro zero
      simp [Chip.pipRuns, pipState, zero] at runs
    rw [if_neg (by decide), Chip.pipRequest_runs p 5 PIP_CTL_WAKE_REQ [] up en]
    obtain ⟨m, typ, waits, still, sends, seq⟩ := Chip.pip_wakeQueued p c
    rw [waiting] at waits
    rw [← seq]
    refine Chip.wakeNow_pip p waits typ ?_ ?_ ?_
    · have state : (c.wakeQueued p).lState p = c.lState p := Chip.get_wakeQueued p c _ (by decide) (by decide)
      have enable : (c.wakeQueued p).on (lpB p) PIP_CTL_EN = c.on (lpB p) PIP_CTL_EN :=
        congrArg (· == 1) (Chip.get_wakeQueued p c _ (by decide) (by decide))
      show (c.wakeQueued p).pipRuns p = true
      rw [← runs, Chip.pipRuns, Chip.pipRuns, state, enable]
    · rw [← idle]
      exact congrArg (· == 1) (Chip.get_wakeQueued p c _ (by decide) (by decide))
    · show (c.wakeQueued p).pipSends p = false
      rw [Chip.pipSends, still, sends, burst, sending]
      rfl

theorem exec_wakeReq_idle (h : s.admits1 i (lpB p) PIP_CTL_WAKE_REQ) (runs : s.chip.pipRuns p = true) (idle : s.chip.tdrBusy p = false)
    (sending : (s.chip.port p).pip.sending = none) (waiting : (s.chip.port p).pip.waiting = []) :
    ∃ t, exec (.wakeReq i p) s = .next t ∧ (t.chip.port p).pip.burst = true ∧ (t.chip.port p).pip.burstSeq = (s.chip.port p).pip.seq := by
  have port : (s.set1 i (lpB p) PIP_CTL_WAKE_REQ).port p = s.chip.port p := by
    rw [State.set1, s.took_rest]
  have field : ∀ f : Fld, PIP_CTL_WAKE_REQ.mask &&& f.mask = 0 → f.fits → f.off < 0x1000 →
      (s.set1 i (lpB p) PIP_CTL_WAKE_REQ).get (lpB p) f = s.chip.get (lpB p) f := fun f apart fits off =>
    s.took_get i _ _ _ _ f apart fits (by simp only [lpB]; omega)
  have runs' : (s.set1 i (lpB p) PIP_CTL_WAKE_REQ).pipRuns p = true := by
    rw [← runs, Chip.pipRuns, Chip.pipRuns, Chip.lState, Chip.lState, Chip.on, Chip.on, field _ (by decide) (by decide) (by decide),
      field _ (by decide) (by decide) (by decide)]
  have idle' : (s.set1 i (lpB p) PIP_CTL_WAKE_REQ).tdrBusy p = false := by
    rw [← idle, Chip.tdrBusy, Chip.tdrBusy, Chip.on, Chip.on, field _ (by decide) (by decide) (by decide)]
  have burst := Chip.wakeReqWritten_idle p runs' idle' (by rw [port]; exact sending) (by rw [port]; exact waiting)
  rw [port] at burst
  have same : ∀ d : Chip, (s.wrote i (lpB p + PIP_CTL_WAKE_REQ.off) d).chip.port p = d.port p := fun _ => rfl
  refine ⟨_, exec_wakeReq s i p h, ?_⟩
  rw [same]
  exact burst

theorem exec_pipDiagCtlWrite (v : BitVec 16) (h : s.admits i (lpB p + PIP_DIAG_CTL_CODE.off) 0xFFFF) :
    exec (.pipDiagCtlWrite i p v) s = .next (s.wrote i (lpB p + PIP_DIAG_CTL_CODE.off)
      ((s.took i (lpB p + PIP_DIAG_CTL_CODE.off) 0xFFFF v).modPip p fun x => { x with diagPtr := 0 })) := by
  have acts : ∀ o c : Chip, ∀ m t : BitVec 16, Chip.wroteLp o c p (lpB p + PIP_DIAG_CTL_CODE.off) m t = c.pipDiagCtlWritten p := by
    intro o c m t
    unfold Chip.wroteLp
    rw [lp_mod p _ (by decide)]
    rfl
  show s.actL (accPut i (lpB p + PIP_DIAG_CTL_CODE.off) 0xFFFF v) = _
  rw [s.lp_put i p PIP_DIAG_CTL_CODE.off _ _ _ (by decide) (by decide +kernel) rfl h, acts]
  rfl

theorem exec_pipDiagDataAccess_write (w : BitVec 16) (h : s.admits i (lpB p + PIP_DIAG_DATA_DATA.off) 0xFFFF) :
    exec (.pipDiagDataAccess i p (some w)) s = .next (s.wrote i (lpB p + PIP_DIAG_DATA_DATA.off)
      (((s.took i (lpB p + PIP_DIAG_DATA_DATA.off) 0xFFFF w).setReg (lpB p + PIP_DIAG_DATA_DATA.off)
        ((s.chip.countWr i).reg (lpB p + PIP_DIAG_DATA_DATA.off))).pipDiagWrite p w.toNat)) := by
  have held : ∀ v : BitVec 16, (v &&& ~~~(0xFFFF : BitVec 16)) ||| w = w := fun v => by
    have none : v &&& ~~~(0xFFFF : BitVec 16) = 0 := BitVec.and_zero
    rw [none]
    exact BitVec.zero_or
  have all : (0xFFFF : BitVec 16) &&& w = w := BitVec.allOnes_and
  have acts : ∀ o c : Chip, Chip.wroteLp o c p (lpB p + PIP_DIAG_DATA_DATA.off) 0xFFFF w =
      (c.setReg (lpB p + PIP_DIAG_DATA_DATA.off) (o.reg (lpB p + PIP_DIAG_DATA_DATA.off))).pipDiagWrite p w.toNat := by
    intro o c
    unfold Chip.wroteLp
    rw [lp_mod p _ (by decide), held]
    rfl
  show s.actL (accPut i (lpB p + PIP_DIAG_DATA_DATA.off) 0xFFFF w) = _
  rw [s.lp_put i p PIP_DIAG_DATA_DATA.off _ _ _ (by decide) (by decide +kernel) all h, acts]

theorem exec_pipDiagDataAccess_read (h : s.admitsRead i (lpB p)) :
    exec (.pipDiagDataAccess i p none) s = .next (s.gave i (lpB p + PIP_DIAG_DATA_DATA.off)
      ((s.chip.countRd i).modPip p fun x => { x with diagPtr := (x.diagPtr + 2) % 64 })
      ((s.chip.countRd i).view s.lock (lpB p + PIP_DIAG_DATA_DATA.off))) := by
  have read := s.lp_read p (k := PIP_DIAG_DATA_DATA.off) (by decide) (by decide +kernel) h
  rw [Chip.readEff_lp _ p (by decide)] at read
  exact read

/-- A write of 1 to TDR_START or E_CLR leaves what L_EN and E_APPLY say. -/
theorem wroteLp_diagCtl (c : Chip) (m d t : BitVec 16) (apart : (0xC : BitVec 16) &&& ~~~m = 0xC) :
    Chip.wroteLp c (c.merge (lpB p + 0xA00) m d) p (lpB p + 0xA00) m t =
      let c := c.merge (lpB p + 0xA00) m d
      let c := if t.getLsbD 1 then c.eClrWritten p else c
      if t.getLsbD 0 then c.tdrStartWritten p else c := by
  have same := c.xor_merge (lpB p + 0xA00) m d 0xC (lpB p + 0xA00) apart
  unfold Chip.wroteLp
  rw [lp_mod p _ (by decide)]
  dsimp only
  rw [if_pos same]
  rfl

theorem exec_tdrStart (h : s.admits1 i (lpB p) DIAG_CTL_TDR_START) :
    exec (.tdrStart i p) s = .next (s.wrote i (lpB p + DIAG_CTL_TDR_START.off) ((s.set1 i (lpB p) DIAG_CTL_TDR_START).tdrStartWritten p)) := by
  have acts := wroteLp_diagCtl p (s.chip.countWr i) DIAG_CTL_TDR_START.mask DIAG_CTL_TDR_START.mask DIAG_CTL_TDR_START.mask (by decide)
  dsimp only at acts
  rw [if_pos (by decide), if_neg (by decide)] at acts
  exact s.lp_bit i p DIAG_CTL_TDR_START (by decide) (by decide +kernel) h acts

theorem exec_eClr (h : s.admits1 i (lpB p) DIAG_CTL_E_CLR) :
    exec (.eClr i p) s = .next (s.wrote i (lpB p + DIAG_CTL_E_CLR.off) ((s.set1 i (lpB p) DIAG_CTL_E_CLR).eClrWritten p)) := by
  have acts := wroteLp_diagCtl p (s.chip.countWr i) DIAG_CTL_E_CLR.mask DIAG_CTL_E_CLR.mask DIAG_CTL_E_CLR.mask (by decide)
  dsimp only at acts
  rw [if_neg (by decide), if_pos (by decide)] at acts
  exact s.lp_bit i p DIAG_CTL_E_CLR (by decide) (by decide +kernel) h acts

/-- A run starts while the link is down; without a burst in progress nothing else changes. -/
theorem Chip.tdrStartWritten_down {c : Chip} (down : c.lState p = 8 ∨ c.lState p = 9 ∨ c.lState p = 10) (quiet : (c.port p).pip.burst = false) :
    c.tdrStartWritten p =
      ((c.put (lpB p) DIAG_CTL_TDR_START 1).put (lpB p) DIAG_STAT_BUSY 1).modDiag p fun x => { x with tries := 0, shooting := false } := by
  unfold Chip.tdrStartWritten
  dsimp only
  rw [if_pos down]
  refine if_neg ?_
  rw [Chip.modDiag, Chip.port_modPort, if_pos rfl]
  exact (Bool.not_eq_true _).mpr quiet

end

/-- Settles O2. -/
theorem portRequestWritesComplete : Obligations.PortRequestWritesComplete := by
  intro s i p
  refine ⟨fun h shows free master => ?_, fun h up en => ?_, exec_wakeReq_idle s i p, fun h up en => ?_, fun h up en => ?_,
    exec_pipDiagCtlWrite s i p, exec_pipDiagDataAccess_write s i p, exec_pipDiagDataAccess_read s i p, fun h down quiet => ?_, exec_eClr s i p⟩
  · rw [exec_reload s i p h, Chip.reloadWritten_master p shows free master]
  · rw [exec_wakeReq s i p h, Chip.wakeReqWritten, Chip.pipRequest_runs p 5 PIP_CTL_WAKE_REQ [] up en]
  · rw [exec_sleepReq s i p h, Chip.sleepReqWritten, Chip.pipRequest_runs p 6 PIP_CTL_SLEEP_REQ _ up en]
  · rw [exec_diagReq s i p h, Chip.diagReqWritten]
    have field : ∀ (c : Chip) (g : PipSt → PipSt) (f : Fld), (c.modPip p g).get (lpB p) f = c.get (lpB p) f := fun _ _ _ =>
      Chip.get_congr (Chip.modPort_regs _ _ _) _ _
    rw [Chip.pipRequest_runs p 9 PIP_CTL_DIAG_REQ _ (by rw [Chip.lState, field]; exact up) (by rw [Chip.on, field]; exact en)]
  · rw [exec_tdrStart s i p h, Chip.tdrStartWritten_down p down quiet]

end Sys2Proof.Machine
end

section
/-! The commands of Folio through admitted accesses (06_folio_time.md R195, R196). -/

namespace Sys2Proof.Machine

-- One proof at a time: an evaluation by the kernel holds a thread until every proof before it is checked.
set_option Elab.async false

open Sys2Proof.Tests

/-- The TPLL cycle in which software last set the time, once a command has answered. -/
def cmdCycle (r : Res) : Option (Option Nat) := match r with | .next t => some t.chip.folio.cmdAt | _ => none

/-- FOLIO_CMD.ADD on a part in Run records the cycle of the command, as R196 needs it. -/
theorem cmdCycle_folioCmdAdd : cmdCycle (exec (.folioCmdAdd .spi0) (st base)) = some (some 0) := by decide +kernel

/-- The state that O3 names for that command leaves the record empty. -/
theorem cmdCycle_stated :
    (let s := st base
     let c := (s.set1 .spi0 FOLIO FOLIO_CMD_ADD).setReg 0xB001 0
     cmdCycle (.next (s.wrote .spi0 (FOLIO + FOLIO_CMD_ADD.off)
        ((c.moveTime ((c.now : Int) + signed 64 (c.wide (FOLIO + FOLIO_ADD_VALUE.off) 4))).timeSet)))) = some none := by decide +kernel

theorem admits_folioCmdAdd : (st base).admits1 .spi0 FOLIO FOLIO_CMD_ADD := by decide +kernel

/-- Refutes O3: in the clauses of SET and ADD the next state lacks the TPLL cycle of the command, which the part keeps so that a
servo step of the same cycle is discarded (R196). -/
theorem not_folioAccessesComplete : ¬ Obligations.FolioAccessesComplete := by
  intro h
  obtain ⟨_, add, _⟩ := h (st base) .spi0
  have stated := congrArg cmdCycle (add admits_folioCmdAdd)
  rw [cmdCycle_folioCmdAdd] at stated
  exact absurd (stated.trans cmdCycle_stated) (by decide)

end Sys2Proof.Machine
end

section
/-! Fields under a write of several at once (10_register_fabric.md R354). -/

namespace Sys2Proof.Machine

/-- A write of the mask gives the field of the register a value that is not reserved. -/
def RegDef.gives (r : RegDef) (f : Fld) (m : BitVec 16) (v : Nat) : Bool :=
  (r.fields.all fun g => if g.lo = f.lo ∧ g.w = f.w then g.acc == .rw && decide (g.min ≤ v ∧ v ≤ g.max) else fieldMask g.lo g.w &&& f.mask == 0) &&
    (r.fields.any fun g => g.lo == f.lo && g.w == f.w) && m &&& f.mask == f.mask

/-- A field takes bits of its own alone. -/
theorem fieldWrite_agrees_field (m d w : BitVec 16) (g : FieldDef) : agreeOutside (fieldMask g.lo g.w) (fieldWrite m d w g) w := by
  have own : fieldWrite m d w g = fieldWrite (m &&& fieldMask g.lo g.w) d w g := by
    unfold fieldWrite
    rw [BitVec.and_assoc, BitVec.and_self]
  rw [own]
  intro k hk
  exact fieldWrite_agrees _ d w g k (by rw [BitVec.getLsbD_and, hk, Bool.and_false])

/-- The value of a field. -/
def valueOf (f : Fld) (w : BitVec 16) : Nat := w.toNat / 2 ^ f.lo % 2 ^ f.w

theorem valueOf_of_agrees {f : Fld} {m v w : BitVec 16} (h : agreeOutside m v w) (apart : m &&& f.mask = 0) (fits : f.fits) :
    valueOf f v = valueOf f w := by
  apply Nat.eq_of_testBit_eq
  intro i
  simp only [valueOf, Nat.testBit_mod_two_pow, Nat.testBit_div_two_pow]
  by_cases hi : i < f.w
  · have free : m.getLsbD (f.lo + i) = false := by
      have bit := congrArg (fun v : BitVec 16 => v.getLsbD (f.lo + i)) apart
      simp only [BitVec.getLsbD_and, fieldMask_getLsbD] at bit
      have inside : f.lo + i < 16 := by unfold Fld.fits at fits; omega
      simpa [hi, inside] using bit
    rw [Nat.add_comm i]
    simp only [hi, decide_true, Bool.true_and]
    exact h (f.lo + i) free
  · simp [hi]

/-- A writable field under a mask that covers it takes the value of the data. -/
theorem valueOf_fieldWrite {f : Fld} {g : FieldDef} {m d : BitVec 16} (lo : g.lo = f.lo) (w : g.w = f.w) (acc : g.acc = .rw)
    (covers : m &&& f.mask = f.mask) (min : g.min ≤ valueOf f d) (max : valueOf f d ≤ g.max) (x : BitVec 16) :
    valueOf f (fieldWrite m d x g) = valueOf f d := by
  have word : valueOf f ((x &&& ~~~f.mask) ||| (d &&& f.mask)) = valueOf f d := by
    apply Nat.eq_of_testBit_eq
    intro i
    simp only [valueOf, Nat.testBit_mod_two_pow, Nat.testBit_div_two_pow]
    by_cases hi : i < f.w
    · have bit : ((x &&& ~~~f.mask) ||| (d &&& f.mask)).getLsbD (i + f.lo) = d.getLsbD (i + f.lo) := by
        simp only [BitVec.getLsbD_or, BitVec.getLsbD_and, BitVec.getLsbD_not, fieldMask_getLsbD]
        by_cases inside : i + f.lo < 16
        · simp [inside, show f.lo ≤ i + f.lo from Nat.le_add_left _ _, show i + f.lo < f.lo + f.w by omega]
        · simp [inside, BitVec.getLsbD_of_ge d _ (Nat.le_of_not_lt inside)]
      exact congrArg (decide (i < f.w) && ·) bit
    · simp [hi]
  unfold fieldWrite
  rw [acc, lo, w, show m &&& fieldMask f.lo f.w = f.mask from covers]
  dsimp only
  rw [show ((x &&& ~~~f.mask) ||| (d &&& f.mask)).toNat / 2 ^ f.lo % 2 ^ f.w = valueOf f d from word, if_pos ⟨min, max⟩]
  exact word

/-- A register under a write that gives one of its fields a value. -/
theorem mergeWord_gives {r : RegDef} {f : Fld} {m d : BitVec 16} (h : r.gives f m (valueOf f d) = true) (fits : f.fits) (x : BitVec 16) :
    valueOf f (mergeWord r.fields m d x) = valueOf f d := by
  simp only [RegDef.gives, Bool.and_eq_true, beq_iff_eq] at h
  obtain ⟨⟨each, some_field⟩, covers⟩ := h
  suffices run : ∀ l : List FieldDef, (∀ g ∈ l, g ∈ r.fields) → ∀ x : BitVec 16,
      (l.any (fun g => g.lo == f.lo && g.w == f.w) = true ∨ valueOf f x = valueOf f d) → valueOf f (l.foldl (fieldWrite m d) x) = valueOf f d from
    run r.fields (fun _ h => h) x (.inl some_field)
  intro l
  induction l with
  | nil => exact fun _ x h => h.resolve_left (by simp)
  | cons g l ih =>
    intro within x h
    have here := List.all_eq_true.mp each g (within g List.mem_cons_self)
    refine ih (fun g h => within g (List.mem_cons_of_mem _ h)) _ ?_
    by_cases same : g.lo = f.lo ∧ g.w = f.w
    · rw [if_pos same] at here
      simp only [Bool.and_eq_true, beq_iff_eq, decide_eq_true_eq] at here
      obtain ⟨acc, min, max⟩ := here
      exact .inr (valueOf_fieldWrite same.1 same.2 acc covers min max x)
    · rw [if_neg same, beq_iff_eq] at here
      have other : (g.lo == f.lo && g.w == f.w) = false := by
        simp only [Bool.and_eq_false_iff, beq_eq_false_iff_ne]
        omega
      refine h.imp (fun any => ?_) fun value => ?_
      · rwa [List.any_cons, other, Bool.false_or] at any
      · rw [← value]
        exact valueOf_of_agrees (fieldWrite_agrees_field m d x g) here fits

/-- A field of a register outside every indirection under a write of several fields. -/
theorem State.took_gives (s : State) (i : Ifc) {b : Nat} {f : Fld} {m d : BitVec 16} {r : RegDef} (hr : mapped (b + f.off) = some r)
    (out : b + f.off ≠ FOLIO + FOLIO_OUT_CTL_SEL.off) (cap : b + f.off ≠ FOLIO + FOLIO_CAP_STAT_SEL.off)
    (key : (s.chip.countWr i).keyOf (b + f.off) = b + f.off) (gives : r.gives f m (valueOf f d) = true) (fits : f.fits) :
    (s.took i (b + f.off) m d).get b f = valueOf f d := by
  rw [Chip.get, State.took, Chip.merge_reg _ _ _ _ r hr out cap, if_pos key.symm]
  exact mergeWord_gives gives fits _

end Sys2Proof.Machine
end

section
/-! The control bits of lanes, Quire and the Spine (07_host_lanes_and_retimer.md R230, R236, R263, R264, 08_quire_buffer.md R297,
09_spine_cascade.md R313, R330 to R334). -/

namespace Sys2Proof.Machine

-- One proof at a time: an evaluation by the kernel holds a thread until every proof before it is checked.
set_option Elab.async false

theorem Chip.keyOf_lane (c : Chip) (l : Lane) {k : Nat} (hk : k < 0x1000) : c.keyOf (laneB l + k) = laneB l + k := by
  have block : (laneB l + k) / 0x1000 = 0x20 + l.val := by simp only [laneB]; omega
  unfold Chip.keyOf
  rw [block]
  fin_cases l <;> simp

/-- A field of every lane's block takes a value under a mask. -/
def laneGives (f : Fld) (m : BitVec 16) (v : Nat) : Bool :=
  allLanes.all fun l => match mapped (laneB l + f.off) with | some r => r.gives f m v | none => false

theorem State.took_lane (s : State) (i : Ifc) (l : Lane) {f : Fld} {m d : BitVec 16} (gives : laneGives f m (valueOf f d) = true)
    (off : f.off < 0x1000) (fits : f.fits) : (s.took i (laneB l + f.off) m d).get (laneB l) f = valueOf f d := by
  have here := List.all_eq_true.mp gives l (mem_allLanes l)
  split at here
  · next r hr =>
    exact s.took_gives i hr (by simp only [laneB, FOLIO]; omega) (by simp only [laneB, FOLIO]; omega) (Chip.keyOf_lane _ l off) here fits
  · cases here

section
variable (s : State) (i : Ifc) (l : Lane)

/-- A write of 1 to one bit of a lane's block, up to its effect. -/
theorem State.lane_bit (f : Fld) {x : Chip} (hk : f.off < 0x1000) (plain : lanePlain f.off f.mask = true) (h : s.admits1 i (laneB l) f)
    (acts : Chip.wroteLane (s.chip.countWr i) (s.set1 i (laneB l) f) l (laneB l + f.off) f.mask f.mask = x) :
    s.actL (accBit i (laneB l) f) = .next (s.wrote i (laneB l + f.off) x) := by
  rw [show s.actL (accBit i (laneB l) f) = s.actL (accPut i (laneB l + f.off) f.mask f.mask) from rfl,
    s.lane_put i l f.off f.mask f.mask f.mask hk plain (BitVec.and_self) h, acts]

/-- What the Xn_CTL held says of ENABLE. -/
theorem getLsbD_laneCtl : ((s.chip.countWr i).reg (laneB l + XN_CTL_ENABLE.off)).getLsbD 0 = s.chip.laneOn l := by
  rw [Chip.countWr_reg _ _ _ (by simp only [laneB]; omega), Chip.laneOn, Chip.on, Chip.get]
  generalize s.chip.reg (laneB l + XN_CTL_ENABLE.off) = x
  rw [← BitVec.testBit_toNat, Nat.testBit_zero, show x.toNat / 2 ^ XN_CTL_ENABLE.lo = x.toNat from Nat.div_one _]
  rfl

/-- The effect of a write of ENABLE alone. -/
theorem wroteLane_enable (o c : Chip) (m t : BitVec 16) (srst : t.getLsbD 5 = false) :
    Chip.wroteLane o c l (laneB l + XN_CTL_ENABLE.off) m t = c.laneCtlWritten l (o.reg (laneB l + XN_CTL_ENABLE.off)) := by
  unfold Chip.wroteLane
  rw [lane_mod l _ (by decide)]
  exact if_neg (by rw [srst]; exact Bool.false_ne_true)

theorem exec_laneEnable (h : s.admits i (laneB l + XN_CTL_ENABLE.off) XN_CTL_ENABLE.mask) (off : s.chip.laneOn l = false) :
    exec (.laneEnable i l) s = .next (s.wrote i (laneB l + XN_CTL_ENABLE.off)
      ((((s.took i (laneB l + XN_CTL_ENABLE.off) XN_CTL_ENABLE.mask 1).laneStart l).laneEval l).rateCheck l)) := by
  have on : (s.took i (laneB l + XN_CTL_ENABLE.off) XN_CTL_ENABLE.mask 1).laneOn l = true :=
    congrArg (· == 1) (s.took_lane i l (f := XN_CTL_ENABLE) (d := 1) (by decide +kernel) (by decide) (by decide))
  show s.actL (accPut i (laneB l + XN_CTL_ENABLE.off) XN_CTL_ENABLE.mask 1) = _
  rw [s.lane_put i l XN_CTL_ENABLE.off _ _ _ (by decide) (by decide +kernel) rfl h, wroteLane_enable l _ _ _ _ (by decide),
    Chip.laneCtlWritten, getLsbD_laneCtl, off, on]
  rfl

theorem exec_laneDisable (h : s.admits i (laneB l + XN_CTL_ENABLE.off) XN_CTL_ENABLE.mask) (on : s.chip.laneOn l = true) :
    exec (.laneDisable i l) s = .next (s.wrote i (laneB l + XN_CTL_ENABLE.off)
      (((((s.took i (laneB l + XN_CTL_ENABLE.off) XN_CTL_ENABLE.mask 0).laneStop l).pendingMode).laneEval l).rateCheck l)) := by
  have off : (s.took i (laneB l + XN_CTL_ENABLE.off) XN_CTL_ENABLE.mask 0).laneOn l = false :=
    congrArg (· == 1) (s.took_lane i l (f := XN_CTL_ENABLE) (d := 0) (by decide +kernel) (by decide) (by decide))
  show s.actL (accPut i (laneB l + XN_CTL_ENABLE.off) XN_CTL_ENABLE.mask 0) = _
  rw [s.lane_put i l XN_CTL_ENABLE.off _ _ _ (by decide) (by decide +kernel) rfl h, wroteLane_enable l _ _ _ _ (by decide),
    Chip.laneCtlWritten, getLsbD_laneCtl, on, off]
  rfl

theorem exec_laneSrst (h : s.admits1 i (laneB l) XN_CTL_SRST) :
    exec (.laneSrst i l) s = .next (s.wrote i (laneB l + XN_CTL_SRST.off)
      (((s.set1 i (laneB l) XN_CTL_SRST).put (laneB l) XN_CTL_SRST 0).laneReset l)) := by
  refine s.lane_bit i l XN_CTL_SRST (by decide) (by decide +kernel) h ?_
  unfold Chip.wroteLane
  rw [lane_mod l _ (by decide)]
  exact if_pos (by decide)

theorem exec_trnRestart (h : s.admits1 i (laneB l) XN_TRN_CTL_RESTART) :
    exec (.trnRestart i l) s = .next (s.wrote i (laneB l + XN_TRN_CTL_RESTART.off)
      ((s.set1 i (laneB l) XN_TRN_CTL_RESTART).trnRestarted l)) := by
  refine s.lane_bit i l XN_TRN_CTL_RESTART (by decide) (by decide +kernel) h ?_
  unfold Chip.wroteLane
  rw [lane_mod l _ (by decide)]
  exact if_pos (by decide)

theorem exec_patInjOne (h : s.admits1 i (laneB l) XN_PAT_INJ_ONE) :
    exec (.patInjOne i l) s = .next (s.wrote i (laneB l + XN_PAT_INJ_ONE.off)
      (((s.set1 i (laneB l) XN_PAT_INJ_ONE).put (laneB l) XN_PAT_INJ_ONE 0).patInject l)) := by
  refine s.lane_bit i l XN_PAT_INJ_ONE (by decide) (by decide +kernel) h ?_
  unfold Chip.wroteLane
  rw [lane_mod l _ (by decide)]
  exact if_pos (by decide)

/-- Outside near-end loopback an injected bit is no error of the lane's own checker. -/
theorem Chip.patInject_apart {c : Chip} (gen : c.on (laneB l) XN_PAT_CTL_GEN_EN = true) (lpbk : c.get (laneB l) XN_CTL_LPBK = 0) :
    c.patInject l = c.modLane l fun x => { x with injected := x.injected + 1 } := by
  have same : (c.modLane l fun x => { x with injected := x.injected + 1 }).get (laneB l) XN_CTL_LPBK = c.get (laneB l) XN_CTL_LPBK := rfl
  unfold Chip.patInject
  dsimp only
  rw [if_pos gen, if_neg]
  rintro ⟨_, _, near⟩
  rw [same, lpbk] at near
  exact absurd near (by decide)

/-- An admitted write of a whole register's mask in a block of one's own, up to its effect. -/
theorem State.put_acts {a : Nat} {m d : BitVec 16} {x : Chip} (h : s.admits i a m) (plain : plainWord a = true) (reach : reaches a m = true)
    (free : noCombination a = true) (acts : Chip.wrote (s.chip.countWr i) (s.took i a m d) s.lock.bits a m (m &&& d) = x) :
    s.actL (accPut i a m d) = .next (s.wrote i a x) := by
  rw [s.put_admitted i a m d h plain reach free, acts]

theorem exec_quireSrst (h : s.admits1 i QUIRE QUIRE_CTL_SRST) :
    exec (.quireSrst i) s = .next (s.wrote i (QUIRE + QUIRE_CTL_SRST.off)
      (((s.set1 i QUIRE QUIRE_CTL_SRST).put QUIRE QUIRE_CTL_SRST 0).quireReset)) :=
  s.put_acts i h (by decide +kernel) (by decide +kernel) (by decide) rfl

theorem exec_spineSrst (h : s.admits1 i SPINE SPINE_CTL_SRST) :
    exec (.spineSrst i) s = .next (s.wrote i (SPINE + SPINE_CTL_SRST.off)
      (((s.set1 i SPINE SPINE_CTL_SRST).put SPINE SPINE_CTL_SRST 0).spineReset)) :=
  s.put_acts i h (by decide +kernel) (by decide +kernel) (by decide) rfl

theorem exec_demote (h : s.admits1 i SPINE SPINE_CMD_DEMOTE) :
    exec (.demote i) s = .next (s.wrote i (SPINE + SPINE_CMD_DEMOTE.off) (s.set1 i SPINE SPINE_CMD_DEMOTE).demoted) :=
  s.put_acts i h (by decide +kernel) (by decide +kernel) (by decide) rfl

theorem exec_wakeSouth (h : s.admits1 i SPINE SPINE_CMD_WAKE_SOUTH) :
    exec (.wakeSouth i) s = .next (s.wrote i (SPINE + SPINE_CMD_WAKE_SOUTH.off) (s.set1 i SPINE SPINE_CMD_WAKE_SOUTH).wakeSouth) :=
  s.put_acts i h (by decide +kernel) (by decide +kernel) (by decide) rfl

/-- A field of a block of one's own that reaches no selector takes its value. -/
theorem State.took_own {b : Nat} {f : Fld} {m d : BitVec 16} {r : RegDef} (hr : mapped (b + f.off) = some r)
    (own : b + f.off ≠ FOLIO + FOLIO_OUT_CTL_SEL.off ∧ b + f.off ≠ FOLIO + FOLIO_CAP_STAT_SEL.off ∧
      (s.chip.countWr i).keyOf (b + f.off) = b + f.off) (gives : r.gives f m (valueOf f d) = true) (fits : f.fits) :
    (s.took i (b + f.off) m d).get b f = valueOf f d := s.took_gives i hr own.1 own.2.1 own.2.2 gives fits

/-- A face's enable bit written 1 over 0 changes SPINE_CTL. -/
theorem wroteSpine_enable {o c : Chip} {b : Fld} (t : BitVec 16) (place : b.off = 0) (srst : t.getLsbD 4 = false)
    (covers : ~~~(3 : BitVec 16) &&& b.mask = 0) (fits : b.fits) (before : o.on SPINE b = false) (after : c.on SPINE b = true) :
    Chip.wroteSpine o c (SPINE + b.off) t = c.spineCtlWritten := by
  have changed : ¬ (o.reg (SPINE + b.off) ^^^ c.reg (SPINE + b.off)) &&& 3 = 0 := by
    intro same
    have agrees : agreeOutside (~~~(3 : BitVec 16)) (o.reg (SPINE + b.off)) (c.reg (SPINE + b.off)) :=
      (agreeOutside_iff _ _ _).mpr (by rwa [BitVec.not_not])
    have equal : o.get SPINE b = c.get SPINE b := valueOf_of_agrees agrees covers fits
    rw [Chip.on, equal] at before
    exact absurd (before.symm.trans after) (by decide)
  rw [place] at changed ⊢
  exact (if_neg (by rw [srst]; exact Bool.false_ne_true)).trans (if_neg changed)

/-- A face's enable bit. -/
def enableBit (f : Face) : Fld := match f with | .n => SPINE_CTL_NORTH_EN | .s => SPINE_CTL_SOUTH_EN

theorem exec_spineFaceEnable (f : Face) (h : s.admits1 i SPINE (enableBit f)) (off : s.chip.on SPINE (enableBit f) = false) :
    exec (.spineFaceEnable i f) s =
      .next (s.wrote i (SPINE + (enableBit f).off) (((s.set1 i SPINE (enableBit f)).faceEnabled .n).faceEnabled .s)) := by
  have before : (s.chip.countWr i).on SPINE (enableBit f) = false := by
    rw [Chip.on, Chip.get, Chip.countWr_reg _ _ _ (by cases f <;> decide)]
    exact off
  cases f with
  | n =>
    have after : (s.set1 i SPINE SPINE_CTL_NORTH_EN).on SPINE SPINE_CTL_NORTH_EN = true :=
      congrArg (· == 1) (s.took_own i (b := SPINE) (f := SPINE_CTL_NORTH_EN) (m := SPINE_CTL_NORTH_EN.mask) (d := SPINE_CTL_NORTH_EN.mask)
        rfl ⟨by decide, by decide, rfl⟩ (by decide +kernel) (by decide))
    exact s.put_acts i h (by decide +kernel) (by decide +kernel) (by decide)
      (wroteSpine_enable (b := SPINE_CTL_NORTH_EN) (SPINE_CTL_NORTH_EN.mask &&& SPINE_CTL_NORTH_EN.mask) rfl (by decide) (by decide) (by decide)
        before after)
  | s =>
    have after : (s.set1 i SPINE SPINE_CTL_SOUTH_EN).on SPINE SPINE_CTL_SOUTH_EN = true :=
      congrArg (· == 1) (s.took_own i (b := SPINE) (f := SPINE_CTL_SOUTH_EN) (m := SPINE_CTL_SOUTH_EN.mask) (d := SPINE_CTL_SOUTH_EN.mask)
        rfl ⟨by decide, by decide, rfl⟩ (by decide +kernel) (by decide))
    exact s.put_acts i h (by decide +kernel) (by decide +kernel) (by decide)
      (wroteSpine_enable (b := SPINE_CTL_SOUTH_EN) (SPINE_CTL_SOUTH_EN.mask &&& SPINE_CTL_SOUTH_EN.mask) rfl (by decide) (by decide) (by decide)
        before after)

theorem exec_spineRetrain (f : Face) (h : s.admits1 i (faceB f) SPF_CTL_RETRAIN) :
    exec (.spineRetrain i f) s = .next (s.wrote i (faceB f + SPF_CTL_RETRAIN.off) ((s.set1 i (faceB f) SPF_CTL_RETRAIN).retrain f)) := by
  cases f with
  | n => exact s.put_acts i h (by decide +kernel) (by decide +kernel) (by decide) rfl
  | s => exact s.put_acts i h (by decide +kernel) (by decide +kernel) (by decide) rfl

/-- STACK_RST with its kind and destination in the same write. -/
theorem exec_stackRst (kind dest : BitVec 2) (h : s.admits i (SPINE + SPINE_CMD_STACK_RST.off) 0x1F) :
    exec (.stackRst i kind dest) s = .next (s.wrote i (SPINE + SPINE_CMD_STACK_RST.off)
      ((s.took i (SPINE + SPINE_CMD_STACK_RST.off) 0x1F (BitVec.ofNat 16 (1 + 2 * kind.toNat + 8 * dest.toNat))).stackRst)) := by
  have bits : ∀ k d : BitVec 2, ((0x1F : BitVec 16) &&& BitVec.ofNat 16 (1 + 2 * k.toNat + 8 * d.toNat)).getLsbD 0 = true ∧
      ((0x1F : BitVec 16) &&& BitVec.ofNat 16 (1 + 2 * k.toNat + 8 * d.toNat)).getLsbD 5 = false ∧
      ((0x1F : BitVec 16) &&& BitVec.ofNat 16 (1 + 2 * k.toNat + 8 * d.toNat)).getLsbD 6 = false := by decide
  obtain ⟨asks, demote, wake⟩ := bits kind dest
  refine s.put_acts i h (by decide +kernel) (by decide +kernel) (by decide) ?_
  have acts : ∀ o c : Chip, ∀ t : BitVec 16, t.getLsbD 0 = true → t.getLsbD 5 = false → t.getLsbD 6 = false →
      Chip.wroteSpine o c (SPINE + SPINE_CMD_STACK_RST.off) t = c.stackRst := by
    intro o c t asks demote wake
    show (let c := if t.getLsbD 0 then c.stackRst else c
          let c := if t.getLsbD 5 then c.demoted else c
          if t.getLsbD 6 then c.wakeSouth else c) = _
    dsimp only
    rw [asks, demote, wake]
    rfl
  exact acts (s.chip.countWr i) (s.took i (SPINE + SPINE_CMD_STACK_RST.off) 0x1F (BitVec.ofNat 16 (1 + 2 * kind.toNat + 8 * dest.toNat)))
    (0x1F &&& BitVec.ofNat 16 (1 + 2 * kind.toNat + 8 * dest.toNat)) asks demote wake

/-- The kind (1 or 2) and the destination written with STACK_RST stand in SPINE_CMD when it acts. -/
theorem State.stackRst_fields (kind dest : BitVec 2) (known : kind = 1 ∨ kind = 2) :
    let c := (s.took i (SPINE + SPINE_CMD_STACK_RST.off) 0x1F (BitVec.ofNat 16 (1 + 2 * kind.toNat + 8 * dest.toNat))).put SPINE
      SPINE_CMD_STACK_RST 0
    c.get SPINE SPINE_CMD_RST_KIND = kind.toNat ∧ c.get SPINE SPINE_CMD_RST_DEST = dest.toNat := by
  have values : ∀ k d : BitVec 2, valueOf SPINE_CMD_RST_KIND (BitVec.ofNat 16 (1 + 2 * k.toNat + 8 * d.toNat)) = k.toNat ∧
      valueOf SPINE_CMD_RST_DEST (BitVec.ofNat 16 (1 + 2 * k.toNat + 8 * d.toNat)) = d.toNat := by decide
  obtain ⟨ofKind, ofDest⟩ := values kind dest
  obtain ⟨r, hr, giveKind, giveDest⟩ : ∃ r, mapped (SPINE + SPINE_CMD_STACK_RST.off) = some r ∧
      (∀ k d : BitVec 2, k = 1 ∨ k = 2 →
        r.gives SPINE_CMD_RST_KIND 0x1F (valueOf SPINE_CMD_RST_KIND (BitVec.ofNat 16 (1 + 2 * k.toNat + 8 * d.toNat))) = true) ∧
      (∀ k d : BitVec 2,
        r.gives SPINE_CMD_RST_DEST 0x1F (valueOf SPINE_CMD_RST_DEST (BitVec.ofNat 16 (1 + 2 * k.toNat + 8 * d.toNat))) = true) :=
    ⟨_, rfl, by decide +kernel, by decide +kernel⟩
  constructor
  · rw [Chip.get_put_beside]
    · exact (s.took_own i (b := SPINE) (f := SPINE_CMD_RST_KIND) (m := 0x1F) hr ⟨by decide, by decide, rfl⟩ (giveKind kind dest known)
        (by decide)).trans ofKind
    · decide
  · rw [Chip.get_put_beside]
    · exact (s.took_own i (b := SPINE) (f := SPINE_CMD_RST_DEST) (m := 0x1F) hr ⟨by decide, by decide, rfl⟩ (giveDest kind dest)
        (by decide)).trans ofDest
    · decide

/-- A head's STACK_RST towards a part beyond it, or to every part (destination 0). -/
theorem Chip.stackRst_sends {c : Chip} {k d : Nat} (head : (c.put SPINE SPINE_CMD_STACK_RST 0).role = 0 ∨ (c.put SPINE SPINE_CMD_STACK_RST 0).role = 2)
    (kind : (c.put SPINE SPINE_CMD_STACK_RST 0).get SPINE SPINE_CMD_RST_KIND = k)
    (dest : (c.put SPINE SPINE_CMD_STACK_RST 0).get SPINE SPINE_CMD_RST_DEST = d) (beyond : d = 0 ∨ (c.put SPINE SPINE_CMD_STACK_RST 0).pos < d) :
    c.stackRst = (if k = 2 then (c.put SPINE SPINE_CMD_STACK_RST 0).resetAnnounced (if d = 0 then 15 else d)
      else c.put SPINE SPINE_CMD_STACK_RST 0).spSend .s 5 (if d = 0 then 15 else d) (be 1 k) := by
  unfold Chip.stackRst
  dsimp only
  rw [if_pos head, kind, dest, if_pos beyond]

theorem exec_stackRst_sends (kind dest : BitVec 2) (known : kind = 1 ∨ kind = 2)
    (h : s.admits i (SPINE + SPINE_CMD_STACK_RST.off) 0x1F) :
    let c := (s.took i (SPINE + SPINE_CMD_STACK_RST.off) 0x1F (BitVec.ofNat 16 (1 + 2 * kind.toNat + 8 * dest.toNat))).put SPINE
      SPINE_CMD_STACK_RST 0
    c.role = 0 ∨ c.role = 2 → dest.toNat = 0 ∨ c.pos < dest.toNat →
    exec (.stackRst i kind dest) s = .next (s.wrote i (SPINE + SPINE_CMD_STACK_RST.off)
      ((if kind = 2 then c.resetAnnounced (if dest.toNat = 0 then 15 else dest.toNat) else c).spSend .s 5
        (if dest.toNat = 0 then 15 else dest.toNat) (be 1 kind.toNat))) := by
  intro c head beyond
  obtain ⟨ofKind, ofDest⟩ := s.stackRst_fields i kind dest known
  rw [exec_stackRst s i kind dest h, Chip.stackRst_sends head ofKind ofDest beyond]
  rcases known with rfl | rfl <;> rfl

end

/-- Settles O4: each clause is the command's own rule, taken where its condition holds. -/
theorem laneQuireSpineWritesComplete : Obligations.LaneQuireSpineWritesComplete := by
  intro s i l
  refine ⟨fun h off => exec_laneEnable s i l h off, fun h on => exec_laneDisable s i l h on, fun h => exec_laneSrst s i l h, ?_, ?_,
    fun h => exec_quireSrst s i h, fun f h off => exec_spineFaceEnable s i f ?_ ?_, ?_, fun h => exec_spineSrst s i h, ?_, ?_, ?_,
    fun h => exec_wakeSouth s i h⟩
  · intro c h retimed ready
    rw [exec_trnRestart s i l h]
    unfold Chip.trnRestarted
    exact congrArg (fun x => Host.Outcome.next (s.wrote i _ x)) ((if_pos retimed).trans (if_pos ready))
  · intro c h gen lpbk
    rw [exec_patInjOne s i l h, Chip.patInject_apart l gen lpbk]
  · cases f <;> exact h
  · cases f <;> exact off
  · intro f c h low high
    rw [exec_spineRetrain s i f h]
    unfold Chip.retrain
    exact congrArg (fun x => Host.Outcome.next (s.wrote i _ x)) (if_pos ⟨low, high⟩)
  · intro c h acting
    rw [exec_demote s i h]
    unfold Chip.demoted
    exact congrArg (fun x => Host.Outcome.next (s.wrote i _ x)) (if_pos acting)
  · intro kind dest a c h known head beyond
    have some : dest.toNat ≠ 0 := fun none => absurd (none ▸ beyond) (Nat.not_lt_zero _)
    have sends := exec_stackRst_sends s i kind dest known h head (.inr beyond)
    rwa [if_neg some] at sends
  · intro kind a c h known head
    exact exec_stackRst_sends s i kind 0 known h head (.inl rfl)

end Sys2Proof.Machine
end

section
/-! The start of a self test through an admitted access (15_self_test_and_faults.md R481). -/

namespace Sys2Proof.Machine

-- One proof at a time: an evaluation by the kernel holds a thread until every proof before it is checked.
set_option Elab.async false

open Sys2Proof.Tests

/-- The expected word count of a target, once a command has answered. -/
def expectedWords (t : Nat) (r : Res) : Option Nat :=
  match r with | .next u => some (u.chip.wide (bk t (BIST + BIST_EXP_VALUE.off)) 2) | _ => none

/-- A forced test of target 35 on a part in Run expects ten passes over its 8192 words. -/
theorem expectedWords_bistStart : expectedWords 35 (exec (.bistStart .spi0 35 true) (st base)) = some 81920 := by decide +kernel

/-- The state that O5 names for that command expects none. -/
theorem expectedWords_stated :
    (let s := st base
     let a := BIST + BIST_CTL_START.off
     let t : BitVec 6 := 35
     let force := true
     let c := (s.took .spi0 a 0xFF (BitVec.ofNat 16 (128 + 64 * force.toNat + t.toNat))).put BIST BIST_CTL_START 0
     expectedWords 35 (.next (s.wrote .spi0 a
        (((((c.modBist fun x => { x with run := some t.toNat, bank := none, passes := 0, bad := false, sigBad := false, first := none }).put
          BIST BIST_STAT_BUSY 1).put BIST BIST_STAT_PHASE 2).putWide (bk t.toNat (BIST + BIST_COUNT_VALUE.off)) 2 0).putWide
          (bk t.toNat (BIST + BIST_EXP_VALUE.off)) 2 0)))) = some 0 := by decide +kernel

theorem admits_bistStart : (st base).admits .spi0 (BIST + BIST_CTL_START.off) 0xFF ∧
    (let c := ((st base).took .spi0 (BIST + BIST_CTL_START.off) 0xFF (BitVec.ofNat 16 (128 + 64 * true.toNat + (35 : BitVec 6).toNat))).put BIST
       BIST_CTL_START 0
     c.bistRefusal (35 : BitVec 6).toNat true (c.bankHolds (35 : BitVec 6).toNat) = 0) := by decide +kernel

/-- Refutes O5: the clause of BIST_START states an expected count of 0 for targets 33 to 35, and the part expects ten passes over
their words (R481). -/
theorem not_serviceWritesComplete : ¬ Obligations.ServiceWritesComplete := by
  intro h
  obtain ⟨_, _, _, _, _, _, _, bistStart, _⟩ := h (st base) .spi0
  obtain ⟨admitted, free⟩ := admits_bistStart
  have stated := congrArg (expectedWords 35) (bistStart 35 true admitted free (by decide) (by decide))
  rw [expectedWords_bistStart] at stated
  exact absurd (stated.trans expectedWords_stated) (by decide)

end Sys2Proof.Machine
end

section
/-! The accesses of the fabric's ports (10_register_fabric.md R335 to R354, R361). -/

namespace Sys2Proof.Machine
section
variable (s : State)

/-- A plain write through the fabric takes the bits that are allowed and has its effect (R354). -/
theorem exec_registerWrite_admitted {i : Ifc} {a : BitVec 19} {m d : BitVec 16} {r : RegDef} (hr : mapped a.toNat = some r) (word : r.wide = 0)
    (plain : postedBlock a.toNat = none) (notLock : a.toNat ≠ REGB + REG_LOCK_OBSERVE.off) (h : s.admits i a.toNat m)
    (reach : m &&& writable r.fields false ≠ 0) :
    let n := (s.chip.countWr i).allowed a.toNat m d
    exec (.registerWrite i a m d 0) s =
      .next (s.wrote i a.toNat (Chip.wrote (s.chip.countWr i) (s.took i a.toNat n d) s.lock.bits a.toNat n (n &&& d))) := by
  obtain ⟨served, notSpi1, gate, unlocked, owned⟩ := h
  have isPlain : plainWord a.toNat = true := by
    unfold plainWord
    rw [hr]
    simp only [word, plain, notLock, decide_true, Option.isNone_none, Bool.and_self, ne_eq, not_false_eq_true]
  have reached : reaches a.toNat m = true := by
    unfold reaches
    rw [hr]
    exact bne_iff_ne.mpr reach
  show s.actL (accPut i a.toNat m (s.chip.metData s.lock a.toNat d 0)) = _
  rw [Chip.metData_zero, State.actL, accPut_admitted i a.toNat m d s.chip s.lock served notSpi1 gate unlocked
    (by rw [Chip.mbLocked_countWr]; exact owned) isPlain reached]

theorem exec_wideValueRead_lowest {i : Ifc} {a : BitVec 19} {r : RegDef} (hr : mapped a.toNat = some r) (wide : r.wide ≠ 0)
    (place : r.place a.toNat = 0) (h : s.admitsRead i a.toNat) :
    exec (.wideValueRead i a) s =
      .next (s.gave i a.toNat (((s.chip.countRd i).modIfc i fun y =>
        { y with latch := { base := a.toNat, words := (List.range r.wide).map fun k => ((s.chip.countRd i).view s.lock (a.toNat + k)).toNat } }).readEff
          a.toNat) ((s.chip.countRd i).view s.lock a.toNat)) := by
  obtain ⟨served, notSpi1, gate⟩ := h
  refine s.read_lowest served notSpi1 gate hr wide place ?_
  rintro posted
  rw [posted] at hr
  have word : ∀ r, mapped (REGB + REG_POSTED_CLK.off) = some r → r.wide = 0 := by
    intro r hr
    obtain rfl := Option.some.inj hr
    rfl
  exact wide (word r hr)

theorem exec_wideValueWrite_staged {i : Ifc} {a : BitVec 19} {m d : BitVec 16} {r : RegDef} (hr : mapped a.toNat = some r)
    (below : r.place a.toNat + 1 < r.wide) (plain : postedBlock a.toNat = none) (h : s.admitsRead i a.toNat)
    (reach : m &&& writable r.fields false ≠ 0) :
    exec (.wideValueWrite i a [(m, d)]) s =
      .next (s.wrote i a.toNat (((s.chip.countWr i).stageKeep i (a.toNat - r.place a.toNat)).modIfc i fun y =>
        { y with stage := some (Stage.add y.stage (a.toNat - r.place a.toNat) (r.place a.toNat) m.toNat d.toNat) })) := by
  obtain ⟨served, notSpi1, gate⟩ := h
  have notLock : a.toNat ≠ lockAddr := by
    intro lock
    rw [lock] at hr
    have word : ∀ r, mapped lockAddr = some r → r.wide = 0 := by
      intro r hr
      obtain rfl := Option.some.inj hr
      rfl
    have := word r hr
    omega
  show s.actL (accWrite i a.toNat [(m, d)]) = _
  simp only [State.actL, accWrite, served, if_true, writeRun, fabWrite_staged s.lock notSpi1 hr gate notLock plain below reach, answer,
    List.reverse_cons, List.reverse_nil, List.nil_append, List.flatMap_cons, List.flatMap_nil, List.append_nil]

theorem exec_mdioFrame_address (p : Port) (phy mmd : BitVec 5) (data : BitVec 16) (answers : s.chip.answers = true)
    (own : phy.toNat = (4 * s.chip.get GLB GLB_STRAP_MDIO + p.val) % 32) :
    exec (.mdioFrame 0 phy mmd data) s = .next (s.on ((s.chip.modFab fun y =>
      { y with mdioAddr := y.mdioAddr.set (32 * p.val + mmd.toNat) (data.toNat : Int) }).modIfc .mdio fun y => { y with resp := [] })) := by
  have port : (phy.toNat + 32 - 4 * s.chip.get GLB GLB_STRAP_MDIO % 32) % 32 = p.val := by
    have := p.isLt
    omega
  have same : Fin.ofNat 8 p.val = p := Fin.ext (Nat.mod_eq_of_lt p.isLt)
  show s.actL (mdioFrame 0 phy mmd data) = _
  unfold State.actL mdioFrame
  dsimp only
  rw [port, same, if_neg (by rw [answers]; have := p.isLt; simp)]
  rfl

theorem exec_twmWakeAddress_own (dev : BitVec 7) (read : Bool) (asleep : s.chip.pwr.mode = 2 ∨ s.chip.pwr.mode = 3)
    (mine : s.chip.twmMine dev = true) (sleeping : s.chip.pwr.wake = none) (out : s.chip.pwr.rstLow = false) :
    exec (.twmWakeAddress dev read) s = .next (s.on ((s.chip.wakeSource 2 0).twmAcked [true])) := by
  have hit : (s.chip.twmMine dev && (s.chip.pwr.mode == 2 || s.chip.pwr.mode == 3) && s.chip.pwr.wake.isNone && !s.chip.pwr.rstLow) = true := by
    simpa [mine, sleeping, out] using asleep
  show s.act (fun c => if c.pwr.mode = 2 ∨ c.pwr.mode = 3 then c.twmDeaf dev 0 else c) = _
  unfold State.act
  dsimp only
  rw [if_pos asleep, Chip.twmDeaf, hit]
  rfl

theorem exec_twmWakeAddress_other (dev : BitVec 7) (read : Bool) (asleep : s.chip.pwr.mode = 2 ∨ s.chip.pwr.mode = 3)
    (other : s.chip.twmMine dev = false) : exec (.twmWakeAddress dev read) s = .next (s.on (s.chip.twmAcked [false])) := by
  show s.act (fun c => if c.pwr.mode = 2 ∨ c.pwr.mode = 3 then c.twmDeaf dev 0 else c) = _
  unfold State.act
  dsimp only
  rw [if_pos asleep, Chip.twmDeaf, other]
  rfl

theorem exec_spiObserveFrame_word (a : BitVec 19) (per : Nat) {r : RegDef} (answers : s.chip.answers = true) (hr : mapped a.toNat = some r)
    (word : r.wide = 0) (gate : s.chip.gate a.toNat = 0) (seen : s.chip.observed a.toNat r = true)
    (slow : 150000 ≤ s.chip.get REGB REG_SPI_CTL_GAP * per) (src : s.chip.get CLK CLK_STAT_CTRL_SRC ≠ 2) :
    exec (.spiObserveFrame 0x0B a [] 1 per false []) s = .next (s.gave .spi1 a.toNat s.chip (s.chip.view s.lock a.toNat)) := by
  have inTime : decide (s.chip.get REGB REG_SPI_CTL_GAP * per < 150000 ∨ s.chip.get CLK CLK_STAT_CTRL_SRC = 2) = false := by
    rw [decide_eq_false_iff_not]
    omega
  have read : fabRead .spi1 a.toNat (s.chip, s.lock) = (s.chip, s.chip.view s.lock a.toNat, 0) := by
    rw [fabRead_spi1_observed s.chip s.lock hr seen gate, s.chip.obsLatchAfter_of_oneWord s.lock word, s.chip.obsValue_of_oneWord s.lock word]
    exact congrArg (·, s.chip.view s.lock a.toNat, 0) (s.chip.modIfc_self .spi1)
  have one : accDo false { ifc := .spi1, addr := a, wr := none } (s.chip, s.lock) =
      ((s.chip, s.lock), be 1 (s.chip.statusByte a.toNat 0) ++ be 2 (s.chip.view s.lock a.toNat).toNat) := by
    have served : s.chip.serves .spi1 = true := answers
    simp only [accDo, served, if_true, readRun, read, Bool.false_eq_true, if_false, Nat.add_zero, List.nil_append]
  have own : shareRun .spi1 false (readsAt .spi1 a 1) [] (s.chip, s.lock) =
      ((s.chip, s.lock), be 1 (s.chip.statusByte a.toNat 0) ++ be 2 (s.chip.view s.lock a.toNat).toNat) := by
    show ((turnsRun .spi1 false 1 (ifcNum .spi1).val [{ ifc := .spi1, addr := a, wr := none }] [] (s.chip, s.lock)).1,
      outOf .spi1 (turnsRun .spi1 false 1 (ifcNum .spi1).val [{ ifc := .spi1, addr := a, wr := none }] [] (s.chip, s.lock)).2) = _
    have run : turnsRun .spi1 false 1 (ifcNum .spi1).val [{ ifc := .spi1, addr := a, wr := none }] [] (s.chip, s.lock) =
        ((s.chip, s.lock), [(.spi1, be 1 (s.chip.statusByte a.toNat 0) ++ be 2 (s.chip.view s.lock a.toNat).toNat)]) := by
      show ((accDo false { ifc := .spi1, addr := a, wr := none } (s.chip, s.lock)).1,
        [(Ifc.spi1, (accDo false { ifc := .spi1, addr := a, wr := none } (s.chip, s.lock)).2)]) = _
      rw [one]
    rw [run]
    simp [outOf]
  show s.actL (spiFrame .spi1 0x0B a [] 1 per false []) = _
  unfold State.actL spiFrame
  dsimp only
  rw [inTime, if_neg (by simp [answers]), if_neg (by decide), if_pos (by decide), own]
  rfl

/-- A frame on SPI_CS0_N shares the fabric in turns (R335, R339). -/
theorem exec_spiFrame_served (a : BitVec 19) (words : List (BitVec 16 × BitVec 16)) (n per : Nat) (second : Bool) (mid : List Access)
    (answers : s.chip.answers = true) :
    let late := decide (s.chip.get REGB REG_SPI_CTL_GAP * per < 150000 ∨ s.chip.get CLK CLK_STAT_CTRL_SRC = 2)
    let r := shareRun .spi0 late (if second then [] else wordsAt .spi0 a words) mid (s.chip, s.lock)
    let q := shareRun .spi0 late (if second then [] else readsAt .spi0 a n) mid (s.chip, s.lock)
    exec (.spiFrame 0x02 a words n per second mid) s =
      .next { s with chip := r.1.1.modIfc .spi0 fun y => { y with resp := r.2 }, lock := r.1.2 } ∧
    exec (.spiFrame 0x0B a words n per second mid) s =
      .next { s with chip := q.1.1.modIfc .spi0 fun y => { y with resp := q.2 }, lock := q.1.2 } := by
  have on : ¬ (s.chip.answers = false ∨ false = true) := by simp [answers]
  intro late r q
  constructor
  · show s.actL (spiFrame .spi0 0x02 a words n per second mid) = _
    unfold State.actL spiFrame
    dsimp only
    cases second with
    | true => rw [if_pos (.inr rfl)]; rfl
    | false => rw [if_neg on, if_pos (.inl rfl)]; rfl
  · show s.actL (spiFrame .spi0 0x0B a words n per second mid) = _
    unfold State.actL spiFrame
    dsimp only
    cases second with
    | true => rw [if_pos (.inr rfl)]; rfl
    | false => rw [if_neg on, if_neg (by decide), if_pos (.inl rfl)]; rfl

theorem exec_twmWrite_own (dev : BitVec 7) (hi md lo : Byte) (b : Bytes) (mid : List Access) (answers : s.chip.answers = true)
    (mine : s.chip.twmMine dev = true) :
    let g := twmGroups b
    let r := shareRun .twm false (wordsAt .twm (twmAddrOf [hi, md, lo]) g) mid (s.chip.wakeSource 2 0, s.lock)
    exec (.twmWrite dev ([hi, md, lo] ++ b) mid) s = .next { s with
      chip := ((r.1.1.modFab fun y => { y with
        twmAddr := ((twmAddrOf [hi, md, lo]).toNat + g.length) % 0x80000,
        twmStatus := if g = [] then none else some (r.2.foldl (fun n y => n ||| y.toNat) 0) }).twmAcked (List.replicate (b.length + 4) true)).modIfc
          .twm fun y => { y with resp := [] },
      lock := r.1.2 } := by
  intro g r
  have whole : ¬ ([hi, md, lo] ++ b).length < 3 := by
    rw [List.length_append]
    exact Nat.not_lt.mpr (Nat.le_add_right 3 _)
  have taken : (s.chip.answers && s.chip.twmMine dev) ≠ false := by rw [answers, mine]; decide
  have acks : ([hi, md, lo] ++ b).length + 1 = b.length + 4 := by
    simp only [List.length_append, List.length_cons, List.length_nil]
    omega
  show execTwmWrite dev ([hi, md, lo] ++ b) mid s = _
  unfold execTwmWrite State.actL
  dsimp only
  rw [if_neg taken, acks]
  simp only [if_neg whole]
  rfl

theorem exec_twmRead_own (dev : BitVec 7) (a : BitVec 19) (n : Nat) (mid : List Access) (answers : s.chip.answers = true)
    (mine : s.chip.twmMine dev = true) :
    let c := (s.chip.wakeSource 2 0).modFab fun y => { y with twmAddr := a.toNat, twmStatus := none }
    let r := shareRun .twm false (readsAt .twm a n) mid (c, s.lock)
    exec (.twmRead dev (some a) n mid) s = .next { s with
      chip := ((r.1.1.modFab fun y => { y with twmAddr := (a.toNat + n) % 0x80000 }).twmAcked (List.replicate 5 true)).modIfc
        .twm fun y => { y with resp := r.2 },
      lock := r.1.2 } := by
  intro c r
  have taken : (s.chip.answers && s.chip.twmMine dev) ≠ false := by rw [answers, mine]; decide
  have place : BitVec.ofNat 19 c.fab.twmAddr = a := (BitVec.ofNat_toNat 19 a).trans (BitVec.setWidth_eq a)
  show execTwmRead dev (some a) n mid s = _
  unfold execTwmRead State.actL
  dsimp only
  rw [if_neg taken]
  show (Host.Outcome.next { s with
      chip := (answer .twm (_ ++ (shareRun .twm false (readsAt .twm (BitVec.ofNat 19 c.fab.twmAddr) n) mid (c, s.lock)).2) _).1,
      lock := _ } : Res) = _
  rw [place]
  rfl

end

/-- Settles O6: each clause is the command's own rule. -/
theorem portAccessesComplete : Obligations.PortAccessesComplete := by
  intro s
  refine ⟨fun i a m d r hr word plain notLock h reach => exec_registerWrite_admitted s hr word plain notLock h reach,
    fun i a r hr wide place h => exec_wideValueRead_lowest s hr wide place h,
    fun i a m d r hr below plain h reach => exec_wideValueWrite_staged s hr below plain h reach,
    fun i m d h some_mask free => ?_, fun i a m d met => ?_,
    fun a words n per second mid answers => exec_spiFrame_served s a words n per second mid answers,
    fun a per r answers hr word gate seen slow src => exec_spiObserveFrame_word s a per answers hr word gate seen slow src,
    fun p phy mmd data answers own => exec_mdioFrame_address s p phy mmd data answers own, fun answers => ?_,
    fun dev hi md lo b mid answers mine => exec_twmWrite_own s dev hi md lo b mid answers mine,
    fun dev a n mid answers mine => exec_twmRead_own s dev a n mid answers mine,
    fun dev read asleep mine sleeping out => exec_twmWakeAddress_own s dev read asleep mine sleeping out,
    fun dev read asleep other => exec_twmWakeAddress_other s dev read asleep other⟩
  · obtain ⟨served, notSpi1, _⟩ := h
    exact execRegLockWrite_taken d served notSpi1 some_mask free
  · show s.actL (accPut i a.toNat m (s.chip.metData s.lock a.toNat d met)) =
      s.actL (accPut i a.toNat m (s.chip.metData s.lock a.toNat (s.chip.metData s.lock a.toNat d met) 0))
    rw [Chip.metData_zero]
  · show s.actL (fun x => if x.1.answers then answer .mdio (be 2 (winAccess false 0 x).2.toNat) (winAccess false 0 x).1 else x) = _
    unfold State.actL
    dsimp only
    rw [if_pos answers]
    rfl

end Sys2Proof.Machine
end

section
/-! Events that act in one state of a port's link state machine (02_line_port.md R47 to R71). -/

namespace Sys2Proof.Machine

/-- The state that a command leaves when the condition of its rule holds, and when it does not. -/
theorem State.on_pos (s : State) {P : Prop} [Decidable P] {c d : Chip} (h : P) :
    (.next (s.on (if P then c else d)) : Res) = .next (s.on c) := by rw [if_pos h]

theorem State.on_neg (s : State) {P : Prop} [Decidable P] {c d : Chip} (h : ¬ P) :
    (.next (s.on (if P then c else d)) : Res) = .next (s.on d) := by rw [if_neg h]

/-- Settles O7: each timer's condition is the state that it belongs to. -/
theorem linkTimersComplete : Obligations.LinkTimersComplete := by
  intro s p
  refine ⟨fun h => s.on_pos h, fun h => s.on_pos h, fun h => s.on_pos h, fun h => s.on_pos h, fun h => s.on_pos h, fun h => s.on_pos h,
    fun down idle => (s.on_pos down).trans (s.on_neg ?_), fun back idle => (s.on_pos back).trans (s.on_neg ?_), fun h => s.on_pos h,
    fun h => s.on_pos h, fun state period en => s.on_pos ⟨state, period, en⟩, fun pre none => s.on_pos ⟨pre, ?_⟩⟩
  · rw [idle]
    exact Bool.false_ne_true
  · rw [idle]
    exact Bool.false_ne_true
  · rw [none]
    rfl

section
variable (s : State) (p : Port)

/-- A link that negotiates trains in AN as soon as pages of clause 98 are seen. -/
theorem exec_clause98PagesDetected_free (pre : s.chip.lState p = 1) (free : s.chip.get (lpB p) LINK_CTL_MODE_SEL = 0) :
    exec (.clause98PagesDetected p) s = .next (s.on ((s.chip.put (lpB p) PMA_STAT_SIGNAL_DET 1).toLink p 3)) := by
  have mode : (s.chip.put (lpB p) PMA_STAT_SIGNAL_DET 1).get (lpB p) LINK_CTL_MODE_SEL = 0 :=
    (Chip.get_put_beside _ _ _ (by decide)).trans free
  refine (s.on_pos pre).trans ?_
  dsimp only
  rw [mode]
  rfl

/-- Negotiation with a common mode, the part's own CareStyr bit clear. -/
theorem exec_anComplete_common (ability : BitVec 14) (master : Bool) (training : s.chip.lState p = 3)
    (plain : (s.chip.port p).link.appliedAdv.testBit 13 = false) (common : bestMode (s.chip.port p).link.appliedAdv ability.toNat ≠ 0) :
    exec (.anComplete p ability master false) s =
      .next (s.on (((((s.chip.put (lpB p) AN_LP_ABILITY ability.toNat).put (lpB p) AN_LP_VALID 1).resolve p
        (bestMode (s.chip.port p).link.appliedAdv ability.toNat) 1 master).modLink p fun x =>
          { x with eee := (s.chip.port p).link.appliedAdv.testBit (7 + bestMode (s.chip.port p).link.appliedAdv ability.toNat) &&
            ability.toNat.testBit (7 + bestMode (s.chip.port p).link.appliedAdv ability.toNat) }).toLink p 4)) := by
  refine (s.on_pos training).trans ?_
  dsimp only
  rw [plain, if_neg (by simp), if_neg common]
  simp only [Bool.false_and, Bool.false_eq_true, if_false]

/-- A margin window with neither a low margin nor uncorrected blocks. -/
theorem exec_lmWindowEnd_good (snr : BitVec 10) (corr unc : Nat) {d e : Chip} {m : Int} (bumped : d = (s.chip.bumpLp p 11 corr).bumpLp p 12 unc)
    (margin : m = (snr.toNat : Int) - snrRef (d.modeOf p)) (shown : e = (d.put (lpB p) DSP_SNR_SNR snr.toNat).putS (lpB p) LM_STAT_SNR_MARGIN m)
    (up : s.chip.lState p = 7) (active : d.on (lpB p) PCS_STAT_RX_LPI = false) (good : e.getS (lpB p) LM_CTL_SNR_MIN ≤ m)
    (clean : unc ≤ e.get (lpB p) LM_UNC_UNC_MAX) :
    exec (.lmWindowEnd p snr corr unc) s = .next (s.on (e.modLink p fun x => { x with snrBad := 0, uncBad := 0 })) := by
  have counts : (e.modLink p fun x => { x with
      snrBad := if m < e.getS (lpB p) LM_CTL_SNR_MIN then x.snrBad + 1 else 0
      uncBad := if e.get (lpB p) LM_UNC_UNC_MAX < unc then x.uncBad + 1 else 0 }) = e.modLink p fun x => { x with snrBad := 0, uncBad := 0 } := by
    simp only [if_neg (Int.not_lt.mpr good), if_neg (Nat.not_lt.mpr clean)]
  have zero : ((e.modLink p fun x => { x with snrBad := 0, uncBad := 0 }).port p).link.snrBad = 0 ∧
      ((e.modLink p fun x => { x with snrBad := 0, uncBad := 0 }).port p).link.uncBad = 0 := by
    rw [Chip.modLink, Chip.port_modPort, if_pos rfl]
    exact ⟨rfl, rfl⟩
  obtain ⟨low, bad⟩ := zero
  refine (s.on_pos up).trans ?_
  dsimp only
  rw [← bumped, if_neg (by rw [active]; exact Bool.false_ne_true), ← margin, ← shown, counts, if_neg fun h => h.2 low, if_neg fun h => h.2 bad]

/-- An adaptation step outside a refresh that stays within the drift limits moves the taps. -/
theorem exec_adaptationStep_within (l : List (Nat × Nat × Int)) (adapting : s.chip.adapting p = true)
    (active : s.chip.on (lpB p) DSP_STAT_REFRESH_ACTIVE = false) (free : s.chip.on (lpB p) DSP_STAT_DRIFT_FROZEN = false)
    (within : s.chip.driftOut p (s.chip.tapMoves p l) = none) :
    exec (.adaptationStep p l) s = .next (s.on (s.chip.tapsFrom p (s.chip.tapMoves p l))) := by
  refine (s.on_pos adapting).trans ?_
  rw [active, free, within]
  rfl

end

/-- Settles O8: each event's condition is met by the hypotheses of its clause. -/
theorem linkEventsComplete : Obligations.LinkEventsComplete := by
  intro s p
  refine ⟨exec_clause98PagesDetected_free s p, exec_anComplete_common s p, fun l h => s.on_pos h, fun h => s.on_pos h,
    fun up active => s.on_pos ⟨up, active⟩, fun snr corr unc => exec_lmWindowEnd_good s p snr corr unc rfl rfl rfl,
    fun snr corr unc up quiet => (s.on_pos up).trans (s.on_pos quiet), exec_adaptationStep_within s p,
    fun adapting active settled margin => (s.on_pos ⟨adapting, active⟩).trans (s.on_pos ⟨settled, margin⟩),
    fun adapting due few => (s.on_pos ⟨adapting, due⟩).trans (s.on_neg (Nat.not_le.mpr few)),
    fun lpi quiet h => s.on_pos h, fun adapting deferred active => s.on_pos ⟨adapting, deferred, active⟩⟩

end Sys2Proof.Machine
end

section
/-! Flow control, LPI and Octavo's training (02_line_port.md R72 to R77, 03_octavo.md R84 to R108, 05_cable_and_idle.md R181 to R191). -/

namespace Sys2Proof.Machine

/-- Settles O9: each event's condition is met by the hypotheses of its clause. -/
theorem flowControlAndIdleComplete : Obligations.FlowControlAndIdleComplete := by
  intro s p k
  refine ⟨fun f flows some => (s.on_pos flows).trans ?_, fun flows => s.on_pos flows, rfl, fun en held up => ?_,
    fun up eee en empty awake => s.on_pos ⟨up, eee, en, empty, awake⟩, fun up lpi waits => s.on_pos ⟨up, lpi, waits⟩,
    fun up quiet => s.on_pos ⟨up, quiet⟩,
    fun shows en oct empty awake omc swap reload pause => s.on_pos ⟨shows, en, oct, empty, awake, omc, swap, reload, pause⟩,
    fun shows lpi => s.on_pos ⟨shows, lpi⟩, fun shows lpi waits => s.on_pos ⟨shows, lpi, waits⟩, fun lpi quiet shows => s.on_pos shows⟩
  · exact s.on_neg some
  · have taken : ¬ s.chip.bit (lpB p) PFC_CTL_TX_EN k.val = false := by simp [en]
    refine (s.on_neg taken).trans ((s.on_neg Bool.false_ne_true).trans (s.on_pos ?_))
    exact ⟨held, up⟩

section
variable (s : State) (p : Port)

/-- A phase before the measurements ends well. -/
theorem exec_octavoPhaseEnd_early {n : Nat} (snr : List Nat) (gd : List Int) (rx : List (List Point)) (training : s.chip.lState p = 6)
    (phase : s.chip.get (lpB p) OCT_STAT_PHASE = n) (low : 2 ≤ n) (high : n ≤ 5) :
    exec (.octavoPhaseEnd p true snr gd rx) s = .next (s.on (s.chip.setPhase p (n + 1))) := by
  have runs : s.chip.lState p = 6 ∧ 1 ≤ n ∧ n ≤ 10 := ⟨training, by omega, by omega⟩
  have early : snr = [] ∨ ¬(n = 7 ∨ n = 8) := .inr (by omega)
  show execOctavoPhaseEnd p true snr gd rx s = _
  unfold execOctavoPhaseEnd State.act
  dsimp only
  rw [phase, if_pos runs, if_pos early]
  interval_cases n <;> rfl

/-- The channel phase ends with the equalisers of the training tones. -/
theorem exec_octavoPhaseEnd_channel (snr : List Nat) (gd : List Int) (rx : List (List Point)) (training : s.chip.lState p = 6)
    (phase : s.chip.get (lpB p) OCT_STAT_PHASE = 6) (some : gd ≠ []) :
    exec (.octavoPhaseEnd p true snr gd rx) s = .next (s.on (((s.chip.modOct p fun o =>
      { o with weq := rx.zipIdx.map fun y => equaliser y.2 y.1, weq0 := rx.zipIdx.map fun y => equaliser y.2 y.1 }).modDiag p
        fun x => { x with gd := relativeGd gd }).setPhase p 7)) := by
  have early : snr = [] ∨ ¬((6 : Nat) = 7 ∨ (6 : Nat) = 8) := .inr (by decide)
  have ends : s.chip.channelEnd p rx gd = (((s.chip.modOct p fun o =>
      { o with weq := rx.zipIdx.map fun y => equaliser y.2 y.1, weq0 := rx.zipIdx.map fun y => equaliser y.2 y.1 }).modDiag p
        fun x => { x with gd := relativeGd gd }).setPhase p 7) := by
    unfold Chip.channelEnd
    dsimp only
    rw [if_neg some]
  show execOctavoPhaseEnd p true snr gd rx s = _
  unfold execOctavoPhaseEnd State.act
  dsimp only
  rw [phase, if_pos ⟨training, by decide⟩, if_pos early, ← ends]
  rfl

/-- A tone's equaliser is followed while the tone has not drifted. -/
theorem exec_toneEqTrack_steady (tone : Fin 2048) (w : Equaliser) (shows : s.chip.showtime p = true) (low : 8 ≤ tone.val) (high : tone.val < 2040)
    (active : s.chip.on (lpB p) LPI_STAT_RX_QUIET = false) (steady : (s.chip.port p).oct.drift.contains tone.val = false) :
    let v := (s.chip.port p).oct.weq0.getD (tone.val - 8) {}
    let d := s.chip.modOct p fun o => { o with weq := o.weq.set (tone.val - 8) w }
    exec (.toneEqTrack p tone w) s = .next (s.on (
      if eqOutside w v then (d.modOct p fun o => { o with drift := o.drift ++ [tone.val] }).evt (lpB p) OCT_EVT_TONE_DRIFT
      else if eqInside w v then d.modOct p fun o => { o with drift := o.drift.filter (· != tone.val) } else d)) := by
  intro v d
  have kept : (d.port p).oct.drift.contains tone.val = false := by
    simp only [d, Chip.modOct, Chip.port_modPort, if_true]
    exact steady
  refine (s.on_pos ⟨shows, low, high, active⟩).trans ?_
  show (.next (s.on (if eqOutside w v ∧ (d.port p).oct.drift.contains tone.val = false then _ else _)) : Res) = _
  simp only [kept, and_true]
  rfl

/-- A margin window in LPI, or with a good margin and few uncorrected codewords. -/
theorem exec_octLmWindowEnd_good (unc : Nat) (snr : List Nat) {d : Chip} (shown : d = (s.chip.snrTaken p snr).showMargin p)
    (shows : s.chip.showtime p = true) (good : d.on (lpB p) PCS_STAT_RX_LPI = true ∨
      (unc ≤ d.get (lpB p) OCT_UNC_UNC_MAX ∧ d.getS (lpB p) LM_CTL_SNR_MIN ≤ d.getS (lpB p) LM_STAT_SNR_MARGIN)) :
    exec (.octLmWindowEnd p unc snr) s = .next (s.on (d.modOct p fun o => { o with uncBad := 0, snrBad := 0 })) := by
  refine (s.on_pos shows).trans ?_
  dsimp only
  rw [← shown]
  by_cases lpi : d.on (lpB p) PCS_STAT_RX_LPI = true
  · exact s.on_pos lpi
  · obtain ⟨few, margin⟩ := good.resolve_left lpi
    have counts : (d.modOct p fun o => { o with
        uncBad := if d.get (lpB p) OCT_UNC_UNC_MAX < unc then o.uncBad + 1 else 0
        snrBad := if d.getS (lpB p) LM_STAT_SNR_MARGIN < d.getS (lpB p) LM_CTL_SNR_MIN then o.snrBad + 1 else 0 }) =
        d.modOct p fun o => { o with uncBad := 0, snrBad := 0 } := by
      simp only [if_neg (Nat.not_lt.mpr few), if_neg (Int.not_lt.mpr margin)]
    have zero : ((d.modOct p fun o => { o with uncBad := 0, snrBad := 0 }).port p).oct.uncBad = 0 ∧
        ((d.modOct p fun o => { o with uncBad := 0, snrBad := 0 }).port p).oct.snrBad = 0 := by
      rw [Chip.modOct, Chip.port_modPort, if_pos rfl]
      exact ⟨rfl, rfl⟩
    obtain ⟨noUnc, noSnr⟩ := zero
    rw [if_neg lpi, counts, if_neg fun h => h.2 noUnc, if_neg fun h => h.2 noSnr]

end

/-- Settles O10: each event's condition is met by the hypotheses of its clause. -/
theorem octavoTrainingComplete : Obligations.OctavoTrainingComplete := by
  intro s p
  refine ⟨fun n snr gd rx => exec_octavoPhaseEnd_early s p snr gd rx, exec_octavoPhaseEnd_channel s p,
    fun bs training phase master first ok => s.on_pos ⟨training, phase, master, first, ok⟩,
    fun bs training phase slave first ok => s.on_pos ⟨training, phase, slave, first, ok⟩,
    fun bs training phase first ok bits => s.on_pos ⟨training, phase, first, ok, ?_⟩,
    fun training phase due => s.on_pos ⟨training, phase, due⟩, fun llr shows => s.on_pos ⟨shows, rfl⟩, fun fixed bits => rfl,
    fun llr => s.on_neg fun h => Bool.false_ne_true h.2, exec_toneEqTrack_steady s p,
    fun unc snr => exec_octLmWindowEnd_good s p unc snr rfl, fun shows active => s.on_pos ⟨shows, active⟩,
    fun shows active => s.on_pos ⟨shows, active⟩⟩
  exact List.all_eq_true.mpr fun x hx => decide_eq_true (bits x hx)

end Sys2Proof.Machine
end

section
/-! Octavo's swaps, reloads and calibration pauses (03_octavo.md R108 to R119). -/

namespace Sys2Proof.Machine

section
variable (s : State) (p : Port)

/-- A swap evaluation that finds tones to move requests them. -/
theorem exec_swapEvaluation_moves {d : Chip} (shown : d = s.chip.showMargin p) (shows : s.chip.showtime p = true)
    (en : d.on (lpB p) OCT_CTL_SWAP_EN = true) (noSwap : (d.port p).oct.swap = none) (noTx : (d.port p).oct.swapTx = none)
    (noReload : (d.port p).oct.reload = none) (noPause : (d.port p).oct.pause = none) (awake : d.inLpi p = false) (idle : d.calRuns p.val = false)
    {r : List Nat × List Nat}
    (moves : r = swapMoves (d.toneTable p (d.port p).oct.snr (d.octBand p false)) (d.port p).oct.drift (d.get (lpB p) OCT_SWAP_TRIG)
      (d.port p).oct.target 24384 (d.port p).oct.rxBits []) (found : r.2 ≠ []) :
    let l := r.2.map fun i => (i + 8, r.1.getD i 0)
    exec (.swapEvaluation p []) s =
      .next (s.on ((((d.modOct p fun x => { x with swap := some { seq := (d.port p).oct.omcSeq, list := l, sends := 1 } }).omcNext p).omcSend p
        [omcMsg 1 (d.port p).oct.omcSeq (be 1 l.length ++ l.flatMap fun x => be 2 (x.2 * 4096 + x.1))]).showPending p)) := by
  intro l
  have shown' : (s.chip.snrTaken p []).showMargin p = d := by
    rw [Chip.snrTaken, if_pos (.inl rfl), shown]
  refine (s.on_pos shows).trans ?_
  dsimp only
  rw [shown', if_pos ⟨en, noSwap, noTx, noReload, noPause, awake, idle⟩, ← moves, if_neg found]

/-- The first fragment of a table is kept until the rest has come. -/
theorem exec_tableRx_first (m : Bytes) {x : ReloadSt} (h : (s.chip.port p).oct.reload = some x) (shows : s.chip.showtime p = true)
    (vals : x.vals ≠ []) (noFrags : x.frags = []) (first : x.second = false) (noLast : x.last = none) (sent : x.sent = true) :
    exec (.tableRx p m) s = .next (s.on (s.chip.modOct p fun o =>
      { o with reload := some { x with frags := [(beAt m 3 1 % 16, m.drop 4)], last := some (beAt m 3 1 % 16) } })) := by
  obtain ⟨seq, vals', frags, last, second, rxBits, sent', target⟩ := x
  dsimp only at vals noFrags first noLast sent
  subst noFrags first noLast sent
  have runs : ¬ (s.chip.showtime p = false ∨ vals' = []) := by simp [shows, vals]
  show execTableRx p m s = _
  simp only [execTableRx, State.act, h, runs, if_false, if_true]
  simp [ReloadSt.take, ReloadSt.whole, ReloadSt.lost]

/-- A pause's flag phase at the end that did not ask for it. -/
theorem exec_pauseFlagPhase_partner {x : PauseSt} (h : (s.chip.port p).oct.pause = some x) (up : s.chip.lState p = 6)
    (phase : s.chip.get (lpB p) OCT_STAT_PHASE = 12) (partner : x.own = false) :
    exec (.pauseFlagPhase p) s = .next (s.on (((s.chip.modOct p fun o =>
      { o with pause := some { x with flags := true }, flag := if o.master then .plain else .silent }).setTx p (s.chip.port p).oct.master).modDiag p
        fun y => { y with prevRtt := none })) := by
  have own : ¬ (x.own = true ∧ x.calDone = false) := by simp [partner]
  show execPauseFlagPhase p s = _
  simp only [execPauseFlagPhase, State.act, h, up, phase, and_self, if_true, own, if_false]
  rfl

/-- A swap's flag comes in the superframe agreed, or in any while none is. -/
theorem exec_invertedFlagRx_swap {x : SwapSt} (sf : Byte) (shows : s.chip.showtime p = true) (h : (s.chip.port p).oct.swap = some x)
    (due : x.target = none ∨ x.target = some sf.toNat) (fresh : (s.chip.port p).oct.rxChanged ≠ some sf.toNat) :
    exec (.invertedFlagRx p sf) s = .next (s.on ((s.chip.put (lpB p) OCT_SF_RX_SF sf.toNat).swapRx p x.list)) := by
  have now : (x.target.isNone || x.target == some sf.toNat) = true := by
    rcases due with due | due
    · rw [due]; rfl
    · rw [due]; exact beq_self_eq_true _
  have same : ((s.chip.put (lpB p) OCT_SF_RX_SF sf.toNat).port p).oct = (s.chip.port p).oct := rfl
  show execInvertedFlagRx p sf s = _
  unfold execInvertedFlagRx State.act
  dsimp only
  rw [if_pos shows, same, if_neg fresh, h]
  exact s.on_pos now

/-- A request that may run is answered at the MASTER. -/
theorem exec_reloadReqRx_master (m : Bytes) (shows : s.chip.showtime p = true) (fresh : s.chip.omcRepeat p 4 (beAt m 2 1) = none)
    (free : s.chip.reloadHeld p = 0) (master : (s.chip.port p).oct.master = true) :
    exec (.reloadReqRx p m) s = .next (s.on ((s.chip.reloadStart p (beAt m 2 1)).reloadAnswered p (beAt m 2 1))) := by
  have none : ¬ (if (s.chip.port p).oct.master then s.chip.reloadHeld p else s.chip.reloadRefusal p) ≠ 0 := by
    rw [if_pos master, free]
    exact fun h => h rfl
  refine (s.on_pos shows).trans ?_
  rw [fresh]
  exact (s.on_neg none).trans (s.on_pos master)

/-- A swap request unanswered below the limit is sent again. -/
theorem exec_swapRetryTimeout_again {x : SwapSt} (h : (s.chip.port p).oct.swap = some x) (waits : x.target = none) (few : x.sends < 5)
    (awake : s.chip.inLpi p = false) (noPause : (s.chip.port p).oct.pause = none) (shows : s.chip.showtime p = true) :
    exec (.swapRetryTimeout p) s = .next (s.on ((s.chip.modOct p fun o => { o with swap := some { x with sends := x.sends + 1 } }).omcSend p
      [omcMsg 1 x.seq (be 1 x.list.length ++ x.list.flatMap fun y => be 2 (y.2 * 4096 + y.1))])) := by
  have few' : ¬ 5 ≤ x.sends := Nat.not_le.mpr few
  show execSwapRetryTimeout p s = _
  simp only [execSwapRetryTimeout, State.act, h, waits, Option.isSome_none, Bool.false_eq_true, if_false, few', awake, noPause, shows, or_self,
    Bool.true_eq_false]

end

/-- Settles O11: each event's condition is met by the hypotheses of its clause. -/
theorem octavoChangesComplete : Obligations.OctavoChangesComplete := by
  intro s p
  refine ⟨fun shows en noSwap noTx noReload noPause awake idle found =>
      exec_swapEvaluation_moves s p rfl shows en noSwap noTx noReload noPause awake idle rfl found,
    fun m shows fresh => ?_, fun m => rfl, fun m x h same => ?_, fun x shows h => ?_, fun x sf => exec_invertedFlagRx_swap s p sf,
    fun x => exec_swapRetryTimeout_again s p, exec_reloadReqRx_master s p, fun m x => exec_tableRx_first s p m,
    fun m x h same master whole => ?_, fun m x h same master part => ?_, fun m x h same => ?_, fun x t h shows target => ?_,
    fun x h waits => ?_, fun x h shows own acked => ?_, fun shows runs noPause some => s.on_pos ⟨shows, runs, noPause, some⟩,
    fun x h shows acked => ?_, fun phase => s.on_pos phase, fun x => exec_pauseFlagPhase_partner s p, fun up phase active => ?_⟩
  · show execSwapReqRx p m s = _
    simp only [execSwapReqRx, State.act, shows, if_true, fresh]
  · show execSwapNakRx p m s = _
    simp only [execSwapNakRx, State.act, h, same, if_true]
  · show execSwapChangeover p true s = _
    simp only [execSwapChangeover, State.act, shows, if_true, h]
  · show execReloadAckRx p m s = _
    simp only [execReloadAckRx, State.act, h, same, master, whole, ne_eq, not_true_eq_false, Bool.true_eq_false, or_self, if_false, if_true]
  · show execReloadAckRx p m s = _
    simp only [execReloadAckRx, State.act, h, same, master, part, ne_eq, not_true_eq_false, Bool.true_eq_false, or_self, if_false,
      Bool.false_eq_true]
  · show execReloadNakRx p m s = _
    simp only [execReloadNakRx, State.act, h, same, if_true]
  · show execReloadChangeover p s = _
    simp only [execReloadChangeover, State.act, h, target, shows, if_true]
    rfl
  · show execReloadTimeout p s = _
    simp only [execReloadTimeout, State.act, h, waits, if_true]
  · show execPauseCancel p s = _
    simp only [execPauseCancel, State.act, h, shows, own, acked, and_self, if_true]
  · show execPauseStart p s = _
    simp only [execPauseStart, State.act, h, shows, acked, and_self, if_true]
  · show execPauseEnd p true s = _
    simp only [execPauseEnd, State.act, up, phase, active, and_self, if_true, Bool.true_eq_false, if_false, Bool.false_eq_true, false_and]

end Sys2Proof.Machine
end

section
/-! Pip's frames, answers and bursts (04_pip_channel.md R127 to R159). -/

namespace Sys2Proof.Machine

section
variable (s : State) (p : Port)

/-- A frame that is heard and is no repetition acts once. -/
theorem State.pipOnce_fresh {typ seq rate lq : Nat} {f : Chip → Chip} (hears : s.chip.pipHears p = true)
    (fresh : (s.chip.pipGood p typ rate lq).pipRepeat p typ seq = none) :
    (.next (s.on (s.chip.pipOnce p typ seq rate lq f)) : Res) = .next (s.on (f (s.chip.pipGood p typ rate lq))) := by
  unfold Chip.pipOnce
  rw [if_pos hears]
  dsimp only
  rw [fresh]

/-- A CAP in state CAP leads on to the negotiation. -/
theorem exec_capRx_fresh (rate : Fin 3) (lq seq : Byte) (body : Bytes) :
    let d := ((s.chip.pipGood p 2 rate.val lq.toNat).peerSeen p (beAt body 0 8)).pipAck p 2 seq.toNat rate.val 0
    let adv := beAt body 8 2 % 2 ^ 14
    let cap : PeerCap := ⟨beAt body 0 8, adv, (beAt body 10 1).testBit 0, (beAt body 10 1).testBit 1, beAt body 10 1 / 16, (beAt body 11 1).testBit 0⟩
    let e := ((d.modPip p fun x => { x with peerCap := some cap }).put (lpB p) AN_LP_ABILITY adv).put (lpB p) AN_LP_VALID 1
    s.chip.pipHears p = true → (s.chip.pipGood p 2 rate.val lq.toNat).pipRepeat p 2 seq.toNat = none → d.lState p = 2 → e.lState p = 2 →
    beAt body 0 1 = 0xCA → exec (.capRx p rate lq seq body) s = .next (s.on (e.pipNegotiate p)) := by
  intro d adv cap e hears fresh state after own
  have stays : (if e.lState p = 1 then e.toLink p 2 else e) = e := if_neg (by rw [after]; decide)
  refine (s.pipOnce_fresh p hears fresh).trans ((s.on_pos ⟨.inr state, own⟩).trans ?_)
  show (.next (s.on ((if e.lState p = 1 then e.toLink p 2 else e).pipNegotiate p)) : Res) = _
  rw [stays]

/-- An OFFER to the SLAVE of the pair is answered and kept. -/
theorem exec_offerRx_slave (rate : Fin 3) (lq seq : Byte) (body : Bytes) {x : PeerCap} {d : Chip} (good : d = s.chip.pipGood p 3 rate.val lq.toNat)
    (hears : s.chip.pipHears p = true) (fresh : d.pipRepeat p 3 seq.toNat = none) (cap : (d.port p).pip.peerCap = some x) (state : d.lState p = 2)
    (slave : d.capMaster p x = false) :
    exec (.offerRx p rate lq seq body) s =
      .next (s.on ((d.pipAck p 3 seq.toNat rate.val (if d.offerOk p x body then 0 else 1)).modPip p fun y => { y with offer := body })) := by
  subst good
  refine (s.pipOnce_fresh p hears fresh).trans ?_
  rw [cap]
  exact s.on_pos ⟨state, slave⟩

/-- The one message that waits for its answer is found by its type and SEQ. -/
theorem outstanding_found {l : List PipOut} {o : PipOut} {typ seq : Nat} (only : l = [o]) (ofTyp : o.msg.typ = typ) (ofSeq : o.msg.seq = some seq) :
    (l.find? fun o => o.msg.typ == typ && o.msg.seq == some seq) = some o := by
  rw [only, List.find?_cons_of_pos]
  simp [ofTyp, ofSeq]

/-- An ACK of a DIAG_REQ is its report. -/
theorem exec_pipAckRx_diag (rate : Fin 3) (lq : Byte) (body : Bytes) (turn : Nat) {o : PipOut} {d e : Chip}
    (good : d = s.chip.pipGood p 4 rate.val lq.toNat)
    (dropped : e = d.pipDrop p fun m => m == o.msg || (m.typ == 9 && m.seq == some (beAt body 1 1)))
    (hears : s.chip.pipHears p = true) (only : (d.port p).pip.outstanding = [o]) (ofTyp : o.msg.typ = 9) (ofSeq : o.msg.seq = some (beAt body 1 1))
    (names : beAt body 0 1 = 9) (state : e.lState p ≠ 2) :
    exec (.pipAckRx p rate lq body turn) s = .next (s.on (e.modPip p fun x => { x with rpt := be 1 4 ++ be 1 (beAt body 2 1) })) := by
  refine (s.on_pos hears).trans ?_
  dsimp only
  rw [← good, names, outstanding_found only ofTyp ofSeq]
  dsimp only
  rw [← dropped, if_neg state]
  rfl

/-- A request to sleep that the part allows. -/
theorem exec_sleepRx_allowed (rate : Fin 3) (lq seq st : Byte) (delay : BitVec 16) {d : Chip} (good : d = s.chip.pipGood p 6 rate.val lq.toNat)
    (hears : s.chip.pipHears p = true) (fresh : d.pipRepeat p 6 seq.toNat = none) (en : d.on PWR PWR_PARTNER_SLEEP_EN_EN = true)
    (state : st = 1 ∨ st = 2) :
    exec (.sleepRx p rate lq seq st delay) s = .next (s.on
      (((d.evt (lpB p) PIP_EVT_SLEEP_RX).pipAck p 6 seq.toNat rate.val 0).pwrRequest (st.toNat + 1) delay.toNat 2)) := by
  subst good
  have ok : ((s.chip.pipGood p 6 rate.val lq.toNat).on PWR PWR_PARTNER_SLEEP_EN_EN && decide (st.toNat = 1 ∨ st.toNat = 2)) = true := by
    rw [en]
    rcases state with rfl | rfl <;> rfl
  refine (s.pipOnce_fresh p hears fresh).trans ?_
  dsimp only
  rw [ok, if_pos rfl, Bool.not_true, Bool.toNat_false]

/-- A PAUSE in Showtime with nothing under way. -/
theorem exec_pipPauseRx_free (rate : Fin 3) (lq seq : Byte) (body : Bytes) {d : Chip} (good : d = s.chip.pipGood p 7 rate.val lq.toNat)
    (hears : s.chip.pipHears p = true) (fresh : d.pipRepeat p 7 seq.toNat = none) (shows : d.showtime p = true) (noSwap : (d.port p).oct.swap = none)
    (noTx : (d.port p).oct.swapTx = none) (noReload : (d.port p).oct.reload = none) (noPause : (d.port p).oct.pause = none) :
    exec (.pipPauseRx p rate lq seq body) s = .next (s.on
      ((d.pipAck p 7 seq.toNat rate.val 0).modOct p fun o => { o with pause := some { x := beAt body 0 1, own := false, acked := true } })) := by
  subst good
  refine (s.pipOnce_fresh p hears fresh).trans ?_
  dsimp only
  rw [noSwap, noTx, noReload, noPause]
  exact s.on_pos ⟨shows, rfl⟩

/-- A DIAG_REQ for the temperature. -/
theorem exec_diagReqRx_temperature (rate : Fin 3) (lq seq : Byte) (body : Bytes) {d : Chip} (good : d = s.chip.pipGood p 9 rate.val lq.toNat)
    (hears : s.chip.pipHears p = true) (fresh : d.pipRepeat p 9 seq.toNat = none) (code : beAt body 0 1 = 1) :
    exec (.diagReqRx p rate lq seq body) s = .next (s.on
      (d.pipAnswer p 9 seq.toNat rate.val 10 (be 1 1 ++ be 1 seq.toNat ++ be 2 (unsigned 16 d.topTemp)))) := by
  subst good
  refine (s.pipOnce_fresh p hears fresh).trans ?_
  dsimp only
  rw [code]
  rfl

/-- The report of the one DIAG_REQ that waits. -/
theorem exec_diagRptRx_waited (rate : Fin 3) (lq : Byte) (body : Bytes) {o : PipOut} {d : Chip} (good : d = s.chip.pipGood p 10 rate.val lq.toNat)
    (hears : s.chip.pipHears p = true) (only : (d.port p).pip.outstanding = [o]) (ofTyp : o.msg.typ = 9) (ofSeq : o.msg.seq = some (beAt body 1 1)) :
    exec (.diagRptRx p rate lq body) s = .next (s.on (((d.pipDrop p fun m => m.typ == 9 && m.seq == some (beAt body 1 1)).evt (lpB p)
      PIP_EVT_DIAG_RPT).modPip p fun x => { x with rpt := be 1 10 ++ body.take 1 ++ body.drop 2 })) := by
  subst good
  refine (s.on_pos hears).trans (s.on_pos ?_)
  rw [only, List.any_cons, ofTyp, ofSeq]
  simp

/-- The first message that waits is sent when its back-off ends. -/
theorem exec_pipBackoffEnd_first (frac : Nat) {m : PipMsg} (hears : s.chip.pipHears p = true) (free : s.chip.on (lpB p) PIP_STAT_RX_BUSY = false)
    (first : firstWaiting (s.chip.port p).pip.waiting = some m) (asks : m.answer = false) :
    exec (.pipBackoffEnd p frac) s =
      .next (s.on (((s.chip.rollDie p).modPip p fun y => { y with waiting := dropMsg m y.waiting }).pipSend p m (s.chip.now + frac))) := by
  refine (s.on_pos ⟨hears, free⟩).trans ?_
  rw [first]
  refine s.on_neg ?_
  rw [asks]
  exact Bool.false_ne_true

/-- The one answer that waits is sent. -/
theorem exec_pipAnswerTx_only (frac : Nat) {m : PipMsg} (hears : s.chip.pipHears p = true) (only : (s.chip.port p).pip.waiting = [m])
    (answers : m.answer = true) (typ : m.typ ≠ 4) :
    exec (.pipAnswerTx p frac) s = .next (s.on
      (((s.chip.modPip p fun y => { y with waiting := dropMsg m y.waiting }).pipSend p m (s.chip.now + frac)).pipNegotiate p)) := by
  have found : ((s.chip.port p).pip.waiting.find? (·.answer)) = some m := by
    rw [only, List.find?_cons_of_pos]
    exact answers
  refine (s.on_pos hears).trans ?_
  rw [found]
  exact s.on_neg fun h => typ h.1

/-- The one message whose answer is due is sent again. -/
theorem exec_pipAnswerTimeout_only (typ seq : Byte) {o : PipOut} (only : (s.chip.port p).pip.outstanding = [o]) (ofTyp : o.msg.typ = typ.toNat)
    (ofSeq : o.msg.seq = some seq.toNat) (none : (s.chip.port p).pip.waiting = []) :
    exec (.pipAnswerTimeout p typ seq) s = .next (s.on (s.chip.pipRetry p o)) := by
  show execPipAnswerTimeout p typ seq s = _
  unfold execPipAnswerTimeout State.act
  dsimp only
  rw [outstanding_found only ofTyp ofSeq, none]
  rfl

end

/-- Settles O12: each message's rule, under the hypotheses of its clause. -/
theorem pipEventsComplete : Obligations.PipEventsComplete := by
  intro s p rate lq seq
  refine ⟨fun body hears state own => (s.on_pos hears).trans (s.on_pos ⟨state, own⟩), exec_capRx_fresh s p rate lq seq,
    fun body x => exec_offerRx_slave s p rate lq seq body rfl, fun body turn o => exec_pipAckRx_diag s p rate lq body turn rfl rfl,
    fun hears listens doze => ?_, fun st delay => exec_sleepRx_allowed s p rate lq seq st delay rfl,
    fun body => exec_pipPauseRx_free s p rate lq seq body rfl, fun body frac hears => s.on_pos hears,
    fun body => exec_diagReqRx_temperature s p rate lq seq body rfl, fun body o => exec_diagRptRx_waited s p rate lq body rfl,
    fun why hears => (s.on_pos hears).trans ?_, fun diff hears some reaches => (s.on_pos hears).trans (s.on_pos ⟨some, reaches⟩),
    fun frac m => exec_pipBackoffEnd_first s p frac, fun frac m => exec_pipAnswerTx_only s p frac,
    fun typ o => exec_pipAnswerTimeout_only s p typ seq, fun burst => s.on_pos burst⟩
  · have heard : (if s.chip.pipHears p then s.chip.pipGood p 5 rate.val lq.toNat else s.chip) = s.chip.pipGood p 5 rate.val lq.toNat :=
      if_pos hears
    show execWakeRx p rate lq s = _
    unfold execWakeRx State.act
    dsimp only
    rw [heard]
    exact s.on_pos ⟨listens, .inl (by rw [doze]; decide)⟩
  · cases why <;> rfl

end Sys2Proof.Machine
end

section
/-! Reflectometry, round trips and the time protocol (05_cable_and_idle.md R160 to R180, 06_folio_time.md R193 to R224). -/

namespace Sys2Proof.Machine

section
variable (s : State) (p : Port)

/-- A quiet line on which no reflection is the far end's. -/
theorem exec_tdrTryEnd_open (noise : Nat) (l : List (Int × Nat)) (busy : s.chip.tdrBusy p = true) (shooting : (s.chip.port p).diag.shooting = true)
    (low : noise * 199526 < s.chip.get (lpB p) DIAG_THR_THR * 512 * 100000) {r : List Refl} (report : r = s.chip.tdrReport p l)
    (open_ : farEnd r = none) :
    exec (.tdrTryEnd p true noise l) s = .next (s.on ((((((s.chip.put (lpB p) DIAG_STAT_COUNT r.length).modDiag p fun x => { x with refls := r }).put
      (lpB p) DIAG_STAT_FAR_END 0).putWide (lpB p + DIAG_TIME_TIME.off) 2 0).loseE p).tdrOver p 1)) := by
  have runs : (s.chip.tdrBusy p && (s.chip.port p).diag.shooting) = true := by rw [busy, shooting]; rfl
  refine (s.on_pos runs).trans ((s.on_neg (by decide)).trans ((s.on_neg (Nat.not_le.mpr low)).trans ?_))
  dsimp only
  rw [← report, open_]

/-- The first round trip of a method L window. -/
theorem exec_methodLWindowEnd_first (m : Nat) (markers : s.chip.markers p = true) (slave : s.chip.on (lpB p) AN_STAT_MS_RESULT = true)
    (en : s.chip.on (lpB p) DIAG_CTL_L_EN = true) (coarse : s.chip.modeOf p = 5 ∨ (s.chip.port p).diag.coarse.isSome = true)
    (first : (s.chip.port p).diag.prevRtt = none) {rtt : Nat}
    (measured : rtt = satU 32 (if s.chip.modeOf p = 5 then ((m : Int) - tTurn (s.chip.modeOf p))
      else nearestRtt (s.chip.modeOf p) ((m : Int) - tTurn (s.chip.modeOf p)) ((s.chip.port p).diag.coarse.getD 0)).toNat) :
    exec (.methodLWindowEnd p m) s = .next (s.on ((s.chip.modDiag p fun x => { x with prevRtt := some rtt }).takeRtt p rtt)) := by
  refine (s.on_pos ⟨markers, slave, en, coarse⟩).trans ?_
  dsimp only
  rw [first, ← measured]

end

/-- Settles O13: each event's rule, under the hypotheses of its clause. -/
theorem cableEventsComplete : Obligations.CableEventsComplete := by
  intro s p
  refine ⟨fun busy => s.on_pos busy, fun busy idle => s.on_pos ?_,
    fun noise l busy shooting low none => exec_tdrTryEnd_open s p noise l busy shooting low rfl none,
    fun frac markers master => s.on_pos ⟨markers, master⟩,
    fun m markers slave en coarse first => exec_methodLWindowEnd_first s p m markers slave en coarse first rfl,
    fun folio slave valid up => s.on_pos ⟨folio, slave, valid, up⟩,
    fun f folio own typ kind oui sub flows master en mode =>
      (s.on_pos ⟨folio, own, typ, kind, oui, sub⟩).trans (s.on_pos ⟨flows, master, en, mode⟩)⟩
  rw [busy, idle]
  rfl

section
variable (s : State)

/-- A Pdelay_Req is sent while the last one was answered and few were lost. -/
theorem exec_pdelayReqTx_answered (i : Fin 16) (folio : s.chip.folioOn = true) (en : s.chip.ptpEn i = true) (up : s.chip.ptpUp i = true)
    (none : (s.chip.folio.ptp[i]).req = none) (few : (s.chip.folio.ptp[i]).lost ≤ 9) :
    exec (.pdelayReqTx i) s = .next (s.on ((s.chip.queueCtl i
      { kind := 3, bytes := s.chip.ptpFrame i 2 0 0 s.chip.folio.ptp[i].seqPd 5 (s.chip.logPdelay i) (be 20 0) }).modPtp i
        fun x => { x with seqPd := (x.seqPd + 1) % 2 ^ 16 })) := by
  have noReq : ¬ (s.chip.folio.ptp[i]).req.isSome = true := by
    rw [none]
    exact Bool.false_ne_true
  refine (s.on_pos ⟨folio, en, up⟩).trans ?_
  dsimp only
  rw [if_neg noReq, if_neg (Nat.not_lt.mpr few)]

end

/-- Settles O14: each event's rule, under the hypotheses of its clause. -/
theorem folioEventsComplete : Obligations.FolioEventsComplete := by
  intro s i
  refine ⟨fun n => rfl, fun b frac own => s.on_pos own, fun b frac own => s.on_pos own, fun b own => s.on_pos own, fun b frac own => s.on_pos ?_,
    fun b folio own en => s.on_pos ?_, fun j src => s.on_pos ?_, fun head src => s.on_pos ⟨head, src⟩, ?_,
    fun master plain => s.on_pos ⟨master, plain⟩, fun master => s.on_pos master, exec_pdelayReqTx_answered s i,
    fun o armed clk due => s.on_pos ⟨armed, clk, due⟩, fun o => rfl⟩
  · rw [own]
    rfl
  · rw [folio, own, en]
    rfl
  · rw [src]
    rfl
  · intro k rising frac sel t clocked onRise onFall room source
    have selected : if rising then sel % 2 = 1 else sel / 2 = 1 := by
      cases rising with
      | true => exact onRise rfl
      | false => exact onFall rfl
    exact exec_captureEdge_queued frac clocked selected source room

end Sys2Proof.Machine
end

section
/-! Lane faults, retimer training and the checkers (07_host_lanes_and_retimer.md R231 to R264). -/

namespace Sys2Proof.Machine

section
variable (s : State) (l : Lane)

/-- A lane whose receiver is back, outside retimer training. -/
theorem exec_laneFaultClear_untrained (v : List (Nat × Nat × Int)) (desk : Bool) (runs : s.chip.laneRuns l = true) (state : s.chip.trnState l ≠ 5)
    (plain : (s.chip.lanes[l]).train = false) :
    let d := (s.chip.laneRx l true true true true false).laneFit l v
    let all := desk && d.hostMode == 1 && hostLanes.all fun h => d.laneRuns h && !d.lanes[h].rxLost
    exec (.laneFaultClear l v desk) s =
      .next (s.on (((if all then d.modHgrp fun h => { h with deskewed := true } else d).pairRx l).laneEval l)) := by
  intro d all
  have clears : (s.chip.laneRuns l && s.chip.trnState l != 5) = true := by simp [runs, state]
  have untrained : (s.chip.laneData l && (s.chip.lanes[l]).train && (s.chip.lanes[l]).rxLost) = false := by
    rw [plain, Bool.and_false, Bool.false_and]
  refine (s.on_pos clears).trans ?_
  dsimp only
  rw [untrained, if_neg Bool.false_ne_true]

/-- The first lane of a bond that is live again restarts its credit. -/
theorem exec_laneLive_first (bond : s.chip.hostMode = 2) (data : s.chip.laneData l = true) (up : s.chip.laneUp l = true)
    (dark : s.chip.on (laneB l) XN_STAT_LIVE = false) (idle : s.chip.quire.idleHold = false)
    (kept : s.chip.bit HGRP HGRP_BOND_STAT_SHED l.val = false) (first : hostLanes.all (fun h => !s.chip.on (laneB h) XN_STAT_LIVE) = true) :
    exec (.laneLive l) s = .next (s.on ((s.chip.put (laneB l) XN_STAT_LIVE 1).creditRestart)) := by
  refine (s.on_pos ⟨bond, data, up, dark, idle⟩).trans ?_
  dsimp only
  rw [first, kept, if_pos rfl, if_neg Bool.false_ne_true]

/-- An injected bit comes back through near-end loopback to a locked checker. -/
theorem Chip.patInject_near {c : Chip} (gen : c.on (laneB l) XN_PAT_CTL_GEN_EN = true) (near : c.get (laneB l) XN_CTL_LPBK = 1)
    (chk : c.on (laneB l) XN_PAT_CTL_CHK_EN = true) (lock : c.on (laneB l) XN_PAT_STAT_LOCK = true) :
    c.patInject l = (c.modLane l fun x => { x with injected := x.injected + 1 }).patErr l 1 := by
  unfold Chip.patInject
  rw [if_pos gen]
  exact if_pos ⟨chk, lock, near⟩

end

/-- Settles O15: each event's rule, under the hypotheses of its clause. -/
theorem laneEventsComplete : Obligations.LaneEventsComplete := by
  intro s l
  refine ⟨fun sig cdr blk fec rf runs lost => (s.on_pos runs).trans (s.on_pos ?_), exec_laneFaultClear_untrained s l, exec_laneLive_first s l, rfl,
    fun ready runs idle => s.on_pos ⟨ready, runs, idle⟩, fun page ready runs trains pages => ?_,
    fun ready runs trains state => s.on_pos ⟨ready, runs, trains, state⟩, fun n retimed pages => s.on_pos ⟨retimed, pages⟩,
    fun v retimed runs training => (s.on_pos ⟨retimed, runs, training⟩).trans (s.on_pos rfl),
    fun retimed training sent sent' => s.on_pos ⟨retimed, training, sent, sent'⟩, fun training retimed => (s.on_pos training).trans (s.on_pos retimed),
    fun failed retimed => (s.on_pos failed).trans (s.on_pos retimed), fun retimed runs state => s.on_pos ⟨retimed, runs, state⟩,
    fun chk run => s.on_pos ⟨chk, run⟩, fun n chk lock many => (s.on_pos ⟨chk, lock⟩).trans (s.on_pos many),
    fun periodic gen lpbk => (s.on_pos periodic).trans (congrArg (fun c => Host.Outcome.next (s.on c)) (Chip.patInject_apart l gen lpbk)),
    fun periodic gen near chk lock => (s.on_pos periodic).trans (congrArg (fun c => Host.Outcome.next (s.on c)) (Chip.patInject_near l gen near chk lock))⟩
  · rw [lost]
    rfl
  · have other : s.chip.trnState l ≠ 2 ∧ s.chip.trnState l ≠ 5 := by omega
    refine (s.on_pos ⟨ready, runs, trains, other⟩).trans ?_
    dsimp only
    rw [if_pos pages]

end Sys2Proof.Machine
end

section
/-! Frames into Quire and out of it, credit, scrubbing and recalls (01_architecture.md R28 to R36, 07_host_lanes_and_retimer.md R240 to
R250, 08_quire_buffer.md R266 to R305). -/

namespace Sys2Proof.Machine

/-- The counters of a lane lie below the block of the host group. -/
theorem Chip.hostMode_bumpLane (c : Chip) (l : Lane) {k : Nat} (n : Nat) (hk : k < 16) : (c.bumpLane l k n).hostMode = c.hostMode := by
  have lane := l.isLt
  have reg : (c.bumpLane l k n).reg (HGRP + HGRP_MODE_ACTIVE.off) = c.reg (HGRP + HGRP_MODE_ACTIVE.off) := by
    unfold Chip.bumpLane Chip.bump
    have value : ∀ v, (c.putWide (laneB l + 0x200 + 4 * k) 3 v).reg (HGRP + HGRP_MODE_ACTIVE.off) = c.reg (HGRP + HGRP_MODE_ACTIVE.off) :=
      fun v => Chip.reg_putWide_ne _ _ _ _ _ (by simp only [laneB, HGRP]; omega)
    dsimp only
    split
    · exact value _
    · rw [Chip.putBit, Chip.reg_put_ne _ _ _ _ _ (by simp only [laneB, HGRP]; omega), value]
  rw [Chip.hostMode, Chip.hostMode, Chip.get, Chip.get, reg]

theorem Chip.hostMode_laneDecoded (c : Chip) (l : Lane) (d : LaneDec) : (c.laneDecoded l d).hostMode = c.hostMode := by
  unfold Chip.laneDecoded
  split
  · dsimp only
    rw [Chip.hostMode_bumpLane _ _ _ (by decide)]
    split
    · simp only [Chip.hostMode_bumpLane _ l _ (by decide : 6 < 16), Chip.hostMode_bumpLane _ l _ (by decide : 7 < 16),
        Chip.hostMode_bumpLane _ l _ (by decide : 8 < 16)]
    · rfl
  · rfl

section
variable (s : State) (p : Port)

/-- A good frame from the line goes into Quire. -/
theorem exec_lineRxFrame_kept (f : Bytes) (frac cws : Nat) {r : Chip × Bool}
    (commit : r = s.chip.qCommit (qOf 0 p (frameClass f)) { bytes := f, time := s.chip.now + frac - s.chip.lat p 0 })
    (flows : s.chip.linkFlows p = true) (line : s.chip.lineLoop p = 0)
    (good : s.chip.lState p = 6 → ((s.chip.port p).oct.cwBad.take cws).any id = false) (short : f.length ≤ s.chip.get (lpB p) MAC_MAXLEN_MAXLEN)
    (fcs : fcsOk f = true) (data : beAt f 12 2 ≠ 0x8808) (plain : s.chip.ptpTakes (ptpOf p) f = false) (carries : s.chip.carries p = true)
    (on : s.chip.quireOn = true) (taken : r.2 = true) :
    exec (.lineRxFrame p f frac cws) s = .next (s.on ((r.1.bumpLp p 0 1).bumpLp p 1 f.length)) := by
  have whole : (s.chip.lState p == 6 && ((s.chip.port p).oct.cwBad.take cws).any id) = false := by
    by_cases oct : s.chip.lState p = 6
    · rw [good oct, Bool.and_false]
    · rw [beq_false_of_ne oct, Bool.false_and]
  show execLineRxFrame p f frac cws s = _
  simp only [execLineRxFrame, State.act, flows, line, whole, Chip.lineRx, Nat.not_lt.mpr short, fcs, data, plain, carries, on, ← commit, taken,
    if_true, if_false, Bool.true_eq_false, Bool.false_eq_true, or_self, Nat.reduceEqDiff, zero_ne_one]

/-- A frame in a bad codeword counts as one with a bad check sequence. -/
theorem exec_lineRxFrame_bad (f : Bytes) (frac cws : Nat) (flows : s.chip.linkFlows p = true) (line : s.chip.lineLoop p = 0)
    (oct : s.chip.lState p = 6) (bad : ((s.chip.port p).oct.cwBad.take cws).any id = true) (short : f.length ≤ s.chip.get (lpB p) MAC_MAXLEN_MAXLEN) :
    exec (.lineRxFrame p f frac cws) s = .next (s.on (s.chip.bumpLp p 4 1)) := by
  have broken : (s.chip.lState p == 6 && ((s.chip.port p).oct.cwBad.take cws).any id) = true := by rw [oct, bad]; rfl
  show execLineRxFrame p f frac cws s = _
  simp only [execLineRxFrame, State.act, flows, line, broken, Chip.lineRx, Nat.not_lt.mpr short, or_true,
    if_true, if_false, Bool.true_eq_false, or_self, Nat.reduceEqDiff, zero_ne_one]

theorem laneNo_hLane : ∀ p : Port, laneNo (hLane p) = p := by decide

/-- A good frame from a paired host lane goes to its line. -/
theorem exec_hostRxFrame_paired (f : Bytes) (frac : Nat) (dec : LaneDec) {c d : Chip} (decoded : c = s.chip.laneDecoded (hLane p) dec)
    (got : d = c.laneGot (hLane p) f.length) (mode : c.hostMode = 0) (_retimed : c.laneRetimed (hLane p) = false)
    (data : c.laneData (hLane p) = true) (loop : c.laneLoop (hLane p) = 0) (up : c.laneUp (hLane p) = true) (paired : c.pairedPort p = true)
    (short : f.length ≤ c.get (lpB p) MAC_MAXLEN_MAXLEN) (fcs : fcsOk f = true) (frame : beAt f 12 2 ≠ 0x8808)
    (plain : d.ptpTakes (Fin.ofNat 16 (8 + p.val)) f = false) (on : d.quireOn = true) :
    exec (.hostRxFrame (hLane p) f frac dec) s = .next (s.on (d.commitToLine p { bytes := f, time := d.now + frac }).1) := by
  have noBond : ¬ (0 : Nat) = 2 := by decide
  have apart : s.chip.laneRetimed (hLane p) = false := by
    have before : s.chip.hostMode = 0 := by rw [← mode, decoded, Chip.hostMode_laneDecoded]
    rw [Chip.laneRetimed, before]
    rfl
  show execHostRxFrame (hLane p) f frac dec s = _
  simp only [execHostRxFrame, State.act, apart, ← decoded, mode, loop, noBond, Chip.hostRx, up, data, laneNo_hLane, paired, Chip.hostPaired, Nat.not_lt.mpr short,
    fcs, ← got, frame, plain, on, if_true, if_false, Bool.true_eq_false, Bool.false_eq_true, or_self, zero_ne_one, false_and]

/-- A word of the queue whose turn it is goes out on the line. -/
theorem exec_queueServe_line (frac : Nat) (q : Queue) (r : WordRead) (started : Bool) {x : Chip × Nat} {e : Chip}
    (read : x = s.chip.readFrame q none r started) (taken : e = x.1.qTake q) (flows : s.chip.linkFlows p = true)
    (awake : s.chip.on (lpB p) PCS_STAT_TX_LPI = false)
    (noCtl : ctlNext (s.chip.bit (lpB p) PFC_STAT_RX_PAUSED 7) (s.chip.port p).link.ctlq = none) (on : s.chip.quireOn = true)
    (pick : (s.chip.pickClass 1 p fun q => !s.chip.bit (lpB p) PFC_STAT_RX_PAUSED (qCls q).val) = some q) (some : x.2 ≠ 0) :
    let h := (s.chip.quire.queues[q].frames).headD {}
    exec (.queueServe (Fin.ofNat 17 p.val) frac r started) s = .next (s.on
      ((if x.2 = 1 then (e.bumpLp p 2 1).bumpLp p 3 h.bytes.length else e).lineSends p (wordSeen r h.bytes) (qCls q).val (x.2 == 1) frac)) := by
  have line : ∀ p : Port, (Fin.ofNat 17 p.val).val < 8 ∧ Fin.ofNat 8 (Fin.ofNat 17 p.val).val = p := by decide
  obtain ⟨low, same⟩ := line p
  show execQueueServe (Fin.ofNat 17 p.val) frac r started s = _
  simp only [execQueueServe, State.act, low, same, Chip.serveLine, flows, awake, noCtl, on, pick, ← read, some, ← taken, if_true, if_false,
    Bool.true_eq_false, Bool.false_eq_true, or_self]

/-- A held frame that waits too long is passed on with the gap before it. -/
theorem exec_reorderTimeout_held {x : HeldRx} {t : List HeldRx} (held : s.chip.hgrp.heldRx.getD p.val [] = x :: t) :
    exec (.reorderTimeout p) s = .next (s.on (((s.chip.bumpHgrp 3 1).evt HGRP HGRP_EVT_SEQ_GAP).heldGo p x.seq (x :: t))) := by
  show execReorderTimeout p s = _
  simp only [execReorderTimeout, State.act, held]

/-- A good credit set for this device. -/
theorem exec_creditSetRx_good (d1 : Byte) (limit : BitVec 32) {d : Chip} (bumped : d = s.chip.bumpHgrp 7 1) (mode : s.chip.hostMode = 1)
    (up : s.chip.on HGRP HGRP_STAT_GATHER_UP = true) (own : d1.toNat % 32 / 8 = d.pos) :
    exec (.creditSetRx p d1 limit (crc8 (be 1 d1.toNat ++ be 4 limit.toNat)) 0) s = .next (s.on
      (d.modQ (qOf 0 (Fin.ofNat 8 (d1.toNat % 32)) (Fin.ofNat 8 (d1.toNat / 32))) fun x => { x with limit := limit.toNat, limitSeen := true })) := by
  show execCreditSetRx p d1 limit (crc8 (be 1 d1.toNat ++ be 4 limit.toNat)) 0 s = _
  simp only [execCreditSetRx, State.act, mode, up, ← bumped, own, if_true, and_self]

/-- The credit sets go round the queues, one after the other. -/
theorem exec_creditSetTx_next {q : Queue} (next : q = Fin.ofNat 128 (64 + s.chip.quire.crdNext % 64)) (mode : s.chip.hostMode = 1)
    (up : s.chip.on HGRP HGRP_STAT_GATHER_UP = true) :
    exec (.creditSetTx true) s = .next (s.on (((((s.chip.modQ q fun x => { x with lastSent := x.limit }).modQuire fun x => { x with
      crdTx := some ((qCls q).val, 8 * s.chip.pos + (qPort q).val, s.chip.quire.queues[q].limit),
      crdWire := creditSet (qCls q).val (8 * s.chip.pos + (qPort q).val) s.chip.quire.queues[q].limit, crdNext := (x.crdNext + 1) % 64 }).bumpHgrp
        9 1).pmcEvt 1 9 1))) := by
  show execCreditSetTx true s = _
  simp only [execCreditSetTx, State.act, mode, up, ← next, if_true, Bool.toNat_true, one_ne_zero, if_false]

/-- A scrub of a frame store. -/
theorem exec_scrubCycle_frame (r : WordRead) (at_ : ScrubAt) (traffic : Bool) (en : s.chip.on QUIRE QUIRE_CTL_SCRUB_EN = true)
    (on : s.chip.quireOn = true) (banks : s.chip.banks ≠ 0) (store : r.store = 0) :
    let d := (s.chip.pmcEvt 1 7 1).scrubOn s.chip.scrubWord
    exec (.scrubCycle r at_ traffic) s = .next (s.on (match wordFound r with
      | .clean => d
      | .corrected => if traffic then d else d.eccCorr
      | .bad => d.scrubBad s.chip.scrubWord at_)) := by
  show execScrubCycle r at_ traffic s = _
  simp only [execScrubCycle, State.act, en, on, banks, store, if_true, if_false, Bool.true_eq_false, or_self] <;> rfl

/-- Spilled frames are called back over the face that holds the next one. -/
theorem exec_spillRecall_next (q : Fin 64) (n : BitVec 16) {y : QFrame} {i : Queue} (queue : i = ⟨q.val, by omega⟩) {f : Face}
    (face : f = if y.south then .s else .n) {m : Nat} (count : m = min n.toNat ((s.chip.quire.queues[i]).frames.countP fun z => z.at_ f))
    (next : ((s.chip.quire.queues[i]).frames.find? fun z => z.spilled.isSome) = some y) (some : m ≠ 0) (up : s.chip.fSt f = 4) :
    let d := (s.chip.modFace f fun z => { z with recalls := z.recalls + m }).recallShow
    exec (.spillRecall q n) s =
      .next (s.on (d.spSend f 4 (d.beyond f) (be 1 (8 * d.pos + (qPort i).val) ++ be 1 (qCls i).val ++ be 2 m))) := by
  have runs : ¬ (m = 0 ∨ s.chip.fSt f ≠ 4) := by simp [some, up]
  subst queue
  show execSpillRecall q n s = _
  simp only [execSpillRecall, State.act, next, ← face, ← count, runs, if_false]

end

/-- Settles O16: each event's rule, under the hypotheses of its clause. -/
theorem framePathsComplete : Obligations.FramePathsComplete := by
  intro s p
  refine ⟨fun f frac cws => exec_lineRxFrame_kept s p f frac cws rfl, exec_lineRxFrame_bad s p, fun l f frac dec retimed => s.on_pos retimed,
    fun f frac dec => exec_hostRxFrame_paired s p f frac dec rfl rfl, fun frac q r started => exec_queueServe_line s p frac q r started rfl rfl,
    fun x t => exec_reorderTimeout_held s p, fun d1 limit => exec_creditSetRx_good s p d1 limit rfl, exec_creditSetTx_next s rfl,
    exec_scrubCycle_frame s, fun rebuilds => s.on_pos rebuilds, fun holds => s.on_pos holds,
    fun q n y => exec_spillRecall_next s q n rfl rfl rfl⟩

end Sys2Proof.Machine
end

section
/-! The faces of the Spine and their time marks (09_spine_cascade.md R313 to R322). -/

namespace Sys2Proof.Machine

section
variable (s : State) (f : Face)

/-- The announced loss of the south clock brings the face down without an event. -/
theorem exec_spineClockLoss_announced (up : s.chip.fSt f = 4) (announced : (s.chip.face f).announced = true) (south : f = .s) :
    exec (.spineClockLoss f) s = .next (s.on ((s.chip.put (faceB f) SPF_STAT_CLK_OK 0).toFace f 1)) := by
  subst south
  have quiet : ¬ ((4 : Nat) = 4 ∧ ((s.chip.put (faceB .s) SPF_STAT_CLK_OK 0).face .s).announced = false) := by
    rintro ⟨_, silent⟩
    exact Bool.false_ne_true (silent.symm.trans announced)
  have other : ¬ ((Face.s = .n) ∧ (s.chip.put (faceB .s) SPF_STAT_CLK_OK 0).isTail ∧ (s.chip.put (faceB .s) SPF_STAT_CLK_OK 0).fState = 5) :=
    fun h => Face.noConfusion h.1
  show execSpineClockLoss .s s = _
  unfold execSpineClockLoss State.act
  dsimp only
  rw [up, if_neg (by decide), if_neg quiet, if_neg other]
  exact s.on_pos ⟨by decide, by decide⟩

/-- The upper lanes fail on a face of both: it falls back to the lower ones. -/
theorem exec_spineLaneFail_upper (up : s.chip.fSt f = 4) (both : s.chip.get (faceB f) SPF_STAT_RX_LANES = 3)
    (en : s.chip.on (faceB f) SPF_CTL_FALLBACK_EN = true) :
    exec (.spineLaneFail f 0xC []) s =
      .next (s.on ((s.chip.modFace f fun x => { x with fallback := some 1 }).spSend f 7 (s.chip.beyond f) (be 1 1))) := by
  refine (s.on_pos up).trans ?_
  have none : (s.chip.each [0, 1, 2, 3] fun c (k : Nat) => if ([] : List Nat).getD k 0 = 0 then c else c.bumpFace f (12 + k) (([] : List Nat).getD k 0)) =
      s.chip := rfl
  dsimp only
  rw [none, both, en]
  rfl

/-- What a forward mark leaves, by what it is. -/
theorem exec_forwardMarkRx_eq (b : Bytes) (frac : Nat) (r : BitVec 48) (on : s.chip.spineOn = true) (up : s.chip.fSt .n = 4) :
    let d := s.chip.bumpFace .n 1 1
    let t2 := d.now + frac - d.latSp false
    let hop := beAt b 22 4
    let coarse := (beAt b 1 1).testBit 0
    let e := (((d.modFace .n fun x => { x with echoDue := some (beAt b 2 1, t2) }).putB SPINE SPINE_STAT_UP_COARSE coarse).putB
      SPINE SPINE_STAT_UP_HOLD ((beAt b 1 1).testBit 1))
    let g := (((e.putWide (faceB .n + SPF_DLY_D.off) 2 hop).putB (faceB .n) SPF_STAT_DLY_VALID (hop != 0)).modSpine
      fun x => { x with upRate := signed 48 (beAt b 16 6), ratio := r.toInt })
    let h := if hop = 0 ∨ g.folioClk = false then g else g.follow ((t2 : Int) - (ofTimeWord (beAt b 4 12) + hop))
    exec (.forwardMarkRx b frac r) s = .next (s.on (if markOk b = false then d.bumpFace .n 2 1
      else if d.isTail = false ∨ beAt b 0 1 ≠ 1 then d
      else if coarse then h.setCoarse else if h.fState = 5 ∧ h.on FOLIO FOLIO_STAT_COARSE then h.fine else h)) := by
  have hears : ¬ (s.chip.spineOn = false ∨ s.chip.fSt .n ≠ 4) := by simp [on, up]
  exact s.on_neg hears

/-- An echo of the last mark, while fewer than 63 delays are kept. -/
theorem exec_echoMarkRx_kept (b : Bytes) (frac : Nat) {d : Chip} (bumped : d = s.chip.bumpFace .s 1 1) {rtt : Int}
    (delay : rtt = (((d.now + frac : Nat) - (d.latSp false : Nat) : Int) - d.spine.south.markTime) -
      ((ofTimeWord (beAt b 4 12) : Nat) - (ofTimeWord (beAt b 16 12) : Nat)))
    (on : s.chip.spineOn = true) (up : s.chip.fSt .s = 4) (ok : markOk b = true) (echo : beAt b 0 1 = 2)
    (last : (beAt b 2 1 + 1) % 256 = d.spine.south.markCount) (few : d.spine.south.dHist.length < 63) :
    exec (.echoMarkRx b frac) s = .next (s.on (d.modFace .s fun x => { x with dHist := (rtt :: d.spine.south.dHist).take 64 })) := by
  have hears : ¬ (s.chip.spineOn = false ∨ s.chip.fSt .s ≠ 4) := by simp [on, up]
  have whole : ¬ markOk b = false := by simp [ok]
  have own : ¬ (beAt b 0 1 ≠ 2 ∨ (beAt b 2 1 + 1) % 256 ≠ d.spine.south.markCount) := by simp [echo, last]
  have room : ((rtt :: d.spine.south.dHist).take 64).length < 64 := by
    rw [List.length_take, List.length_cons]
    omega
  refine (s.on_neg hears).trans ((s.on_neg whole).trans ?_)
  dsimp only
  rw [← bumped, if_neg own, ← delay, if_pos room]

/-- A message without its ACK is sent again. -/
theorem exec_spineMsgRetx_again {m : SpMsg} {n : Nat} (waits : (s.chip.face f).out = some (m, n)) (hears : s.chip.spHears f = true) (few : n < 8) :
    exec (.spineMsgRetx f) s = .next (s.on ((s.chip.modFace f fun x => { x with out := some (m, n + 1), wire := m.bytes }).bumpFace f 6 1)) := by
  show execSpineMsgRetx f s = _
  simp only [execSpineMsgRetx, State.act, waits, hears, few, if_true, if_false, Bool.true_eq_false]

end

/-- Settles O17: each event's rule, under the hypotheses of its clause. -/
theorem spineFacesComplete : Obligations.SpineFacesComplete := by
  intro s f
  refine ⟨fun on off => s.on_pos ⟨on, off⟩, fun aligns => s.on_pos aligns, fun high aligns => (s.on_pos aligns).trans (s.on_pos rfl),
    fun h => s.on_pos h, fun h => s.on_pos h, exec_spineClockLoss_announced s f, exec_spineLaneFail_upper s f,
    fun frac on up role => s.on_pos ⟨on, up, role⟩, fun b frac r on up => ⟨fun bad => ?_, fun ok other => ?_, fun ok tail first => ?_⟩,
    fun frac n t2 due on up => ?_, fun b frac => exec_echoMarkRx_kept s b frac rfl rfl, fun r tail clk => s.on_pos ⟨tail, clk⟩,
    fun m n => exec_spineMsgRetx_again s f⟩
  · exact (exec_forwardMarkRx_eq s b frac r on up).trans (s.on_pos bad)
  · refine (exec_forwardMarkRx_eq s b frac r on up).trans ((s.on_neg ?_).trans (s.on_pos other))
    rw [ok]
    decide
  · refine (exec_forwardMarkRx_eq s b frac r on up).trans ((s.on_neg ?_).trans (s.on_neg ?_))
    · rw [ok]
      decide
    · simp [tail, first]
  · show execEchoMarkTx frac s = _
    simp only [execEchoMarkTx, State.act, due, on, up, and_self, if_true]

end Sys2Proof.Machine
end

section
/-! Messages of the Spine (09_spine_cascade.md R323 to R333). -/

namespace Sys2Proof.Machine

/-- A new message of its type is acknowledged, recorded and handed to its meaning. -/
theorem Chip.spRx_new {c : Chip} {f : Face} {b : Bytes} {n : Nat} (act : SpMsg → Chip → Chip) (typ : (spParse b).typ = n) (new : c.spNew f b) :
    c.spRx f n b act = act (spParse b) (c.spTaken f b) := by
  obtain ⟨hears, ok, fresh⟩ := new
  have own : ¬ ((spParse b).typ ≠ n ∧ (spParse b).typ ≤ 9) := fun h => h.1 typ
  have first : ((c.face f).lastRx == some (spParse b).seq) ≠ true := by simp [fresh]
  unfold Chip.spRx
  rw [if_neg (by simp [hears]), if_neg (by simp [ok])]
  dsimp only
  rw [if_neg own, if_neg first, if_pos typ]
  rfl

section
variable (s : State) (f : Face) (b : Bytes)

/-- The next state of a new message of its type. -/
theorem State.heard {n : Nat} {act : SpMsg → Chip → Chip} (typ : (spParse b).typ = n) (new : s.chip.spNew f b) :
    (s.act fun c => c.spRx f n b act) = .next (s.on (act (spParse b) (s.chip.spTaken f b))) :=
  congrArg (fun c => Host.Outcome.next (s.on c)) (Chip.spRx_new act typ new)

/-- The next state of a new message to this part, which is relayed first. -/
theorem State.delivered {n : Nat} {act : SpMsg → Chip → Chip} (typ : (spParse b).typ = n) (new : s.chip.spNew f b)
    (role : (s.chip.spTaken f b).role ≠ 3) (mine : ((s.chip.spTaken f b).spRelay f (spParse b)).spMine (spParse b).dst = true) :
    (s.act fun c => c.spRx f n b fun m c => c.spDeliver f act m) =
      .next (s.on (act (spParse b) ((s.chip.spTaken f b).spRelay f (spParse b)))) :=
  ((s.heard f b typ new).trans (s.on_neg role)).trans (s.on_pos mine)

/-- HELLO of the expected neighbour that is not acting. -/
theorem exec_spineHelloRx_right (typ : (spParse b).typ = 1) (new : s.chip.spNew f b) {d : Chip} (taken : d = s.chip.spTaken f b)
    (right : match (generalizing := false) f with | .n => d.pos = beAt (spParse b).body 8 1 + 1 | .s => beAt (spParse b).body 8 1 = d.pos + 1)
    (quiet : (beAt (spParse b).body 9 1).testBit 0 = false) :
    exec (.spineHelloRx f b) s = .next (s.on (((((d.put (faceB f) SPF_STAT_PEER_POS (beAt (spParse b).body 8 1)).putB (faceB f)
      SPF_STAT_PEER_ACTING false).modFace f fun x => { x with peerCount := beAt (spParse b).body 10 1, helloOk := true }).helloDone f).countShow)) := by
  subst taken
  refine (s.heard f b typ new).trans ?_
  dsimp only
  rw [quiet]
  cases f with
  | n => exact s.on_neg (by simp [right])
  | s => exact s.on_neg (by simp [right])

/-- The acknowledgement of the outstanding message, neither HELLO nor FALLBACK. -/
theorem exec_spineAckRx_plain {o : SpMsg} {n : Nat} (typ : (spParse b).typ = 0) (ok : spOk b = true) (hears : s.chip.spHears f = true)
    (out : (s.chip.face f).out = some (o, n)) (seq : o.seq = (spParse b).seq) (notHello : o.typ ≠ 1) (notFallback : o.typ ≠ 7) :
    exec (.spineAckRx f b) s = .next (s.on (((s.chip.bumpFace f 4 1).modFace f fun x => { x with out := none }).spGo f)) := by
  show execSpineAckRx f b s = _
  simp only [execSpineAckRx, State.act, hears, ok, out, typ, seq, notHello, notFallback, Bool.true_eq_false, if_false, ne_eq,
    not_true_eq_false, or_self]

/-- A request of the head for this part is put in MB2. -/
theorem exec_mb2MsgRx_request (typ : (spParse b).typ = 2) (new : s.chip.spNew f b) (role : (s.chip.spTaken f b).role ≠ 3) {e : Chip}
    (relayed : e = (s.chip.spTaken f b).spRelay f (spParse b)) (mine : e.spMine (spParse b).dst = true)
    (request : beAt (spParse b).body 3 1 < 128) (head : e.fromHead (spParse b).src = true)
    (length : (spParse b).body.length = 4 + 4 * (beAt (spParse b).body 3 1 % 64)) (on : e.binderOn = true)
    (free : e.on (mbB 2) MBN_CTL_DOORBELL = false) :
    exec (.mb2MsgRx f b) s = .next (s.on (e.mb2Put s.lock.bits (beAt (spParse b).body 0 2) (beAt (spParse b).body 2 1)
      ((List.range (beAt (spParse b).body 3 1 % 64)).map fun j => beAt (spParse b).body (4 + 4 * j) 4) (spParse b).src)) := by
  subst relayed
  refine ((s.delivered f b typ new role mine).trans (s.on_neg (Nat.not_le.mpr request))).trans (s.on_neg ?_)
  simp [head, length, on, free]

/-- A stack reset that this tail carries out. -/
theorem exec_stackResetRx_tail (typ : (spParse b).typ = 5) (new : s.chip.spNew f b) {d g h : Chip} (taken : d = s.chip.spTaken f b)
    (passed : g = if d.isTail ∧ (spParse b).dst = d.pos ∧ f = .n ∧ d.faceMay .s then d.spOut .s (spParse b) else d.spRelay f (spParse b))
    (announced : h = if beAt (spParse b).body 0 1 = 2 then g.resetAnnounced (spParse b).dst else g)
    (role : d.role ≠ 3) (tail : h.isTail = true) (mine : h.spMine (spParse b).dst = true)
    (kind : beAt (spParse b).body 0 1 = 1 ∨ beAt (spParse b).body 0 1 = 2) :
    exec (.stackResetRx f b) s = .next (s.on (h.modSpine fun x => { x with resetDue := some (beAt (spParse b).body 0 1) })) := by
  subst taken passed announced
  exact ((s.heard f b typ new).trans (s.on_neg role)).trans (s.on_pos ⟨tail, mine, kind⟩)

/-- A stack reset of the first kind is a global reset with its own cause. -/
theorem exec_stackResetAct_global (straps : BitVec 8) (due : s.chip.spine.resetDue = some 1) :
    exec (.stackResetAct straps) s = .next (s.on (((s.chip.modSpine fun x => { x with resetDue := none }).put GLB GLB_RST_CAUSE_STACK_GLB 1).glbReset)) := by
  show execStackResetAct straps s = _
  simp only [execStackResetAct, State.act, due]

/-- A power message of the head to this tail asks for the state that it names. -/
theorem exec_powerRx_head (typ : (spParse b).typ = 6) (new : s.chip.spNew f b) (role : (s.chip.spTaken f b).role ≠ 3)
    (apart : (spParse b).src ≠ (spParse b).dst) {e : Chip} (relayed : e = (s.chip.spTaken f b).spRelay f (spParse b))
    (mine : e.spMine (spParse b).dst = true) (tail : e.isTail = true) (head : e.fromHead (spParse b).src = true)
    (known : beAt (spParse b).body 0 1 = 1 ∨ beAt (spParse b).body 0 1 = 2) :
    exec (.powerRx f b) s = .next (s.on (e.pwrRequest (beAt (spParse b).body 0 1 + 1) (beAt (spParse b).body 1 2) 3)) := by
  subst relayed
  refine ((s.heard f b typ new).trans (s.on_neg role)).trans ((s.on_neg fun same => apart same.1).trans ?_)
  exact ((s.on_neg role).trans (s.on_pos mine)).trans (s.on_pos ⟨tail, head, known⟩)

/-- PROMOTE from a part that is not the head makes it the acting one. -/
theorem exec_promoteRx_acting (typ : (spParse b).typ = 9) (new : s.chip.spNew f b) {g h : Chip}
    (passed : g = (s.chip.spTaken f b).promotePass f)
    (relayed : h = if g.role = 3 then g else match g.spOnward f (spParse b).dst with
      | some x => (if g.fSt x = 4 then g.promotePass x else g).spOut x (spParse b)
      | none => g)
    (away : beAt (spParse b).body 0 1 ≠ 0) (mine : h.spMine (spParse b).dst = true) :
    exec (.promoteRx f b) s = .next (s.on (h.modSpine fun x => { x with acting := beAt (spParse b).body 0 1 })) := by
  subst passed relayed
  exact ((s.heard f b typ new).trans (s.on_pos mine)).trans (s.on_neg fun zero => away zero.1)

end

/-- Settles O18: a message of the Spine is taken once (`Chip.spRx_new`), relayed and acted on where it is for this part
(`State.delivered`). -/
theorem spineMessagesComplete : Obligations.SpineMessagesComplete := fun s f b => by
  refine ⟨fun typ new right quiet => exec_spineHelloRx_right s f b typ new rfl right quiet,
    fun o n typ ok hears out seq hello fall => exec_spineAckRx_plain s f b typ ok hears out seq hello fall,
    fun typ new role mine request head length on free => exec_mb2MsgRx_request s f b typ new role rfl mine request head length on free,
    fun typ new role mine => s.delivered f b typ new role mine,
    fun typ new role mine => s.delivered f b typ new role mine,
    ?spill,
    fun typ new role tail mine kind => exec_stackResetRx_tail s f b typ new rfl rfl rfl role tail mine kind,
    fun straps due => exec_stackResetAct_global s straps due,
    fun typ new role apart mine tail head known => exec_powerRx_head s f b typ new role apart rfl mine tail head known,
    fun due => s.on_pos due,
    fun typ new role mine lanes => (s.delivered f b typ new role mine).trans (s.on_neg lanes),
    fun typ new role mine low high => (s.delivered f b typ new role mine).trans (s.on_pos ⟨low, high⟩),
    fun typ away new mine => exec_promoteRx_acting s f b typ new rfl rfl away mine,
    fun role pos promote clock silent => s.on_pos ⟨role, pos, promote, clock, silent⟩⟩
  case spill =>
    intro on up ok first
    exact ((s.on_neg (by simp [on, up])).trans (s.on_neg (by simp [ok]))).trans (s.on_pos first)

end Sys2Proof.Machine
end

section
/-! Clocks, levels, islands and posted writes (10_register_fabric.md R357, 12_clocks.md R391 to R418). -/

namespace Sys2Proof.Machine

/-- A posted write that completes is merged and acts by its address. -/
theorem Chip.postDone_some {c : Chip} {k : Fin 3} {w : Posted} (posted : c.fab.posted[k] = some w) {e : Chip}
    (taken : e = c.modFab fun x => { x with posted := x.posted.set k.val none }) :
    c.postDone k = Chip.wroteAon e (e.merge w.addr (BitVec.ofNat 16 w.mask) (BitVec.ofNat 16 w.data)) w.addr (BitVec.ofNat 16 w.mask)
      (BitVec.ofNat 16 w.mask &&& BitVec.ofNat 16 w.data) := by
  subst taken
  unfold Chip.postDone
  rw [posted]

/-- A posted write to one of the addresses of a command completes. -/
theorem Chip.postedTo_some {c : Chip} {k : Fin 3} {w : Posted} {l : List Nat} (posted : c.fab.posted[k] = some w) (own : l.contains w.addr = true) :
    c.postedTo l k = c.postDone k := by
  unfold Chip.postedTo
  rw [posted]
  exact if_pos own

/-- PGOOD ends the level change that runs when no other waits. -/
theorem Chip.pgoodHigh_last {c : Chip} {t : Nat} (target : c.clk.levelTo = some t) (last : c.clk.levelNext = none) (running : c.halted = false) :
    c.pgoodHigh = (((((c.modClk fun x => { x with levelTo := none, levelNext := none, div := t }).put CLK CLK_LEVEL_ACTUAL t).put
      CLK CLK_LEVEL_BUSY 0).put CLK CLK_LEVEL_VHIGH 0).evt CLK CLK_EVT_LEVEL_DONE) := by
  unfold Chip.pgoodHigh
  rw [target, last, running]
  rfl

/-- PGOOD that stays low ends the change at the higher voltage and the lower divisions. -/
theorem Chip.pgoodTimeout_running {c : Chip} {t a : Nat} (actual : a = c.get CLK CLK_LEVEL_ACTUAL) (target : c.clk.levelTo = some t)
    (running : c.halted = false) :
    c.pgoodTimeout = (((((c.modClk fun x => { x with levelTo := none, levelNext := none, vsel := max t a, vselAt := some c.tpll, div := min t a }).put
      CLK CLK_LEVEL_ACTUAL (min t a)).put CLK CLK_LEVEL_TARGET (min t a)).put CLK CLK_LEVEL_BUSY 0).put CLK CLK_LEVEL_VHIGH 1).evt
      CLK CLK_EVT_PGOOD_FAIL := by
  subst actual
  unfold Chip.pgoodTimeout
  rw [target, running]
  rfl

section
variable (s : State)

/-- The next state when the chip is known by an equation. -/
theorem State.on_eq {c d : Chip} (h : c = d) : (.next (s.on c) : Res) = .next (s.on d) := by rw [h]

/-- A source whose stability only the loops wait for. -/
theorem exec_sourceStable_plain (k : Fin 4) (plain : k = 0 ∨ k = 3) :
    exec (.sourceStable k) s = .next (s.on (s.chip.modClk fun x => { x with stable := setB x.stable k.val true })) := by
  obtain rfl | rfl := plain <;> rfl

/-- A loop other than the first that did not run starts its blocks. -/
theorem exec_loopReady_stopped (k : Fin 6) (locked : s.chip.clk.lock.testBit k.val = true) (other : k ≠ 0) (stopped : s.chip.loopRuns k.val = false) :
    exec (.loopReady k) s =
      .next (s.on ((s.chip.modClk fun x => { x with ready := setB x.ready k.val true, run := setB x.run k.val true }).startBlocks k.val)) := by
  have past : ¬ k.val = 0 := fun zero => other (Fin.ext zero)
  refine (s.on_pos locked).trans ((s.on_neg past).trans (s.on_neg ?_))
  rw [stopped]
  exact Bool.false_ne_true

/-- An island that blocks wait for is powered while the part runs. -/
theorem exec_islandPowerUp_needed (k : Fin 8) (low : 2 ≤ k.val) (high : k.val ≤ 4) (run : s.chip.pwr.mode = 0)
    (off : s.chip.islandOn k.val = false) (need : s.chip.islandNeed k.val = true) :
    exec (.islandPowerUp k) s = .next (s.on ((s.chip.putBit PWR PWR_ISLANDS_ON k.val true).startBlocks k.val)) := by
  refine (s.on_pos ⟨run, off, .inl need⟩).trans ?_
  obtain ⟨k, small⟩ := k
  dsimp only at low high ⊢
  obtain rfl | rfl | rfl : k = 2 ∨ k = 3 ∨ k = 4 := by omega
  all_goals rfl

/-- A good window of XA against XB. -/
theorem exec_xaWindowEnd_passes (count : Nat) (en : s.chip.on CLK CLK_MON_CTL_XA_EN = true) (runs : s.chip.monRuns = true)
    (stable : s.chip.clk.stable.testBit 0 = true) (vs : s.chip.on CLK CLK_MON_STAT_VS_XB = true)
    (pass : (s.chip.put CLK CLK_MON_XA_COUNT (satU 10 count)).windowFails count 250 = false) :
    exec (.xaWindowEnd count) s =
      .next (s.on ((s.chip.put CLK CLK_MON_XA_COUNT (satU 10 count)).modClk fun x => { x with xaFails := 0, xaPasses := min 16 (x.xaPasses + 1) })) := by
  refine (s.on_neg (by simp [en, runs, stable])).trans ?_
  dsimp only
  rw [vs, if_pos rfl, if_pos rfl, pass]
  rfl

/-- A good window of XB against XA. -/
theorem exec_xbWindowEnd_passes (count : Nat) (en : s.chip.on CLK CLK_MON_CTL_XB_EN = true) (runs : s.chip.monRuns = true)
    (good : s.chip.clk.xaFails = 0) (xa : s.chip.on CLK CLK_MON_STAT_VS_XB = false) (whole : s.chip.on CLK CLK_MON_STAT_XA_FAIL = false)
    (pass : (s.chip.put CLK CLK_MON_XB_COUNT (satU 10 count)).windowFails count 192 = false) :
    exec (.xbWindowEnd count) s =
      .next (s.on ((s.chip.put CLK CLK_MON_XB_COUNT (satU 10 count)).modClk fun x => { x with xbFails := 0, xbPasses := min 16 (x.xbPasses + 1) })) :=
  (s.on_neg (by simp [en, runs, good, xa, whole])).trans (s.on_neg (by simp [pass]))

/-- A mean that lies a step above the reference raises it. -/
theorem exec_refUpdate_up (learned : s.chip.clk.learned = true) (some : s.chip.clk.refCnt ≠ 0) (whole : s.chip.on CLK CLK_MON_STAT_XA_FAIL = false)
    {r : Nat} (ref : r = s.chip.get CLK CLK_MON_REF_REF) (above : r * s.chip.clk.refCnt < s.chip.clk.refSum)
    (step : s.chip.clk.refCnt ≤ s.chip.clk.refSum - r * s.chip.clk.refCnt) :
    exec .refUpdate s = .next (s.on ((s.chip.put CLK CLK_MON_REF_REF (satU 10 (r + 1))).modClk fun x => { x with refSum := 0, refCnt := 0 })) := by
  subst ref
  refine (s.on_pos ⟨learned, some, whole⟩).trans ?_
  dsimp only
  rw [if_pos ⟨above, step⟩]

end

/-- Settles O19: each event's condition is its own; a posted write that completes is merged (`Chip.postDone_some`). That a level
written during a failed change is dropped is the model's choice (log entry 139). -/
theorem clockEventsComplete : Obligations.ClockEventsComplete := by
  intro s
  refine ⟨fun k plain => exec_sourceStable_plain s k plain, fun k need ok => s.on_pos ⟨need, ok⟩,
    fun k locked other stopped => exec_loopReady_stopped s k locked other stopped, fun k locked ok => s.on_pos ⟨locked, ok⟩,
    fun k w posted => s.on_eq (Chip.postDone_some posted rfl), ?enable,
    fun k low high run off need => exec_islandPowerUp_needed s k low high run off need, rfl,
    fun count en runs stable vs pass => exec_xaWindowEnd_passes s count en runs stable vs pass,
    fun count en runs good xa whole pass => exec_xbWindowEnd_passes s count en runs good xa whole pass,
    ?sleep,
    fun learned some whole above step => exec_refUpdate_up s learned some whole rfl above step,
    fun fail passes => (s.on_neg Bool.false_ne_true).trans (s.on_pos ⟨fail, passes⟩),
    ?resume, ?event, ?level,
    fun t target last running => s.on_eq (Chip.pgoodHigh_last target last running),
    fun t target running => s.on_eq (Chip.pgoodTimeout_running rfl target running),
    ?low, ?power, ?sensor⟩
  case enable =>
    rintro ⟨_, m, d⟩ posted (rfl | rfl)
    · exact s.on_eq ((Chip.postedTo_some posted rfl).trans (Chip.postDone_some posted rfl))
    · exact s.on_eq ((Chip.postedTo_some posted rfl).trans (Chip.postDone_some posted rfl))
  case sleep =>
    intro count asleep en whole low high
    refine (s.on_neg ?_).trans (s.on_neg (by omega))
    simp only [en, whole, Bool.true_eq_false, Bool.false_eq_true, or_false]
    omega
  case resume =>
    rintro ⟨_, m, d⟩ posted rfl
    exact s.on_eq (congrArg Chip.autoResume (Chip.postedTo_some posted rfl))
  case event =>
    rintro ⟨_, m, d⟩ posted rfl
    exact s.on_eq ((Chip.postedTo_some posted rfl).trans (Chip.postDone_some posted rfl))
  case level =>
    rintro ⟨_, m, d⟩ posted rfl target
    exact s.on_eq (((Chip.postedTo_some posted rfl).trans (Chip.postDone_some posted rfl)).trans (if_pos target))
  case low =>
    intro idle
    exact s.on_pos (by rw [idle]; rfl)
  case power =>
    rintro ⟨_, m, d⟩ posted rfl
    exact s.on_eq (Chip.postedTo_some posted rfl)
  case sensor =>
    rintro ⟨_, m, d⟩ posted rfl
    exact s.on_eq ((Chip.postedTo_some posted rfl).trans (Chip.postDone_some posted rfl))

end Sys2Proof.Machine
end

section
/-! Sleep, wake, resets and supply (13_power_and_reset.md R420 to R446). -/

namespace Sys2Proof.Machine

/-- An entry that neither a save nor a command holds back. -/
theorem Chip.entryBegin_free {c : Chip} {r : PwrReqSt} (during : List (Nat × Nat)) (req : c.pwr.req = some r) (saved : c.cal.mtpq = [])
    (idle : c.mbRunning = none) :
    c.entryBegin during = (if r.target = 1 then c.dozeEnter else c.sleepEnter r.target).wakeSources during true := by
  have ready : (!c.cal.mtpq.isEmpty || c.mbRunning.isSome) ≠ true := by simp [saved, idle]
  unfold Chip.entryBegin
  rw [req]
  exact if_neg ready

section
variable (s : State)

/-- A Watch period whose readings all lie within their thresholds wakes nothing. -/
theorem exec_watchPeriod_within (temps rails : List (BitVec 16)) {d : Chip} (seen : d = s.chip.sensorsSeen temps rails)
    (watch : s.chip.pwr.mode = 3) (asleep : s.chip.pwr.wake = none) (sense : s.chip.on PWR PWR_WATCH_PAIRS_SENSE = true)
    (within : ∀ k < 14, ∀ w, (if k < 8 then temps[k]? else rails[k - 8]?) = some w →
      signed 16 (d.get (bk k PWR) PWR_THR_LO_LOW) ≤ signed 16 w.toNat ∧ signed 16 w.toNat ≤ signed 16 (d.get (bk k PWR) PWR_THR_HI_HIGH)) :
    exec (.watchPeriod temps rails) s = .next (s.on d) := by
  subst seen
  refine (s.on_pos ⟨watch, asleep, sense⟩).trans ?_
  dsimp only
  rw [List.find?_eq_none.mpr]
  intro k small
  have bounds := within k (List.mem_range.mp small)
  cases reading : (if k < 8 then temps[k]? else rails[k - 8]?) with
  | none => exact Bool.false_ne_true
  | some w =>
    obtain ⟨low, high⟩ := bounds w reading
    dsimp only
    rw [decide_eq_true_eq, not_or]
    exact ⟨Int.not_lt.mpr low, Int.not_lt.mpr high⟩

/-- The step of a wake that makes the kept stores ready. -/
theorem exec_wakeStepReady_mem (errs : List (Fin 4 × Fin 8192 × BitVec 145)) {d : Chip} (checked : d = s.chip.keepCheck errs)
    (step : s.chip.pwr.wake = some 2) (free : s.chip.pwr.pinDue = false) (still : d.pwr.pinDue = false) :
    exec (.wakeStepReady errs) s = .next (s.on ((d.put PWR PWR_WAKE_STEP_MEM 1).modPwr fun x => { x with wake := some 3 })) := by
  subst checked
  show execWakeStepReady errs s = _
  simp only [execWakeStepReady, State.act, step, free, still, Bool.false_eq_true, if_false]

end

/-- Settles O20: each event's condition is its own; an entry begins when neither a save nor a command is left
(`Chip.entryBegin_free`). -/
theorem powerEventsComplete : Obligations.PowerEventsComplete := fun s =>
  ⟨fun _ req saved idle => s.on_eq (Chip.entryBegin_free [] req saved idle), fun doze due => s.on_pos ⟨doze, due⟩,
    fun temps rails watch asleep sense within => exec_watchPeriod_within s temps rails rfl watch asleep sense within,
    fun _ _ other => s.on_neg other, rfl, fun _ => rfl,
    fun errs step free still => exec_wakeStepReady_mem s errs rfl step free still,
    fun powered => s.on_neg powered, fun _ low => s.on_pos low, fun _ _ _ _ _ => rfl, rfl⟩

end Sys2Proof.Machine
end

section
/-! Calibration, ageing, self test and the Roll engines (14_calibration_and_ageing.md, 15_self_test_and_faults.md). -/

namespace Sys2Proof.Machine

/-- A good write leaves the queue as the newest of its record. -/
theorem Chip.mtpDone_good {c : Chip} {w : MtpWrite} {l : List MtpWrite} (queue : c.cal.mtpq = w :: l) {seq : Nat}
    (last : seq = ((c.mtpSlots w.record).head?.map (·.seq)).getD 0) :
    c.mtpDone true = (c.modCal fun x => { x with
      mtpq := l, writes := x.writes.set w.record (x.writes.get w.record + 1),
      mtp := slotPut x.mtp (c.mtpPlace w.record) { words := w.words, seq := (seq + 1) % 65536, good := true } }).putB CAL CAL_FG_STAT_SAVE_BUSY (!l.isEmpty) := by
  subst last
  unfold Chip.mtpDone
  rw [queue]
  exact if_pos rfl

/-- What an engine becomes depends on the engine only. -/
theorem Chip.modRoll_congr {c : Chip} {e : Fin 26} {f g : RollSt → RollSt} (h : f c.bist.engines[e] = g c.bist.engines[e]) :
    c.modRoll e f = c.modRoll e g :=
  congrArg (fun r => c.modBist fun b => { b with engines := b.engines.set e.val r }) h

section
variable (s : State) (t : Fin 24)

/-- Targets of a port with a signal are kept. -/
theorem exec_bgTargetUpdate_port (vals : List (BitVec 8 × BitVec 16)) (eye : BitVec 16) (port : t.val < 8) (signal : s.chip.bgSignal t = true) :
    exec (.bgTargetUpdate t vals eye) s = .next (s.on (s.chip.each vals fun c (x : BitVec 8 × BitVec 16) =>
      if x.1.toNat < trimCount t then c.modCal fun y => { y with tgt := y.tgt.set (256 * t + x.1.toNat) (trimClip t x.1.toNat x.2.toInt) } else c)) := by
  show execBgTargetUpdate t vals eye s = _
  unfold execBgTargetUpdate State.act
  dsimp only
  rw [if_neg (Nat.not_le.mpr port)]
  exact s.on_pos signal

/-- A foreground calibration of a lane ends without new trims. -/
theorem exec_calFgEnd_lane {us : Nat} (time : us = (s.chip.tpll - ((s.chip.cal.running.find? fun r => r.1 == t.val).map (·.2)).getD 0) / 1250)
    {d : Chip} (ended : d = ((s.chip.put CAL CAL_FG_TIME_TIME (min 65535 us)).modCal fun x =>
      { x with temps := x.temps.set t s.chip.tempMax, lastFg := x.lastFg.set t x.runCyc }).calEnd t 1)
    (lane : 8 ≤ t.val) (runs : s.chip.calRuns t = true) :
    exec (.calFgEnd t []) s = .next (s.on
      (((d.putBit CAL CAL_BG_DUE_L_DUE (t - 8) false).modLane (calLaneOf t) fun x => { x with fgCal := false }).laneEval (calLaneOf t))) := by
  subst time ended
  have notOct : ¬ (t.val < 8 ∧ s.chip.lState (calPortOf t) = 6) := fun oct => Nat.not_lt.mpr lane oct.1
  refine (s.on_pos ⟨runs, fun oct => absurd oct notOct⟩).trans ((s.on_neg (Nat.not_lt.mpr lane)).trans ?_)
  rw [if_neg notOct]
  rfl

/-- A margin of more than 5,000 keeps an approved change of kind 1. -/
theorem exec_vguardCheck_kept (a : AgeProp) (before after : Nat) (prop : s.chip.age.props[(0 : Fin 4)] = some a) (kind : a.kind = 1)
    (approved : a.approved = true) (better : before + 5000 ≤ after) :
    exec (.vguardCheck before after) s = .next (s.on ((s.chip.modAge fun x => { x with guard := min 4 (x.guard + 1) }).ageTaken 0 a)) := by
  show execVguardCheck before after s = _
  unfold execVguardCheck State.act
  dsimp only
  rw [List.find?_cons_of_pos (by rw [prop]; simp [kind, approved])]
  dsimp only
  rw [prop]
  exact s.on_pos better

/-- The second pass of a self test without failures. -/
theorem exec_bistPassEnd_second (t count : Nat) (sig : BitVec 32) (sigOk : Bool) {b want : Nat} (block : b = bk t BIST) (words : want = 10 * bistWords t)
    {d e : Chip} (counted : d = s.chip.putWide (b + BIST_COUNT_VALUE.off) 2 (s.chip.wide (b + BIST_COUNT_VALUE.off) 2 + min count want))
    (signed : e = d.putWide (b + BIST_SIG_VALUE.off) 2 sig.toNat) (run : s.chip.bist.run = some t) (phase : s.chip.get BIST BIST_STAT_PHASE = 3) :
    exec (.bistPassEnd count [] sig sigOk) s = .next (s.on (((e.modBist fun x => { x with passes := x.passes + 1, sigBad := x.sigBad || !sigOk }).modBist
      fun x => { x with bad := x.bad || false }).put BIST BIST_STAT_PHASE 4)) := by
  subst block words counted signed
  show execBistPassEnd count [] sig sigOk s = _
  unfold execBistPassEnd State.act
  dsimp only
  rw [run]
  exact (s.on_pos (.inr phase)).trans (s.on_neg fun second => absurd (phase.symm.trans second) (by decide))

end

/-- Settles O21: background and foreground calibration, saves, the planner and the ledger each under their own condition. -/
theorem calibrationEventsComplete : Obligations.CalibrationEventsComplete := by
  intro s t
  refine ⟨fun vals eye port signal => exec_bgTargetUpdate_port s t vals eye port signal, rfl,
    fun lane runs => exec_calFgEnd_lane s t rfl rfl lane runs,
    fun w l queue => s.on_eq (congrArg Chip.entryDue (Chip.mtpDone_good queue rfl)),
    fun temp run interval idle due ready first => s.on_pos ⟨run, interval, idle, due, ready, first⟩,
    fun d run => s.on_neg fun asleep => asleep run, rfl, rfl,
    fun a before after prop kind approved better => exec_vguardCheck_kept s a before after prop kind approved better⟩

/-- Settles O22: phases of a self test, TAP instructions, an engine's symbols and held frames, a counter's overflow and the sensors. -/
theorem testEventsComplete : Obligations.TestEventsComplete := by
  intro s
  refine ⟨fun drain => s.on_pos drain, fun t count sig sigOk run phase => exec_bistPassEnd_second s t count sig sigOk rfl rfl rfl rfl run phase,
    fun code => rfl, rfl, ?symbol, ?held, fun u k n en free event full => s.on_pos ⟨en, free, event, full⟩, fun _ _ awake => s.on_pos awake⟩
  case symbol =>
    intro e on en selects acts
    refine (s.on_neg (by simp [on, en])).trans ((s.on_neg (by simp [selects])).trans (s.on_pos acts))
  case held =>
    intro e h l held
    refine s.on_eq (Chip.modRoll_congr ?_)
    rw [held]

end Sys2Proof.Machine
end

section
/-! Commands of the Binder (11_binder_mailboxes.md R364 to R388): a short command completes with what it answers, a long one becomes
a job with what it keeps. -/

namespace Sys2Proof.Machine

/-- A run that has not failed takes its next step. -/
theorem runStep_ok {x : Run} (f : Chip → Run) (ok : x.2 = 0) : runStep x f = f x.1 := if_pos ok

/-- A last step that only judges leaves a run that it admits as it was. -/
theorem runStep_admitted {x : Run} {code : Nat} (ok : x.2 = 0) (admitted : code = 0) : runStep x (fun c => (c, code)) = x :=
  (runStep_ok _ ok).trans (Prod.ext rfl (admitted.trans ok.symm))

section
variable (s : State) {id : Nat} {m : Fin 4} {r : MbReq}

/-- The short command that runs completes with its code and its result words. -/
theorem State.short_answers {f : MbReq → Chip → Ans} {d : Chip} {code : Nat} {res : List Nat} (now : s.chip.cmdNow id = some (m, r))
    (answer : f r s.chip = (d, code, res)) : s.short id f = .next (s.done m r code (d, res)) := by
  unfold State.short State.act
  dsimp only
  rw [now]
  dsimp only
  rw [answer]

/-- A command that only writes completes with code 0 when its accesses do. -/
theorem State.short_wrote {f : MbReq → Chip → Ans} {x : Run} (now : s.chip.cmdNow id = some (m, r)) (answer : f r s.chip = wrote0 x)
    (ok : x.2 = 0) : s.short id f = .next (s.done m r 0 (x.1, [])) :=
  s.short_answers now (answer.trans (by rw [wrote0, ok]))

/-- A command that shows what it read completes with it when its accesses do. -/
theorem State.short_words {f : MbReq → Chip → Ans} {y : Run × List Nat} (now : s.chip.cmdNow id = some (m, r))
    (answer : f r s.chip = words0 y) (ok : y.1.2 = 0) : s.short id f = .next (s.done m r 0 (y.1.1, y.2)) :=
  s.short_answers now (answer.trans (by rw [words0, ok, if_pos rfl]))

/-- The same with result words made from what it read. -/
theorem State.short_shows {f : MbReq → Chip → Ans} {x : Run} {l : List Nat} (now : s.chip.cmdNow id = some (m, r))
    (answer : f r s.chip = words0 (x, l)) (ok : x.2 = 0) : s.short id f = .next (s.done m r 0 (x.1, l)) :=
  s.short_answers now (answer.trans (by rw [words0, ok, if_pos rfl]))

/-- The long command that runs and starts becomes a job. -/
theorem State.long_starts {f : MbReq → Chip → Chip × Nat × List Int} {d : Chip} {keep : List Int} (now : s.chip.cmdNow id = some (m, r))
    (answer : f r s.chip = (d, 0, keep)) : s.long id f = .next (s.jobbed m r keep d) := by
  unfold State.long State.act
  dsimp only
  rw [now]
  dsimp only
  rw [answer]
  rfl

/-- A long command whose start is a run of accesses becomes a job when they complete. -/
theorem State.long_started {f : MbReq → Chip → Chip × Nat × List Int} {x : Run} {keep : List Int} (now : s.chip.cmdNow id = some (m, r))
    (answer : f r s.chip = started x keep) (ok : x.2 = 0) : s.long id f = .next (s.jobbed m r keep x.1) :=
  s.long_starts now (answer.trans (by rw [started, ok]))

/-- One word of OCT_TONES: the nibbles of eight tones. -/
theorem exec_octTones_word {x : Run × Nat}
    (tones : x = (List.range 8).foldl (fun (z : Run × Nat) (j : Nat) =>
      if 2039 < r.p 1 + j then z
      else let v := withSel (lpB (portNo (r.p 0))) OCT_TONE_SEL_TONE (r.p 1 + j) (bread s.lock (lpB (portNo (r.p 0)) + OCT_TONE_BITS_RX_BITS.off) 1) z.1
        (v.1, z.2 + v.2 % 16 * 16 ^ j)) ((s.chip, 0), 0))
    (now : s.chip.cmdNow 0x0108 = some (m, r)) (low : 1 ≤ r.p 2) (high : r.p 2 ≤ 8) (ok : x.1.2 = 0) :
    exec .octTones s = .next (s.done m r 0 (x.1.1, [x.2])) := by
  have one : (r.p 2 + 7) / 8 = 1 := by omega
  show execOctTones s = _
  unfold execOctTones
  refine s.short_shows now ?_ ok
  rw [tones, one]
  simp only [List.range_one, List.foldl_cons, List.foldl_nil, Nat.mul_zero, Nat.add_zero, List.nil_append]

end

/-- Settles O23: each command's accesses are its own, and it completes or becomes a job (`State.short_answers`, `State.long_starts`). -/
theorem linkCommandsComplete : Obligations.LinkCommandsComplete := by
  intro s m r
  refine ⟨fun now ok => show execLinkInfo s = _ from s.short_words now rfl ok, fun now ok => show execLinkEnable s = _ from s.short_wrote now rfl ok,
    fun now ok => show execLinkRestart s = _ from s.short_wrote now rfl ok, fun now ok => show execLinkMode s = _ from s.short_wrote now rfl ok,
    fun now => show execLinkWaitUp s = _ from s.long_starts now rfl, fun now ok => show execOctConfig s = _ from s.short_wrote now rfl ok,
    ?reload, fun now low high ok => exec_octTones_word s rfl now low high ok, ?diag,
    fun now ok => show execPipWake s = _ from s.short_wrote now rfl ok, fun now ok => show execHostMode s = _ from s.long_started now rfl ok,
    fun now ok => show execLaneInfo s = _ from s.short_words now rfl ok⟩
  case reload =>
    intro x now active free ok
    show execOctReload s = _
    exact s.long_started now (congrArg (fun x => started x []) (runStep_admitted ok (by rw [active, free]; rfl))) ok
  case diag =>
    intro x now ok
    show execPipDiag s = _
    exact s.long_starts now (congrArg (fun x => started x []) (runStep_ok _ ok))

end Sys2Proof.Machine
end

section
/-! Commands of the Binder: time and diagnosis (11_binder_mailboxes.md R370 to R383). -/

namespace Sys2Proof.Machine

section
variable (s : State) {m : Fin 4} {r : MbReq}

/-- TIME_SLEW while Folio follows no source. -/
theorem exec_timeSlew_free {x old new : Run × Nat} {d : Int} (seen : x = bread s.lock (FOLIO + FOLIO_STAT_STATE.off) 1 (s.chip, 0))
    (first : old = bread s.lock (FOLIO + FOLIO_RATE_RATE.off) 3 x.1)
    (step : d = (r.p 2 * 2 ^ 56 / 1000000000 : Nat) * (signed 64 (r.p 0 * 2 ^ 32 + r.p 1)).sign)
    (second : new = bread s.lock (FOLIO + FOLIO_RATE_RATE.off) 3 (bwide s.lock (FOLIO + FOLIO_RATE_RATE.off) 3 (unsigned 48 (signed 48 old.2 + d)) old.1))
    (now : s.chip.cmdNow 0x0204 = some (m, r)) (ok : x.1.2 = 0) (free : x.2 % 8 = 1) (done : new.1.2 = 0) :
    exec .timeSlew s = .next (s.jobbed m r [signed 48 old.2, signed 48 new.2 - signed 48 old.2, d] new.1.1) := by
  have admitted : runStep x.1 (fun c => (c, if x.2 % 8 = 1 then 0 else 8)) = x.1 := runStep_admitted ok (if_pos free)
  show execTimeSlew s = _
  unfold execTimeSlew
  refine s.long_started now ?_ done
  dsimp only
  rw [← seen, admitted, ← first, ← step, ← second]

/-- EVT_ARM of an output that its accesses arm. -/
theorem exec_evtArm_armed {o : Fin 4} {x : Run × Nat} (output : o = Fin.ofNat 4 (r.p 0)) (accesses : x = evtArm s.lock r (s.chip, 0))
    (now : s.chip.cmdNow 0x0208 = some (m, r)) (armed : ((evtArm s.lock r (s.chip.outStop o, 0)).1.1.folio.outs[o]).armed = true) (ok : x.1.2 = 0) :
    exec .evtArm s = .next (s.done m r 0 (x.1.1, [x.2])) := by
  subst output
  have admitted : runStep x.1 (fun c => (c, if ((evtArm s.lock r
      (s.chip.outStop (Fin.ofNat 4 (r.p 0)), 0)).1.1.folio.outs[Fin.ofNat 4 (r.p 0)]).armed then 0 else 8)) = x.1 :=
    runStep_admitted ok (if_pos armed)
  show execEvtArm s = _
  unfold execEvtArm
  refine s.short_shows now ?_ ok
  dsimp only
  rw [← accesses, admitted]

/-- CAP_READ takes stamps once it has read the state of the input. -/
theorem exec_capRead_stamps {x : Run} {y : Chip × List (Nat × Bool)} (seen : x = (bread s.lock (FOLIO + FOLIO_CAP_STAT_LEVEL.off) 1 (s.chip, 0)).1)
    (taken : y = capMany (Fin.ofNat 4 (r.p 0)) x.1 [] (r.p 1)) (now : s.chip.cmdNow 0x0209 = some (m, r)) (ok : x.2 = 0) :
    exec .capRead s = .next (s.done m r 0 (y.1, [y.2.length + 256 * ofBits (y.2.map (·.2))] ++ y.2.flatMap fun v => tWords v.1)) := by
  show execCapRead s = _
  unfold execCapRead
  refine s.short_shows (x := (y.1, 0)) now ?_ rfl
  dsimp only
  rw [← seen, if_pos ok, ← taken, ok]

/-- ERRLOG clears VALID when it is asked to. -/
theorem exec_errlog_read {x : Run × List Nat} {y : Run}
    (read : x = breads s.lock [(REGB + REG_ERRLOG_CAUSE_CAUSE.off, 1), (REGB + REG_ERRLOG_ADDR_ADDR.off, 2), (REGB + REG_ERRLOG_CNT_CNT.off, 1)] (s.chip, 0))
    (armed : y = bput s.lock REGB REG_ERRLOG_CAUSE_VALID 1 x.1)
    (now : s.chip.cmdNow 0x0303 = some (m, r)) (again : r.p 0 % 2 = 1 → y.2 = 0) (ok : x.1.2 = 0) :
    exec .errlog s = .next (s.done m r 0 (if r.p 0 % 2 = 1 then y.1 else x.1.1, x.2)) := by
  show execErrlog s = _
  unfold execErrlog
  by_cases asked : r.p 0 % 2 = 1
  · rw [if_pos asked]
    refine s.short_shows now ?_ (again asked)
    dsimp only
    rw [if_pos asked, ← read, ← armed]
  · rw [if_neg asked]
    refine s.short_words now ?_ ok
    dsimp only
    rw [if_neg asked, ← read]

end

/-- Settles O24: each command's accesses are its own, and it completes or becomes a job. -/
theorem timeCommandsComplete : Obligations.TimeCommandsComplete := by
  intro s m r
  refine ⟨fun now ok => show execTimeGet s = _ from s.short_shows now rfl ok, fun now ok => show execTimeSet s = _ from s.short_wrote now rfl ok,
    fun now ok => show execTimeAdd s = _ from s.short_wrote now rfl ok,
    fun now ok free done => exec_timeSlew_free s rfl rfl rfl rfl now ok free done,
    fun now ok => show execTimeRate s = _ from s.short_shows now rfl ok, fun now ok => show execTimeSource s = _ from s.short_wrote now rfl ok,
    fun now => show execTimeWaitLock s = _ from s.long_starts now rfl,
    ?arm, fun now ok => exec_capRead_stamps s rfl rfl now ok,
    fun now ok => show execPortTime s = _ from s.short_words now rfl ok⟩
  case arm =>
    intro o x now armed ok
    exact exec_evtArm_armed s (o := o) (x := x) rfl rfl now armed ok

/-- Settles O25: each command's accesses are its own, and it completes or becomes a job; a job that ends is shown, and the watchdog
ends every job. -/
theorem diagnosticCommandsComplete : Obligations.DiagnosticCommandsComplete := by
  intro s m r
  refine ⟨?tdr, fun now ok => show execDelayClear s = _ from s.short_wrote now rfl ok,
    fun now again ok => exec_errlog_read s rfl rfl now again ok,
    fun now ok => show execCtrSnapshot s = _ from s.short_shows now rfl ok, fun now ok => show execSensors s = _ from s.short_shows now rfl ok,
    fun now ok => show execAlerts s = _ from s.short_words now rfl ok, fun now => show execJobRead s = _ from s.short_answers now rfl,
    fun now ok => show execQuireHealth s = _ from s.short_words now rfl ok, fun now ok => show execIdentify s = _ from s.short_shows now rfl ok,
    ?job, ?watchdog⟩
  case tdr =>
    intro p x now idle ok
    show execTdrRun s = _
    exact s.long_started now (congrArg (fun x => started x []) (runStep_admitted ok (if_pos idle))) ok
  case job =>
    intro j limit ok a on running result
    refine (s.on_pos ⟨on, running⟩).trans (s.on_eq ?_)
    rw [result]
  case watchdog =>
    intro on idle
    refine (s.on_pos on).trans (s.on_eq ?_)
    dsimp only
    rw [idle]

end Sys2Proof.Machine
end

section
/-! Commands of the Binder: calibration, power, test and the cascade (11_binder_mailboxes.md R370 to R388). -/

namespace Sys2Proof.Machine

section
variable (s : State) {m : Fin 4} {r : MbReq}

/-- A calibration that begins makes its command a job. -/
theorem started_calStart {x : Run} {d : Chip} {t : Nat} (ok : x.2 = 0) (begun : x.1.calStart t = (d, 0)) :
    started (runStep x fun c => let y := c.calStart t; (y.1, if y.2 = 0 then 0 else calCode y.2)) [] = (d, 0, []) := by
  rw [runStep_ok _ ok]
  dsimp only
  rw [begun]
  rfl

/-- NVM_READ of a record that no area has fallen back from. -/
theorem exec_nvmRead_used (v : NvmSlot) (now : s.chip.cmdNow 0x0404 = some (m, r)) (slot : s.chip.nvmSlot (r.p 0) (r.p 1) = some v)
    (whole : s.chip.cal.use.find? (fun x => x.1 == r.p 1) = none) :
    exec .nvmRead s = .next (s.done m r 0 (s.chip, [v.good.toNat] ++ (List.range (r.p 3)).map fun i => s.chip.nvmWord (r.p 0) (r.p 1) (r.p 2 + i))) := by
  show execNvmRead s = _
  unfold execNvmRead
  refine s.short_answers now ?_
  dsimp only
  rw [slot, whole]
  rfl

/-- AGE_LEDGER shows the entry that it names. -/
theorem exec_ageLedger_entry (e : AgeEntry) (now : s.chip.cmdNow 0x0407 = some (m, r)) (entry : s.chip.age.ledger[r.p 0]? = some e) :
    exec .ageLedger s = .next (s.done m r 0 (s.chip, (List.range 16).map fun i => e.words.getD i 0)) := by
  show execAgeLedger s = _
  unfold execAgeLedger
  refine s.short_answers now ?_
  rw [entry]

/-- AGE_ANSWER approves or vetoes the proposal that it names. -/
theorem exec_ageAnswer_first (a : AgeProp) (now : s.chip.cmdNow 0x0409 = some (m, r)) (prop : s.chip.age.props[(0 : Fin 4)] = some a)
    (named : a.word = r.p 0) :
    exec .ageAnswer s = .next (s.done m r 0 (if r.p 1 = 0 then s.chip.propApprove 0 else s.chip.propVeto 0, [])) := by
  show execAgeAnswer s = _
  unfold execAgeAnswer
  refine s.short_answers now ?_
  rw [quad, List.find?_cons_of_pos (by rw [prop]; simp [named])]

/-- PWR_LEVEL waits for the level that it asks for. -/
theorem exec_pwrLevel_ends (pgood : Bool) {x : Run} {d : Chip} (asked : x = bput s.lock CLK CLK_LEVEL_TARGET (r.p 0) (s.chip, 0))
    (ended : d = x.1.levelEnds pgood) (now : s.chip.cmdNow 0x0503 = some (m, r)) (ok : x.2 = 0) :
    exec (.pwrLevel pgood) s = .next (s.done m r 0 (d, [d.get CLK CLK_LEVEL_ACTUAL])) := by
  show execPwrLevel pgood s = _
  unfold execPwrLevel
  refine s.short_shows (x := (d, 0)) now ?_ rfl
  dsimp only
  rw [← asked, runStep_ok _ ok, ← ended]

/-- BIST_RUN of a target that starts becomes a job. -/
theorem exec_bistRun_starts {x : Chip × Nat} (asked : x = s.chip.bistAsk (r.p 0) (r.p 1 % 2 == 1)) (now : s.chip.cmdNow 0x0601 = some (m, r))
    (started : x.2 = 0) : exec .bistRun s = .next (s.jobbed m r [] x.1) := by
  show execBistRun s = _
  unfold execBistRun
  refine s.long_starts now ?_
  dsimp only
  rw [← asked, started]
  rfl

/-- STACK_DEMOTE of an acting head. -/
theorem exec_stackDemote_acting {x : Run} (written : x = bput s.lock SPINE SPINE_CMD_DEMOTE 1 (s.chip, 0))
    (now : s.chip.cmdNow 0x0705 = some (m, r)) (acting : s.chip.role = 2) (ok : x.2 = 0) :
    exec .stackDemote s = .next (s.done m r 0 (x.1, [])) := by
  show execStackDemote s = _
  unfold execStackDemote
  refine s.short_wrote now ?_ ok
  rw [if_pos acting, written]

end

/-- Settles O26: each command's accesses are its own, and it completes or becomes a job. -/
theorem calibrationCommandsComplete : Obligations.CalibrationCommandsComplete := by
  intro s m r
  refine ⟨?port, ?lane, fun now ok => show execCalSchedule s = _ from s.short_wrote now rfl ok,
    fun v now slot whole => exec_nvmRead_used s v now slot whole, fun now => show execNvmSaveCal s = _ from s.long_starts now rfl,
    fun now ok => show execAgeRead s = _ from s.short_shows now rfl ok, fun e now entry => exec_ageLedger_entry s e now entry,
    fun now ok => show execAgePolicy s = _ from s.short_wrote now rfl ok, fun a now prop named => exec_ageAnswer_first s a now prop named,
    fun now => show execAgeEntryNow s = _ from s.long_starts now rfl⟩
  case port =>
    intro x y now ok begun
    show execCalPort s = _
    exact s.long_starts now (started_calStart ok (Prod.ext rfl begun))
  case lane =>
    intro x y now ok begun
    show execCalLane s = _
    exact s.long_starts now (started_calStart ok (Prod.ext rfl begun))

/-- Settles O27: each command's accesses are its own, and it completes. -/
theorem powerCommandsComplete : Obligations.PowerCommandsComplete := fun s _ _ =>
  ⟨fun now => show execPwrEnter s = _ from s.short_answers now rfl, fun now ok => show execPwrKeep s = _ from s.short_wrote now rfl ok,
    fun pgood now ok => exec_pwrLevel_ends s pgood rfl rfl now ok, fun now ok => show execPwrStatus s = _ from s.short_shows now rfl ok,
    fun now ok => show execPwrWatch s = _ from s.short_wrote now rfl ok, fun now ok => show execPwrWakeSrc s = _ from s.short_wrote now rfl ok,
    fun now ok => show execPwrPartner s = _ from s.short_wrote now rfl ok, fun now ok => show execPwrThresh s = _ from s.short_wrote now rfl ok⟩

/-- Settles O28: each command's accesses are its own, and it completes or becomes a job. -/
theorem testCommandsComplete : Obligations.TestCommandsComplete := fun s _ _ =>
  ⟨fun now started => exec_bistRun_starts s rfl now started, fun now ok => show execBistResult s = _ from s.short_shows now rfl ok,
    fun now => show execRepairSave s = _ from s.long_starts now rfl, fun now ok => show execPrbsRun s = _ from s.long_started now rfl ok,
    fun now ok => show execRollSet s = _ from s.short_wrote now rfl ok, fun now ok => show execRollStop s = _ from s.short_wrote now rfl ok,
    fun now => show execEcho s = _ from s.short_answers now rfl, fun now ok => show execLoopback s = _ from s.short_wrote now rfl ok⟩

/-- Settles O29: each command's accesses and messages are its own (R386 to R388), and it completes or becomes a job. -/
theorem stackCommandsComplete : Obligations.StackCommandsComplete := by
  intro s m r
  refine ⟨fun now => show execRemote s = _ from s.long_starts now rfl, fun now ok => show execStackInfo s = _ from s.short_words now rfl ok,
    fun now ok => show execStackReset s = _ from s.short_wrote now rfl ok, fun now ok => show execStackPromote s = _ from s.short_wrote now rfl ok,
    fun now acting ok => exec_stackDemote_acting s rfl now acting ok, fun now ok => show execSpillConfig s = _ from s.short_wrote now rfl ok, ?all⟩
  case all =>
    intro w par d e now
    refine s.on_eq ?_
    dsimp only
    rw [now]

end Sys2Proof.Machine
end
